-- ==== Sys2Proof/Word.lean ====
section
/-! DEFINITION. The word types of the block: bytes, 16-, 32- and 64-bit words (R7, R9). -/
namespace Sys2Proof

/-- One byte of a lane, a packet, the scratchpad or DRAM (R8, R9). -/
abbrev Byte := BitVec 8

/-- One word of the register bus or of the scratchpad (R9). -/
abbrev W32 := BitVec 32

/-- One 64-bit register or request word (R9, R125). -/
abbrev W64 := BitVec 64

end Sys2Proof
end

