-- ==== Sys2Proof/Syntax.lean ====
section
/-! DEFINITION. The commands of the block: one constructor of `Instr` for each row of spec/opcode_table.json, in the table's
order, with the operands its rule names. The table gives no operand and no bits, so the operands are the model's reading
(log entry 2): an index, a value written, or what the environment measured. -/
namespace Sys2Proof

/-- The straps the board ties (R286, R418). -/
structure Straps where
  /-- SIDE: false side A, true side B. -/
  side : Bool
  /-- MATE_PRESENT: the unit is wired for a pair. -/
  matePresent : Bool
  /-- STRAP[3:0], whose functions are those of R418. -/
  general : BitVec 4
  deriving DecidableEq, Repr

/-- A lane of the unit: one of the 64 Horale lanes or one of the two Dexgor lanes (R27, R289). -/
inductive LaneId where
  | horale (n : Fin 64)
  | dexgor (l : Fin 2)
  deriving DecidableEq, Repr

/-- A 160 MHz reference: that of a lane quad (R41) or that of the Dexgor lanes (R289). -/
inductive RefClk where
  | quad (q : Fin 16)
  | dexgor
  deriving DecidableEq, Repr

/-- The lane defects of R91, in the order of the DEF bits. -/
inductive LaneDefect where
  | los | lol | oof | lof | ais | rdi | tim | sd | exc | frx | stv
  deriving DecidableEq, Repr

/-- The drawer defects of R115, in the order of the DEF bits. -/
inductive DrawerDefect where
  | lop | dAis | dUneq | dPlm | dRdi | dSd | dExc | dTagx | dJce
  deriving DecidableEq, Repr

/-- One received lane frame as it comes from the receive pins (R50, R85): the bits that follow its FAS, through the scrambled region
and the filler to the end of the last place where the next FAS may stand, and the core row in which the frame's row 0 arrives
(R102's row skew). -/
structure RxFrame where
  bits     : List Bool
  rowSkew  : Fin 36
  deriving DecidableEq, Repr

/-- The two kinds of integrator register: INTEG[d] of a lane (R89) and DINTEG[d] of a lane's drawers (R115). -/
inductive IntegReg where
  | lane (d : LaneDefect)
  | drawer (d : DrawerDefect)
  deriving DecidableEq, Repr

/-- A fabric: the drawer fabric or the slot fabric (R162). -/
inductive Fabric where
  | drawer | slot
  deriving DecidableEq, Repr

/-- A stored connection word: fabric, bank role (false active, true edit) and word index W (R133, R153). -/
structure WordRef where
  fabric : Fabric
  edit   : Bool
  index  : BitVec 22
  deriving DecidableEq, Repr

/-- A selector: that of an output drawer (R184) or that of a lane-pair group (R195). -/
inductive SelRef where
  | out (a : BitVec 20)
  | group (g : Fin 32)
  deriving DecidableEq, Repr

/-- A side of a selector. -/
inductive Side where
  | working | protect
  deriving DecidableEq, Repr

/-- A received Ethernet frame: its bytes from the destination address to the last payload byte, whether its FCS was correct,
and how long before the present its SFD passed the MAC, in 2^-16 ns of the 1588 clock (R228, R272). -/
structure EthRx where
  bytes  : List Byte
  fcsOk  : Bool
  sfdAgo : Nat
  /-- The part of the receive correction that the MAC measures for the frame's position within its RS-FEC codeword, in 2^-16 ns. -/
  fecPos : Int
  deriving DecidableEq, Repr

/-- The debounced activity of a reference (R252). -/
inductive Activity where
  | active | inactive | unstable
  deriving DecidableEq, Repr

/-- What the timing unit measures at a 100 ms update (R253, R263): one offset against LO_IN per reference, in 0.01 ppm, and the phase
error of the DPLL's output to the reference it follows, past the build-out, in ns. A reference without a new measurement (1 PPS between
two pulses) is left out. -/
structure TimingMeas where
  refs : List (Fin 13 × Int)
  phase : Int
  deriving DecidableEq, Repr

/-- A phase hit: the reference, and by how much its observed phase departs from the predicted one, in ns (R256). -/
structure PhaseHit where
  ref       : Fin 13
  departure : Nat
  deriving DecidableEq, Repr

/-- A direction of the Icusk chain: the unit's input pairs or its output pairs (R309). -/
inductive ChainSide where
  | inp | outp
  deriving DecidableEq, Repr

/-- A loss of the chain's clock: on which side, and for how many control cycles it is gone (R310). -/
structure ClockGap where
  side : ChainSide
  gone : Nat
  deriving DecidableEq, Repr

/-- The masters of the bus matrix, M0 to M5 (R326). -/
inductive Master where
  | host | chain | seq | mirror | mapc | bench
  deriving DecidableEq, Repr

/-- The targets of the bus matrix, T0 to T5 (R326). -/
inductive Target where
  | t0 | t1 | t2 | t3 | t4 | t5
  deriving DecidableEq, Repr

/-- A base address register of the endpoint (R322). -/
inductive Bar where
  | bar0 | bar2 | bar4
  deriving DecidableEq, Repr

/-- A PCIe memory request (R322): write data is a list of bytes with the offset of its first byte; a read asks for `len` bytes.
`tag` names a non-posted request's completion; `lock` asks for a lock (R321). -/
structure PcieReq where
  bar    : Bar
  offset : Nat
  write  : Bool
  data   : List Byte
  len    : Nat
  tag    : Nat
  lock   : Bool
  deriving DecidableEq, Repr

/-- What a PCIe configuration request, or an access to the MSI-X table held in the endpoint, sets (R324). -/
inductive PcieCfg where
  | busMaster (on : Bool)
  | vectorEntry (v : Fin 64) (addr : W64) (data : W32)
  | vectorMask (v : Fin 64) (masked : Bool)
  /-- A configuration read of 32-bit register `reg`, with the tag of its completion (R321). -/
  | read (tag : Nat) (reg : BitVec 10)
  deriving DecidableEq, Repr

/-- What happened on PERST_N or on the PCIe link (R321, R332). -/
inductive PerstEvent where
  | assert | release | linkDown | linkUp
  deriving DecidableEq, Repr

/-- The indirect ports (R115, R142, R144, R157, R184, R215, R232, R236). -/
inductive Port where
  | drw (n : Fin 64) | bench | sfab | conf | prot | eq | pwCtx | pwTpl
  deriving DecidableEq, Repr

/-- The register pages of R406. -/
inductive Page where
  | global | power | event | perf | timing | ntime | mate | matrix | seq | secure | dramc | bench
  | lanep | lanef | dfab | mapc | sfab | conf | prot | eq | pw | eth
  deriving DecidableEq, Repr

/-- What the March and the read-back found on a scratchpad line (R364): offsets of bits that failed the March, and of bytes
that read back wrong. -/
structure LineResult where
  march   : List Nat
  restore : List Nat
  deriving DecidableEq, Repr

/-- An access of the sequencer's private path on the scratchpad's port B in a word of the dual-port region (R358, R360): its offset,
and the bytes it writes from there on; none when it reads. -/
structure PortBAccess where
  offset : Nat
  data   : Option (List Byte)
  deriving DecidableEq, Repr

/-- A transaction of a master inside the unit (R326): the sequencer's program, the Dexgor mirror or the map compiler issues it. A
write carries its bytes, a read asks for `len` bytes; `first` and `last` mark the ends of a locked sequence (R331). -/
structure MasterReq where
  m     : Master
  addr  : W32
  write : Bool
  data  : List Byte
  len   : Nat
  first : Bool
  last  : Bool
  deriving DecidableEq, Repr

/-- What the environment brings to a frame boundary (R23): what was detected on read during the frame that ends (R37, R139,
R140, R159, R345), the wires sampled at the hinge, the deferral of APS and feedback inputs lies in the lanes' own state. -/
structure HingeIn where
  /-- Connection words that failed their check on a read in the frame that ends (R139, R159), with the first row that met it. -/
  det      : List (WordRef × Fin 36) := []
  /-- Row-store parity detections: port, row, column (R140). -/
  rowPar   : List (Fin 75 × Fin 36 × BitVec 13) := []
  /-- Input slots whose stored value failed its parity (R159). -/
  slotPar  : List (BitVec 21) := []
  /-- Lookahead bytes whose parity failed: group, and place in its store from the oldest on (R219, R220). -/
  lookPar  : List (BitVec 16 × Fin 36) := []
  /-- DRAM bursts that have been altered since the last hinge, with the 80 bytes that each now holds: data and check bytes (R37, R208). -/
  dram     : List (Nat × List Byte) := []
  /-- Scratchpad bytes whose parity has failed since the last hinge, by offset (R359). -/
  spPar    : List (BitVec 19) := []
  /-- The event queue's two fill counters disagree (R345). -/
  eqErr    : Bool := false
  /-- The trace FIFO's two fill counters disagree (R345, R355). -/
  trErr    : Bool := false
  /-- The chain command queue's two fill counters disagree (R315, R345). -/
  chErr    : Bool := false
  deriving DecidableEq, Repr

/-- The commands of the block: one constructor per row of spec/opcode_table.json. -/
inductive Instr where
  /-- POWER_ON (R394). -/
  | powerOn (st : Straps)
  /-- RESET_N_ASSERT (R395). -/
  | resetNAssert
  /-- RESET_N_RELEASE (R395). -/
  | resetNRelease (st : Straps)
  /-- SOFT_RESET (R397: the value written to GLOBAL.SFTRST). -/
  | softReset (key : W32)
  /-- SOFT_RESET_END (R397). -/
  | softResetEnd
  /-- HINGE (R23). -/
  | hinge (i : HingeIn)
  /-- FRAME_TICK (R27: `bits` is the number of lane bits between the last two ticks, set by the quad reference (R49)). -/
  | frameTick (l : LaneId) (bits : Nat)
  /-- LANE_FRAME_RX (R85). -/
  | laneFrameRx (l : LaneId) (f : RxFrame)
  /-- FAS_CANDIDATE_OPEN (R82: an exact match at bit position p). -/
  | fasCandidateOpen (l : LaneId) (p : Nat)
  /-- FAS_CANDIDATE_CONFIRM (R83: the candidate at p meets the FAS at q, with `stuff` stuffing bits removed and `diff` filler differences). -/
  | fasCandidateConfirm (l : LaneId) (p q stuff diff : Nat)
  /-- FAS_CANDIDATE_DROP (R83). -/
  | fasCandidateDrop (l : LaneId) (p : Nat)
  /-- SIG_DET_CHANGE (R91, R289). -/
  | sigDetChange (l : LaneId) (present : Bool)
  /-- CDR_LOCK_CHANGE (R91, R289). -/
  | cdrLockChange (l : LaneId) (locked : Bool)
  /-- QUAD_PLL_LOCK_CHANGE (R42). -/
  | quadPllLockChange (q : RefClk) (locked : Bool)
  /-- REF_OFFSET_UPDATE (R42: the offset measured, in 0.01 ppm). -/
  | refOffsetUpdate (q : RefClk) (off : Int)
  /-- REF_RANGE_CLEAR (R42). -/
  | refRangeClear (q : RefClk)
  /-- LANE_DEFECT_DECLARE (R89: its integrator shows `run` × 100 ms). -/
  | laneDefectDeclare (n : Fin 64) (d : LaneDefect) (run : Nat)
  /-- LANE_DEFECT_CLEAR (R89: its integrator shows `run` × 100 ms). -/
  | laneDefectClear (n : Fin 64) (d : LaneDefect) (run : Nat)
  /-- FILLER_BER_CHECK (R90). -/
  | fillerBerCheck (n : Fin 64)
  /-- DRAWER_DEFECT_DECLARE (R89, R115: its integrator shows `run` × 100 ms). -/
  | drawerDefectDeclare (n : Fin 64) (c : BitVec 13) (d : DrawerDefect) (run : Nat)
  /-- DRAWER_DEFECT_CLEAR (R89, R115: its integrator shows `run` × 100 ms). -/
  | drawerDefectClear (n : Fin 64) (c : BitVec 13) (d : DrawerDefect) (run : Nat)
  /-- INTEG_WRITE (R89: the values written to SET and CLEAR). -/
  | integWrite (n : Fin 64) (r : IntegReg) (set clear : Byte)
  /-- LANE_EN_SET (R57). -/
  | laneEnSet (n : Fin 64)
  /-- LANE_EN_CLEAR (R43). -/
  | laneEnClear (n : Fin 64)
  /-- RATE_WRITE (R43). -/
  | rateWrite (n : Fin 64) (rate : BitVec 2)
  /-- LOOP_WRITE (R60). -/
  | loopWrite (n : Fin 64) (loop : BitVec 2)
  /-- EQ_LOAD (R56). -/
  | eqLoad (n : Fin 64)
  /-- EQ_LOAD_DONE (R56). -/
  | eqLoadDone (n : Fin 64)
  /-- EYE_START (R59). -/
  | eyeStart (n : Fin 64)
  /-- EYE_ABORT (R59). -/
  | eyeAbort (n : Fin 64)
  /-- EYE_POINT_DONE (R59: the disagreements counted in the dwell). -/
  | eyePointDone (n : Fin 64) (count : Nat)
  /-- DRW_READ (R115: the drawer named by LANEF[n].DRW_IDX). -/
  | drwRead (n : Fin 64)
  /-- DRW_READ_CLEAR (R115). -/
  | drwReadClear (n : Fin 64)
  /-- DRW_WRITE (R115). -/
  | drwWrite (n : Fin 64)
  /-- REQ_PUSH (R129: the word written to REQ_HI; REQ_LO was written before). -/
  | reqPush (hi : W32)
  /-- LIST_START (R129). -/
  | listStart
  /-- LIST_ABORT (R129). -/
  | listAbort
  /-- LIST_REQUEST_FETCH (R129). -/
  | listRequestFetch
  /-- LIST_TAG_CHECK_DONE (R372). -/
  | listTagCheckDone
  /-- MAP_CONNECT (R126: the request at the head of the compiler's input). -/
  | mapConnect
  /-- MAP_UNEQ (R126). -/
  | mapUneq
  /-- MAP_AIS (R126). -/
  | mapAis
  /-- SLOT (R155). -/
  | slot
  /-- CONST (R155). -/
  | const
  /-- PARTY (R155). -/
  | party
  /-- HEAR (R155). -/
  | hear
  /-- PLANE_EN_WRITE (R136). -/
  | planeEnWrite (v : BitVec 8)
  /-- MAP_INIT_DONE (R134). -/
  | mapInitDone
  /-- WORD_RECOMPUTE (R179: the word that failed its check; `altered`: DRAM bursts altered since the last hinge, as in `HingeIn`). -/
  | wordRecompute (w : WordRef) (altered : List (Nat × List Byte))
  /-- CENTRE_LOSS_SWEEP (R180). -/
  | centreLossSweep
  /-- ROUTE_BURST_WRITE (R211: burst number within the fabric's part of the image (16 records each)). -/
  | routeBurstWrite (f : Fabric) (edit : Bool) (burst : Nat)
  /-- BENCH_READ (R142). -/
  | benchRead
  /-- BENCH_READ_CLEAR (R142). -/
  | benchReadClear
  /-- BENCH_WRITE (R437). -/
  | benchWrite
  /-- G_READ (R144). -/
  | gRead
  /-- G_READ_CLEAR (R144). -/
  | gReadClear
  /-- CONF_READ (R157). -/
  | confRead
  /-- CONF_READ_CLEAR (R157). -/
  | confReadClear
  /-- COMMIT_NOW (R168). -/
  | commitNow
  /-- COMMIT_ARM (R170). -/
  | commitArm (dropLate : Bool)
  /-- COMMIT_CANCEL (R172). -/
  | commitCancel
  /-- COMMIT_TAKE (R164). -/
  | commitTake
  /-- COMMIT_CUT (R167). -/
  | commitCut
  /-- CATCHUP_DONE (R173). -/
  | catchupDone
  /-- SUM_ACT (R177). -/
  | sumAct
  /-- SUM_EDIT (R177). -/
  | sumEdit
  /-- SUM_DONE (R177). -/
  | sumDone
  /-- SEL_LO (R187: the selector named by PROT.S_IDX). -/
  | selLo
  /-- SEL_FS (R187). -/
  | selFs
  /-- SEL_MS_P (R187). -/
  | selMsP
  /-- SEL_MS_W (R187). -/
  | selMsW
  /-- SEL_CLEAR (R187). -/
  | selClear
  /-- S_READ (R184). -/
  | sRead
  /-- S_READ_CLEAR (R184). -/
  | sReadClear
  /-- S_WRITE (R184). -/
  | sWrite
  /-- GRP_LO (R187). -/
  | grpLo (g : Fin 32)
  /-- GRP_FS (R187). -/
  | grpFs (g : Fin 32)
  /-- GRP_MS_P (R187). -/
  | grpMsP (g : Fin 32)
  /-- GRP_MS_W (R187). -/
  | grpMsW (g : Fin 32)
  /-- GRP_CLEAR (R187). -/
  | grpClear (g : Fin 32)
  /-- G_CFG_WRITE (R195). -/
  | gCfgWrite (g : Fin 32) (v : W32)
  /-- HOLDOFF_EXPIRE (R186: `run` is the time the condition has held, in 100 ms steps). -/
  | holdoffExpire (t : SelRef) (side : Side) (run : Nat)
  /-- WTR_EXPIRE (R190: `run` is the time the wait-to-restore has run, in seconds). -/
  | wtrExpire (t : SelRef) (run : Nat)
  /-- APS_MM_DECLARE (R202). -/
  | apsMmDeclare (g : Fin 32)
  /-- APS_MM_CLEAR (R202). -/
  | apsMmClear (g : Fin 32)
  /-- DRAM_CFG_WRITE (R206). -/
  | dramCfgWrite (c : Fin 2) (v : W32)
  /-- DRAM_TRAIN_DONE (R206). -/
  | dramTrainDone (c : Fin 2)
  /-- DRAM_TRAIN_FAIL (R206). -/
  | dramTrainFail (c : Fin 2) (step : BitVec 4)
  /-- DQS_RETUNE (R206). -/
  | dqsRetune (c : Fin 2)
  /-- DRAM_HOT_CHANGE (R206). -/
  | dramHotChange (c : Fin 2) (hot : Bool)
  /-- WINDOW_WRITE (R209). -/
  | windowWrite (m : Master) (addr : W32) (data : List Byte)
  /-- WIN_ENABLE (R214). -/
  | winEnable (w : Fin 8) (v : W32)
  /-- Q_READ (R215). -/
  | qRead
  /-- Q_READ_CLEAR (R215). -/
  | qReadClear
  /-- Q_WRITE (R215). -/
  | qWrite
  /-- EQ_MULTIFRAME (R217: container 0 of the multiframe with TAG `tag` of the copy of side `side`). -/
  | eqMultiframe (q : Fin 65536) (side : Side) (tag : BitVec 16)
  /-- EQ_CONTAINER_RELEASE (R220: container `i` of the multiframe with TAG `tag`; `altered`: DRAM bursts altered since the last hinge, as in
  `HingeIn`). -/
  | eqContainerRelease (q : Fin 65536) (tag : BitVec 16) (i : Fin 32) (altered : List (Nat × List Byte))
  /-- CTX_READ (R232). -/
  | ctxRead
  /-- CTX_READ_CLEAR (R232). -/
  | ctxReadClear
  /-- CTX_WRITE (R232). -/
  | ctxWrite
  /-- TPL_READ (R236). -/
  | tplRead
  /-- TPL_WRITE (R236). -/
  | tplWrite
  /-- TPL_INVAL (R236). -/
  | tplInval
  /-- ETH_FRAME_RX (R238). -/
  | ethFrameRx (p : Fin 8) (f : EthRx)
  /-- ETH_FRAME_TX (R274): how long before the present the frame's SFD passed the MAC, in 2^-16 ns. -/
  | ethFrameTx (p : Fin 8) (sfdAgo : Nat)
  /-- ETH_LINK_CHANGE (R228). -/
  | ethLinkChange (p : Fin 8) (up : Bool)
  /-- LAUNCH_SLOT (R244). -/
  | launchSlot (s : Fin 125)
  /-- HOST_TX_DESC (R246). -/
  | hostTxDesc (p : Fin 8)
  /-- PLAYOUT_UNIT (R241). -/
  | playoutUnit (n : Fin 16384)
  /-- JB_BURST_WRITE (R240: the burst of units f and f xor 1). -/
  | jbBurstWrite (n : Fin 16384) (f : Nat)
  /-- JB_MERGE (R240). -/
  | jbMerge (n : Fin 16384) (f : Nat)
  /-- REF_ACTIVITY_CHANGE (R252). -/
  | refActivityChange (r : Fin 13) (a : Activity)
  /-- UNSTABLE_CLEAR (R252). -/
  | unstableClear (r : Fin 13)
  /-- TIMING_UPDATE (R255). -/
  | timingUpdate (m : TimingMeas)
  /-- PERSIST_EXPIRE (R255: the time beyond DISQ, in 100 ms steps). -/
  | persistExpire (r : Fin 13) (run : Nat)
  /-- HIT (R256: the departure of the observed phase from the predicted one within 100 ms, or at a pulse). -/
  | hit (p : PhaseHit)
  /-- REF_QUALIFY (R257: the time the reference has been good, in seconds). -/
  | refQualify (r : Fin 13) (run : Nat)
  /-- LOCKOUT_END (R258). -/
  | lockoutEnd (r : Fin 13)
  /-- TRANSITION_STEP (R260: the target's phase against the output, measured in the step). -/
  | transitionStep (phase : Int)
  /-- DPLL_LOCKED (R263). -/
  | dpllLocked
  /-- HOLDOVER_OOS (R265: the holdover timer shows `seconds`). -/
  | holdoverOos (seconds : Nat)
  /-- LO_FAIL_DECLARE (R266). -/
  | loFailDeclare
  /-- LO_FAIL_CLEAR (R266). -/
  | loFailClear
  /-- TIME_READ (R271). -/
  | timeRead
  /-- SAMPLE_PUSH (R276). -/
  | samplePush (hi : W32)
  /-- MASTER_TIMEOUT (R277: the time without a sample, in 100 ms steps). -/
  | masterTimeout (run : Nat)
  /-- STEP_GO (R280). -/
  | stepGo (abs neg : Bool)
  /-- PPS_OUT_EDGE (R275). -/
  | ppsOutEdge
  /-- PPS_IN (R275). -/
  | ppsIn
  /-- ACT_ARM (R284). -/
  | actArm (s : Fin 16) (action : BitVec 4) (dropLate : Bool)
  /-- ACT_CANCEL (R284). -/
  | actCancel (s : Fin 16)
  /-- DX_ENABLE (R290). -/
  | dxEnable
  /-- HEARTBEAT_RX (R293: the 56 overhead bytes, and the delay measured from the own hinge to the FAS). -/
  | heartbeatRx (l : Fin 2) (lo : List Byte) (lagNs : Nat)
  /-- HB_FRAME_MISSED (R293). -/
  | hbFrameMissed
  /-- MIR_REQ (R295: the 16 bytes of the record). -/
  | mirReq (l : Fin 2) (rec : List Byte)
  /-- MIR_COMMIT (R295). -/
  | mirCommit (l : Fin 2) (rec : List Byte)
  /-- MIR_SEL (R295). -/
  | mirSel (l : Fin 2) (rec : List Byte)
  /-- MIR_GRP (R295). -/
  | mirGrp (l : Fin 2) (rec : List Byte)
  /-- MIR_EQCFG (R295). -/
  | mirEqcfg (l : Fin 2) (rec : List Byte)
  /-- MIR_PWCFG (R295). -/
  | mirPwcfg (l : Fin 2) (rec : List Byte)
  /-- MIR_PWCTX (R295). -/
  | mirPwctx (l : Fin 2) (rec : List Byte)
  /-- MIR_TIMING (R295). -/
  | mirTiming (l : Fin 2) (rec : List Byte)
  /-- MIR_TIME (R295). -/
  | mirTime (l : Fin 2) (rec : List Byte)
  /-- MIR_PULL (R306). -/
  | mirPull (l : Fin 2) (rec : List Byte)
  /-- MIR_PULL_END (R306). -/
  | mirPullEnd (l : Fin 2) (rec : List Byte)
  /-- MIR_RELEASE (R296). -/
  | mirRelease
  /-- SWAP (R301). -/
  | swap
  /-- JOIN (R306). -/
  | join
  /-- MATE_PULL (R298). -/
  | matePull
  /-- RTS_ALIGN_DONE (R306). -/
  | rtsAlignDone
  /-- RTS_VERIFY_DONE (R306: the mate's four sums). -/
  | rtsVerifyDone (actD actS editD editS : W32)
  /-- RTS_FAIL (R306). -/
  | rtsFail
  /-- GASP_IN (R302). -/
  | gaspIn
  /-- CLAIM_MATE_CHANGE (R304). -/
  | claimMateChange (asserted : Bool)
  /-- FAULT_WRITE (R300). -/
  | faultWrite (f : Bool)
  /-- CHAIN_ENUM (R317). -/
  | chainEnum (f : BitVec 96)
  /-- CHAIN_RD (R315). -/
  | chainRd (side : ChainSide) (f : BitVec 96)
  /-- CHAIN_WR (R315). -/
  | chainWr (side : ChainSide) (f : BitVec 96)
  /-- CHAIN_RESET_ADDR (R312). -/
  | chainResetAddr (side : ChainSide) (f : BitVec 96)
  /-- CHAIN_WAKE (R312). -/
  | chainWake (side : ChainSide) (f : BitVec 96)
  /-- CHAIN_FORWARD (R314). -/
  | chainForward (side : ChainSide) (f : BitVec 96)
  /-- CHAIN_CMD_EXECUTE (R315). -/
  | chainCmdExecute
  /-- NOTIFY_REPEAT (R339). -/
  | notifyRepeat
  /-- ARM_MODE_RETURN (R320). -/
  | armModeReturn
  /-- PCIE_REQUEST (R322). -/
  | pcieRequest (r : PcieReq)
  /-- PCIE_COMPLETION_TIMEOUT (R325). -/
  | pcieCompletionTimeout (tag : Nat)
  /-- PERST_N (R321). -/
  | perstN (e : PerstEvent)
  /-- MATRIX_GRANT (R328; `rs` are transactions that the masters inside the unit have issued since the last grant, and `b` is an access
  of the sequencer on port B in the same control cycle, R360). -/
  | matrixGrant (t : Target) (rs : List MasterReq) (b : Option PortBAccess)
  /-- MATRIX_TIMEOUT (R335). -/
  | matrixTimeout (t : Target)
  /-- BRIDGE_TMO (R335). -/
  | bridgeTmo
  /-- LOCK_BRK (R331). -/
  | lockBrk (t : Target)
  /-- WD_KICK (R336). -/
  | wdKick (key : W32)
  /-- WD_FIRED (R336: the time since the last kick, in µs). -/
  | wdFired (run : Nat)
  /-- REMAP_WRITE (R327). -/
  | remapWrite (m : Master) (remap : Bool)
  /-- EVT_MASK_WRITE (R339: page, instance, word written). -/
  | evtMaskWrite (p : Page) (i : Nat) (v : W32)
  /-- EVENT_QUEUE_POP (R344). -/
  | eventQueuePop
  /-- EVENT_QUEUE_FLUSH (R344). -/
  | eventQueueFlush
  /-- CHG_CAPTURE (R342). -/
  | chgCapture (v : W32)
  /-- CNT_PRESET (R347). -/
  | cntPreset (p : Page) (i : Nat) (k : Fin 8) (v : BitVec 48)
  /-- CNT_WRAP (R349). -/
  | cntWrap (p : Page) (i : Nat) (k : Fin 8)
  /-- PERF_SNAP (R351). -/
  | perfSnap
  /-- PERF_FREEZE (R350). -/
  | perfFreeze (on : Bool)
  /-- SNAP_PIN (R351: the level now sampled for 4 control cycles). -/
  | snapPin (level : Bool)
  /-- TRACE_ENABLE (R353: the word written to TR_CTL with EN = 1). -/
  | traceEnable (v : W32)
  /-- TRACE_RECORD (R354: none for a new candidate, or the tag that the item carries). -/
  | traceRecord (stage : Byte) (id : W32) (info : BitVec 16) (item : Option (BitVec 16))
  /-- TRACE_POP (R355). -/
  | tracePop
  /-- TRACE_DRAIN_WRITE (R355). -/
  | traceDrainWrite
  /-- SP_INIT_DONE (R357). -/
  | spInitDone
  /-- ST_LINE_TEST (R362). -/
  | stLineTest (r : LineResult)
  /-- ST_STALL (R363). -/
  | stStall
  /-- LC_GO (R367). -/
  | lcGo (target : BitVec 2)
  /-- LC_DONE (R367). -/
  | lcDone
  /-- LOAD_ID (R366). -/
  | loadId
  /-- LOAD_AUTH (R366). -/
  | loadAuth
  /-- ENFORCE_WRITE (R366). -/
  | enforceWrite (on : Bool)
  /-- TAMPER (R368). -/
  | tamper
  /-- RESPOND (R369). -/
  | respond
  /-- ID_RESPONSE_READY (R369). -/
  | idResponseReady
  /-- VIN_FAIL (R377). -/
  | vinFail
  /-- SHED (R378: the time since t_f, in 0.1 ms). -/
  | shed (stage : Fin 8) (run : Nat)
  /-- VIN_BACK (R379: the time from t_f, in 0.1 ms). -/
  | vinBack (held : Nat)
  /-- HOLDUP_EXHAUSTED (R380). -/
  | holdupExhausted
  /-- HOLDUP (R376). -/
  | holdup (ok : Bool)
  /-- DOM_EN_WRITE (R383: DOM_EN0 or, with `hi`, DOM_EN1). -/
  | domEnWrite (hi : Bool) (v : W32)
  /-- DOMAIN_USABLE (R384). -/
  | domainUsable (d : Fin 56)
  /-- XTAL (R386). -/
  | xtal (ok : Bool)
  /-- WAKE_N_EDGE (R387). -/
  | wakeNEdge
  /-- WAKE_TIMER_EXPIRE (R387: the seconds since entry to SLEEP). -/
  | wakeTimerExpire (run : Nat)
  /-- MODE_REQUEST (R389). -/
  | modeRequest (req : BitVec 3)
  /-- DRAM_QUEUE_TIMEOUT (R404). -/
  | dramQueueTimeout (c : Fin 2) (sub : Bool)
  /-- RX_FRAMER_TIMEOUT (R404). -/
  | rxFramerTimeout (n : Fin 64)
  /-- TX_FRAMER_TIMEOUT (R404). -/
  | txFramerTimeout (n : Fin 64)
  /-- INDIRECT_PORT_TIMEOUT (R404). -/
  | indirectPortTimeout (p : Port)
  /-- DRAM_TRAIN_TIMEOUT (R404). -/
  | dramTrainTimeout (c : Fin 2)
  /-- PAGE_LOCK (R409). -/
  | pageLock (p : Page) (i : Nat)
  /-- W1C_WRITE (R12: `set` holds the bits the hardware sets in the same cycle). -/
  | w1cWrite (addr v set : W32)
  /-- RC_READ (R13: `user` when the read comes through BAR2). -/
  | rcRead (user : Bool) (addr : W32)
  /-- WORD64_LOWER_READ (R14). -/
  | word64LowerRead (addr : W32)
  /-- WORD64_LOWER_WRITE (R14). -/
  | word64LowerWrite (addr v : W32)
  /-- WORD64_UPPER_WRITE (R14). -/
  | word64UpperWrite (addr v : W32)
  /-- REG_WRITE (R10). -/
  | regWrite (addr v : W32)
  /-- PPS_WIDTH_END (R275). -/
  | ppsWidthEnd
  /-- TAMPER_N_RELEASE (R368). -/
  | tamperNRelease
  /-- GASP_IN_RELEASE (R302). -/
  | gaspInRelease
  /-- TOK_IN_CHANGE (R317). -/
  | tokInChange (on : Bool)
  /-- CHAIN_CLOCK_LOSS (R310). -/
  | chainClockLoss (g : ClockGap)
  /-- MATRIX_RESPONSE (R335). -/
  | matrixResponse (t : Target)
  /-- INDIRECT_COMMAND_DONE (R404). -/
  | indirectCommandDone (p : Port)
  /-- PCIE_CONFIG_REQUEST (R324). -/
  | pcieConfigRequest (c : PcieCfg)
  /-- PAUSE_EXPIRE (R228). -/
  | pauseExpire (p : Fin 8)
  deriving DecidableEq, Repr

end Sys2Proof
end

