-- ==== Sys2Proof/Config.lean ====
section
/-! DEFINITION. What an implementation fixes and what the spec leaves open: constants without a body, so that no proof can
rest on a value of them. -/
namespace Sys2Proof

/-- The unit serial number (R411: per unit, never 0). Log entry 4. -/
opaque Config.uid : BitVec 64

/-- The value that power-on loads into AUTH_SEQ from the entropy source (R371), by the counter of free values. Log entry 6. -/
opaque Config.entropy : Nat → BitVec 64

/-- The training step a bring-up had reached when its limit of 80 ms expired (R404 names no step). Log entry 20. -/
opaque Config.trainStep : Nat → BitVec 4

/-- What a stored connection word whose code fails reads as through its window (R133 reads the word as stored). Log entry 21. -/
opaque Config.failedWord : Nat → BitVec 32

/-- Contents of the boot ROM, byte by byte (R327 gives the ROM a place and no contents). Log entry 22. -/
opaque Config.rom : Nat → Byte

/-- The servo loop's gains for each SERVO.BW (R277 gives the loop's form and bandwidth, not its gains): the proportional one in 2^-16
per second, and what the integral one adds for a sample, in the same unit. Log entry 24. -/
opaque Config.servoP : Nat → Nat
opaque Config.servoI : Nat → Nat

/-- Where the DPLL's loop takes the output while LOCKED, in 0.01 ppm, by the counter of free values, CTL.BW, the phase error in ns and the
reference's offset (R262 gives its bandwidth and bounds, not its form). Log entry 102. -/
opaque Config.dpllLoop : Nat → Nat → Int → Int → BitVec 20

/-- By how much the DPLL moves in 100 ms to steer the hinge offset δ down, in 0.01 ppm (R294 gives its bounds). Log entry 102. -/
opaque Config.mateSteer : Nat → Nat

/-- EPOCH_PHASE where the phase lies outside its 18 bits (R281 gives the phase, the register's width no place for it). Log entry 27. -/
opaque Config.phaseOut : Nat → BitVec 18

/-- Kaoramet's vendor ID (R321 names it, not its value). Log entry 107. -/
opaque Config.vendorId : BitVec 16

/-- What the endpoint's configuration registers hold beside its identity, by the counter of free values and the register (R321 gives the
identity alone). Log entry 107. -/
opaque Config.pcieSpace : Nat → Nat → BitVec 32

/-- The RTP time-stamp a context starts from (R235 gives its advance, not its start). Log entry 28. -/
opaque Config.rtpStart : Nat → BitVec 32

/-- A recovered clock's offset in 0.01 ppm (R243 gives the loop's bandwidth, not its gains). Log entry 25. -/
opaque Config.crOffset : Nat → BitVec 20

/-- What the converters read on VIN, on VHOLD and on the input power (R378 and the POWER page name the quantities, not their values),
and on the PCS of an Ethernet port (HI_BER, of which the register table gives the name alone). Log entries 29 and 72. -/
opaque Config.adc : Nat → BitVec 16

/-- Bytes that a far-end loop sends before it has received a payload to return (R61 discards the fabric's output, R64 names no other
source), by the counter of free values and the byte's place. Log entry 12. -/
opaque Config.loopEmpty : Nat → Nat → Byte

end Sys2Proof
end

