-- ==== Sys2Proof/Machine/Bits.lean ====
section
/-! DEFINITION. Bit-field, byte-order and modular helpers over `Nat` and lists of bytes or bits (R7 to R9, R170). -/
namespace Sys2Proof.Machine

/-- Bits `[lsb + width - 1 : lsb]` of `n` (R7). -/
def bits (n lsb width : Nat) : Nat := (n >>> lsb) % 2 ^ width

/-- Bit `b` of `n`. -/
def bit (n b : Nat) : Bool := n.testBit b

/-- 1 or 0. -/
def b2n (b : Bool) : Nat := if b then 1 else 0

/-- `n` with bit `b` set. -/
def setBit (n b : Nat) : Nat := n ||| (1 <<< b)

/-- `n` with bit `b` clear. -/
def clrBit (n b : Nat) : Nat := if n.testBit b then n - 2 ^ b else n

/-- `n` with bit `b` as `v` says. -/
def putBit (n b : Nat) (v : Bool) : Nat := if v then setBit n b else clrBit n b

/-- `n` with the bits that are 1 in `m` cleared, in a word of `w` bits. -/
def andNot (w n m : Nat) : Nat := n &&& ((2 ^ w - 1) ^^^ (m % 2 ^ w))

/-- `a + b`, stopping at the greatest value of `w` bits (a saturating count). -/
def satAdd (w a b : Nat) : Nat := min (a + b) (2 ^ w - 1)

/-- Signed reading of a `w`-bit field. -/
def toSigned (w n : Nat) : Int := if n < 2 ^ (w - 1) then (n : Int) else (n : Int) - 2 ^ w

/-- Two's complement of `i` in `w` bits. -/
def ofSigned (w : Nat) (i : Int) : Nat := (i % 2 ^ w).toNat

/-- `i` held between `lo` and `hi`. -/
def clampInt (lo hi i : Int) : Int := if i < lo then lo else if hi < i then hi else i

/-- The first `n` bytes of `v`, least significant first (R9). -/
def leBytes (n v : Nat) : List Byte :=
  match n with
  | 0 => []
  | n + 1 => BitVec.ofNat 8 v :: leBytes n (v / 256)

/-- The number whose bytes are `bs`, least significant first (R9). -/
def ofLe (bs : List Byte) : Nat :=
  match bs with
  | [] => 0
  | b :: r => b.toNat + 256 * ofLe r

/-- The number whose bytes are `bs`, most significant first (R8). -/
def ofBe (bs : List Byte) : Nat := bs.foldl (fun a b => a * 256 + b.toNat) 0

/-- The low `n` bytes of `v`, most significant first (R8). -/
def beBytes (n v : Nat) : List Byte := (leBytes n v).reverse

/-- The low `n` bits of `v`, most significant first: the order in which a field is sent (R8). -/
def beBits (n v : Nat) : List Bool := (List.range n).map (fun i => v.testBit (n - 1 - i))

/-- The number whose bits are `bs`, most significant first (R8). -/
def ofBits (bs : List Bool) : Nat := bs.foldl (fun a b => 2 * a + b2n b) 0

/-- The bits of a list of bytes in the order they are sent (R8). -/
def bytesToBits (bs : List Byte) : List Bool := bs.flatMap (fun b => beBits 8 b.toNat)

/-- Bits grouped into bytes, bit 7 first (R8); a last group of fewer than 8 bits is dropped. -/
def bitsToBytes (bs : List Bool) : List Byte :=
  match bs with
  | a :: b :: c :: d :: e :: f :: g :: h :: r => BitVec.ofNat 8 (ofBits [a, b, c, d, e, f, g, h]) :: bitsToBytes r
  | _ => []

/-- `n` bytes of `bs` from offset `o`; bytes beyond the end read as 0. -/
def sliceBytes (bs : List Byte) (o n : Nat) : List Byte :=
  (List.range n).map (fun i => bs.getD (o + i) 0)

/-- `bs` with the bytes from offset `o` replaced by `new`. -/
def patchBytes (bs : List Byte) (o : Nat) (new : List Byte) : List Byte :=
  bs.take o ++ new ++ bs.drop (o + new.length)

/-- How many bits are 1 in the low `w` bits of `n`. -/
def popCount (w n : Nat) : Nat :=
  match w with
  | 0 => 0
  | w + 1 => b2n (n.testBit w) + popCount w n

/-- The exclusive or of the bytes of `bs`. -/
def xorBytes (bs : List Byte) : Byte := bs.foldl (fun a b => a ^^^ b) 0

/-- Three equal values in a row, the newest first: the 3-frame acceptance of R71 and its like. -/
def agree3 {α : Type} [DecidableEq α] (a b c : α) : Bool := decide (a = b) && decide (b = c)

/-- Step forward from label `a` to label `b`, modulo 2^40 (R26, R170). -/
def epochStep (a b : Nat) : Nat := (b + 2 ^ 40 - a % 2 ^ 40) % 2 ^ 40

/-- Label `a` has been reached or passed at label `now`: the step forward from `a` to `now`, modulo 2^40, is below 2^39 (R170). -/
def epochReached (a now : Nat) : Bool := decide (epochStep a now < 2 ^ 39)

end Sys2Proof.Machine
end

