-- ==== Sys2Proof/Machine/Crypto.lean ====
section
/-! DEFINITION. The check codes of the block (CRC-32 of R54, CRC-16 of R292, CRC-8 of R110, CRC-6 of R132) and the hash of
the secure part (SHA-256 and HMAC of R369 to R372). -/
namespace Sys2Proof.Machine

/-- One bit into a CRC register of `w` bits with generator `poly`, most significant bit first. -/
def crcBit (w poly : Nat) (reg : Nat) (b : Bool) : Nat :=
  let top := reg.testBit (w - 1)
  let sh := (2 * reg) % 2 ^ w
  if top != b then sh ^^^ poly else sh

/-- A CRC without reflection over bits in the order sent. -/
def crcBits (w poly init : Nat) (bs : List Bool) : Nat := bs.foldl (crcBit w poly) init

/-- CRC-16 of R292: generator x^16 + x^12 + x^5 + 1, initial value 0xFFFF. -/
def crc16 (bs : List Bool) : Nat := crcBits 16 0x1021 0xFFFF bs

/-- CRC-8 of R110: generator x^8 + x^2 + x + 1, initial value 0. -/
def crc8 (bs : List Bool) : Nat := crcBits 8 0x07 0 bs

/-- CRC-6 of R132: generator x^6 + x + 1, initial value 0. -/
def crc6 (bs : List Bool) : Nat := crcBits 6 0x03 0 bs

/-- One bit into the reflected CRC-32 register. -/
def crc32Shift (n : Nat) (reg : Nat) : Nat :=
  match n with
  | 0 => reg
  | n + 1 => crc32Shift n (if reg % 2 = 1 then (reg / 2) ^^^ 0xEDB88320 else reg / 2)

/-- CRC-32 of IEEE 802.3 (R54): generator 0x04C1_1DB7 reflected in and out, initial value 0xFFFF_FFFF, final complement. -/
def crc32 (bs : List Byte) : Nat :=
  (bs.foldl (fun r b => crc32Shift 8 (r ^^^ b.toNat)) 0xFFFFFFFF) ^^^ 0xFFFFFFFF

/-! SHA-256. Its constants are what the standard says of them: the first 32 fractional bits of the cube roots of the first 64 primes for
the rounds, and of the square roots of the first 8 primes for the start. -/

/-- A prime below 361. -/
def smallPrime (n : Nat) : Bool := [2, 3, 5, 7, 11, 13, 17].all (fun d => decide (n ≤ d) || n % d != 0) && decide (2 ≤ n)

/-- The first 64 primes. -/
def shaPrimes : List Nat := (List.range 312).filter smallPrime

/-- The greatest number of `n` bits whose power `e` is at most `y`, from those that begin as `r` does. -/
def rootFrom (e y n r : Nat) : Nat :=
  match n with
  | 0 => r
  | n + 1 => rootFrom e y n (if (r + 2 ^ n) ^ e ≤ y then r + 2 ^ n else r)

/-- The first 32 fractional bits of the root `e` of `p`. -/
def rootWord (e p : Nat) : Nat := rootFrom e (p * 2 ^ (32 * e)) 37 0 % 2 ^ 32

/-- The round constants, and the hash before the first block. -/
def shaConstants : List Nat := shaPrimes.map (rootWord 3)
def shaStart : List Nat := (shaPrimes.take 8).map (rootWord 2)

/-- A word turned right by each of the amounts `rs`, the results added bit by bit. -/
def turned (rs : List Nat) (x : Nat) : Nat :=
  rs.foldl (fun y r => y ^^^ ((x * 2 ^ (32 - r) + x / 2 ^ r) % 2 ^ 32)) 0

/-- The schedule word that follows the words `ws`, newest first. -/
def nextWord (ws : List Nat) : Nat :=
  let near := ws.getD 1 0
  let far := ws.getD 14 0
  (ws.getD 15 0 + ws.getD 6 0 + (turned [7, 18] far ^^^ far / 2 ^ 3) + (turned [17, 19] near ^^^ near / 2 ^ 10)) % 2 ^ 32

/-- `n` further words of the schedule. -/
def schedule (n : Nat) (ws : List Nat) : List Nat :=
  match n with
  | 0 => ws
  | n + 1 => schedule n (nextWord ws :: ws)

/-- A round on the eight working words, with its constant and its schedule word. -/
def shaStep (v : List Nat) (kw : Nat × Nat) : List Nat :=
  let x (i : Nat) : Nat := v.getD i 0
  let pick := x 6 ^^^ (x 4 &&& (x 5 ^^^ x 6))
  let most := (x 0 &&& x 1) ||| (x 2 &&& (x 0 ||| x 1))
  let p := x 7 + kw.1 + kw.2 + pick + turned [6, 11, 25] (x 4)
  let q := p + most + turned [2, 13, 22] (x 0)
  (q % 2 ^ 32) :: v.take 3 ++ ((x 3 + p) % 2 ^ 32) :: (v.drop 4).take 3

/-- A block of 64 bytes enters the hash. -/
def shaAbsorb (v : List Nat) (block : List Byte) : List Nat :=
  let given := (List.range 16).map (fun i => ofBe (sliceBytes block (60 - 4 * i) 4))
  let out := (shaConstants.zip (schedule 48 given).reverse).foldl shaStep v
  List.zipWith (fun x y => (x + y) % 2 ^ 32) v out

/-- A message filled up to whole blocks: a 1, zeros, and its length in bits. -/
def shaPad (m : List Byte) : List Byte := m ++ [0x80] ++ List.replicate ((119 - m.length % 64) % 64) 0 ++ beBytes 8 (8 * m.length)

/-- SHA-256 of a byte string: 32 bytes. -/
def sha256 (m : List Byte) : List Byte :=
  let p := shaPad m
  let v := (List.range (p.length / 64)).foldl (fun v i => shaAbsorb v (sliceBytes p (64 * i) 64)) shaStart
  v.flatMap (beBytes 4)

/-- HMAC-SHA-256 with a key of at most 64 bytes. -/
def hmacSha256 (key msg : List Byte) : List Byte :=
  let k := key ++ List.replicate (64 - key.length) 0
  sha256 (k.map (fun b => b ^^^ 0x5C) ++ sha256 (k.map (fun b => b ^^^ 0x36) ++ msg))

end Sys2Proof.Machine
end

