-- ==== Sys2Proof/Machine/LineCode.lean ====
section
/-! DEFINITION. The line code of a lane: scrambler (R45), stuffing (R46, R47), frame regions (R67), BIP-16 (R72), FAS (R69). -/
namespace Sys2Proof.Machine

/-- The FAS (R69). -/
def fasWord : Nat := 0xF6F6F62828280B5D

/-- Columns of the payload array at a RATE code (R29, R67). -/
def rateCols (rate : Nat) : Nat := 1024 * 2 ^ (rate % 4)

/-- Shelves present at a RATE code (R29). -/
def rateShelves (rate : Nat) : Nat := 2 * 2 ^ (rate % 4)

/-- L_nom: bits per frame at nominal rate (R40, R67). -/
def nomBits (rate : Nat) : Nat := 320000 * 2 ^ (rate % 4)

/-- N: bits of the scrambled region before stuffing (R67): 56 overhead bytes and 36 rows of columns. -/
def regionBits (rate : Nat) : Nat := 448 + 288 * rateCols rate

/-- The scrambler's register after reset: all ones (R45). -/
def scrInit : Nat := 2 ^ 31 - 1

/-- The key bit of a scrambler register (R45). -/
def scrKey (q : Nat) : Bool := q.testBit 30 != q.testBit 27

/-- The scrambler register after one bit. -/
def scrNext (q : Nat) : Nat := (2 * q) % 2 ^ 31 + b2n (scrKey q)

/-- Data bits scrambled, or scrambled bits descrambled, from register `q` (R45). -/
def scramble (q : Nat) (bs : List Bool) : List Bool :=
  match bs with
  | [] => []
  | b :: r => (b != scrKey q) :: scramble (scrNext q) r

/-- Length of the run of identical bits after bit `b`, when the run so far is `c` bits of value `last` (R46). -/
def runLen (last : Bool) (c : Nat) (b : Bool) : Nat := if c ≠ 0 ∧ b = last then c + 1 else 1

/-- Stuffing: after each run of 40 identical bits the complement is inserted and the count restarts (R46). -/
def stuff (last : Bool) (c : Nat) (bs : List Bool) : List Bool :=
  match bs with
  | [] => []
  | b :: r => if runLen last c b = 40 then b :: (!b) :: stuff b 0 r else b :: stuff b (runLen last c b) r

/-- How many stuffing bits `stuff` inserts. -/
def stuffCount (last : Bool) (c : Nat) (bs : List Bool) : Nat :=
  match bs with
  | [] => 0
  | b :: r => if runLen last c b = 40 then 1 + stuffCount b 0 r else stuffCount b (runLen last c b) r

/-- Destuffing of up to `n` data bits: the data, how many bits were removed, and how many of them were no complement (R47). -/
def destuff (n : Nat) (last : Bool) (c : Nat) (bs : List Bool) : List Bool × Nat × Nat :=
  match bs, n with
  | [], _ => ([], 0, 0)
  | _ :: _, 0 => ([], 0, 0)
  | [b], _ + 1 => ([b], 0, 0)
  | b :: x :: r, n + 1 =>
    if runLen last c b = 40 then
      let t := destuff n b 0 r
      (b :: t.1, t.2.1 + 1, t.2.2 + b2n (x == b))
    else
      let t := destuff n b (runLen last c b) (x :: r)
      (b :: t.1, t.2.1, t.2.2)

/-- BIP-16 (R72): even parity per bit position of the 16-bit words, the first bit sent being bit 15. `i` is the place of the
next bit in its word. -/
def bip16 (i acc : Nat) (bs : List Bool) : Nat :=
  match bs with
  | [] => acc
  | b :: r => bip16 ((i + 1) % 16) (if b then acc ^^^ (1 <<< (15 - i)) else acc) r

/-- The bits in which two 16-bit parities differ (R72). -/
def bipViolations (a b : Nat) : Nat := popCount 16 (a ^^^ b)

/-- Even parity over bits 7, 5, 3, 1 and over bits 6, 4, 2, 0 of a container, from the exclusive or of its bytes: the bits
BIP_ODD and BIP_EVEN (R107). -/
def bip2 (x : Byte) : Bool × Bool :=
  ((x.getLsbD 7 != x.getLsbD 5) != (x.getLsbD 3 != x.getLsbD 1),
   (x.getLsbD 6 != x.getLsbD 4) != (x.getLsbD 2 != x.getLsbD 0))

/-- The FAS as bits, in the order of the line. -/
def fasBits : List Bool := beBits 64 fasWord

/-- In how many of its first 64 bits a stream differs from the FAS; none when it is shorter. -/
def fasDiff (bs : List Bool) : Option Nat :=
  if bs.length < 64 then none else some (((bs.take 64).zip fasBits).filter (fun x => x.1 != x.2)).length

/-- The position among the first `n`, counted from `off`, at which a stream differs least from the FAS, the earliest of equal ones,
with its difference (R85); `best` is the best before. -/
def fasPick (n off : Nat) (best : Option (Nat × Nat)) (bs : List Bool) : Option (Nat × Nat) :=
  match n, bs with
  | 0, _ => best
  | _, [] => best
  | n + 1, b :: r =>
    let best := match fasDiff ((b :: r).take 64), best with
      | none, x => x
      | some d, none => some (off, d)
      | some d, some x => if d < x.2 then some (off, d) else some x
    fasPick n (off + 1) best r

/-- Differences of a filler from the pattern 1, 0, 1, 0, … (R49, R50). -/
def fillerDiff (one : Bool) (bs : List Bool) : Nat :=
  match bs with
  | [] => 0
  | b :: r => b2n (b != one) + fillerDiff (!one) r

/-- The filler pattern, `n` bits (R49). -/
def fillerBits (n : Nat) : List Bool := (List.range n).map (fun i => i % 2 == 0)

/-- A received frame as the framer takes it from the bits that follow its FAS (R47, R50, R85): the data bits of its region, the stuffing
bits removed and the violations among them, the filler's length and differences, and whether the next FAS is errored. -/
structure LineFrame where
  data : List Bool
  removed : Nat
  viol : Nat
  fill : Nat
  diff : Nat
  errored : Bool
  deriving DecidableEq, Repr

/-- That frame at a RATE code: the next FAS is sought within W of a nominal frame from this one, not before the region ends (R85). None
where the bits hold no whole region or no place for a FAS. -/
def lineFrame (rate : Nat) (bs : List Bool) : Option LineFrame :=
  let w := nomBits rate / 1000
  let t := destuff (regionBits rate) false 0 bs
  let e := t.1.length + t.2.1
  let lo := max e (nomBits rate - w - 64)
  if t.1.length ≠ regionBits rate then none
  else
    match fasPick (nomBits rate + w - 64 + 1 - lo) lo none (bs.drop lo) with
    | none => none
    | some q =>
      some { data := t.1, removed := t.2.1, viol := t.2.2, fill := q.1 - e, diff := fillerDiff true ((bs.drop e).take (q.1 - e)),
             errored := q.2 != 0 }

/-- Bits as the pins carry them with a polarity inverted (R55). -/
def polarity (inv : Bool) (bs : List Bool) : List Bool := if inv then bs.map (!·) else bs

end Sys2Proof.Machine
end

