-- ==== Sys2Proof/Machine/RegMap.lean ====
section
/-! DEFINITION. The register map: the pages of R406, and every field of every register table of the spec as a named constant
`R.<PAGE>_<REGISTER>_<FIELD>` with its place, width and reset value, and the tables of access types (R10) and of what each
reset kind keeps (R17). Header fields (R407) take the page. -/
namespace Sys2Proof.Machine

/-- A register field: page, byte offset of its register in the page, byte stride between the registers of an array, the
field's least significant bit, its width and its reset value. -/
structure Fld where
  page   : Page
  off    : Nat
  stride : Nat
  lsb    : Nat
  width  : Nat
  rst    : Nat
  deriving DecidableEq, Repr

/-- The access types of R10. -/
inductive Acc where
  | rw | ro | w1c | w1s | rc | wo | rwl | rws
  deriving DecidableEq, Repr

/-- A field with its access type, the least and greatest encoding it takes (outside them the encoding is reserved, R16), and
whether a soft reset and RESET_N keep it (R17). -/
structure FSpec where
  fld   : Fld
  acc   : Acc
  lo    : Nat
  hi    : Nat
  keepS : Bool
  keepN : Bool
  deriving DecidableEq, Repr

/-- A register: byte offset, stride and count of its array, whether it is 64 bits wide (R9), and its fields. -/
structure RSpec where
  off    : Nat
  stride : Nat
  count  : Nat
  w64    : Bool
  fields : List FSpec
  deriving DecidableEq, Repr

/-- Base of page `p`, instance `i` (R406). -/
def pageBase (p : Page) (i : Nat) : Nat :=
  match p with
  | .global => 0x00000000 | .power => 0x00001000 | .event => 0x00002000 | .perf => 0x00003000
  | .timing => 0x00004000 | .ntime => 0x00005000 | .mate => 0x00006000 | .matrix => 0x00007000
  | .seq => 0x00008000 | .secure => 0x00009000 | .dramc => 0x0000A000 + i * 0x1000 | .bench => 0x0000C000
  | .lanep => 0x00100000 + i * 0x2000 | .lanef => 0x00101000 + i * 0x2000
  | .dfab => 0x00200000 | .mapc => 0x00201000 | .sfab => 0x00210000 | .conf => 0x00211000
  | .prot => 0x00220000 | .eq => 0x00221000 | .pw => 0x00230000 | .eth => 0x00238000 + i * 0x1000

/-- How many instances page `p` has (R406). -/
def pageCount (p : Page) : Nat :=
  match p with
  | .dramc => 2 | .lanep => 64 | .lanef => 64 | .eth => 8
  | .global | .power | .event | .perf | .timing | .ntime | .mate | .matrix | .seq | .secure | .bench | .dfab | .mapc
  | .sfab | .conf | .prot | .eq | .pw => 1

/-- TYPE of page `p` (R406). -/
def pageType (p : Page) : Nat :=
  match p with
  | .global => 0x01 | .power => 0x02 | .event => 0x03 | .perf => 0x04 | .timing => 0x05 | .ntime => 0x06 | .mate => 0x07
  | .matrix => 0x08 | .seq => 0x09 | .secure => 0x0A | .dramc => 0x0B | .bench => 0x0C | .lanep => 0x10 | .lanef => 0x11
  | .dfab => 0x20 | .mapc => 0x21 | .sfab => 0x22 | .conf => 0x23 | .prot => 0x24 | .eq => 0x25 | .pw => 0x26 | .eth => 0x27

/-- Power domain of page `p`, instance `i` (R406). -/
def pageDomain (p : Page) (i : Nat) : Nat :=
  match p with
  | .timing | .ntime => 2
  | .mate => 3
  | .lanep => 20 + i / 4
  | .lanef => 4 + i / 4
  | .eth => 52 + i / 4
  | .global | .power | .event | .perf | .matrix | .seq | .secure | .dramc | .bench | .dfab | .mapc | .sfab | .conf | .prot
  | .eq | .pw => 1

/-- Slot of page `p`, instance `i`, in the user view (R323). -/
def pageSlot (p : Page) (i : Nat) : Nat :=
  match p with
  | .global => 0 | .power => 1 | .event => 2 | .perf => 3 | .timing => 4 | .ntime => 5 | .mate => 6 | .matrix => 7
  | .seq => 8 | .secure => 9 | .dramc => 10 + i | .bench => 12 | .lanep => 13 + i | .lanef => 77 + i
  | .dfab => 141 | .mapc => 142 | .sfab => 143 | .conf => 144 | .prot => 145 | .eq => 146 | .pw => 147 | .eth => 148 + i

/-- The page and instance in slot `n` of the user view (R323). -/
def slotPage (n : Nat) : Option (Page × Nat) :=
  if n < 13 then
    ([(Page.global, 0), (.power, 0), (.event, 0), (.perf, 0), (.timing, 0), (.ntime, 0), (.mate, 0), (.matrix, 0),
      (.seq, 0), (.secure, 0), (.dramc, 0), (.dramc, 1), (.bench, 0)])[n]?
  else if n < 77 then some (.lanep, n - 13)
  else if n < 141 then some (.lanef, n - 77)
  else if n < 148 then
    ([(Page.dfab, 0), (.mapc, 0), (.sfab, 0), (.conf, 0), (.prot, 0), (.eq, 0), (.pw, 0)])[n - 141]?
  else if n < 156 then some (.eth, n - 148)
  else none

/-- The page, instance and offset at bus address `a` in the host view of target T0 (R406). -/
def pageAt (a : Nat) : Option (Page × Nat × Nat) :=
  let b := a / 0x1000
  let o := a % 0x1000
  if b ≤ 0xC then
    match slotPage b with
    | some (p, i) => some (p, i, o)
    | none => none
  else if 0x100 ≤ b ∧ b < 0x180 then
    (if b % 2 = 0 then some (.lanep, (b - 0x100) / 2, o) else some (.lanef, (b - 0x100) / 2, o))
  else if b = 0x200 then some (.dfab, 0, o)
  else if b = 0x201 then some (.mapc, 0, o)
  else if b = 0x210 then some (.sfab, 0, o)
  else if b = 0x211 then some (.conf, 0, o)
  else if b = 0x220 then some (.prot, 0, o)
  else if b = 0x221 then some (.eq, 0, o)
  else if b = 0x230 then some (.pw, 0, o)
  else if 0x238 ≤ b ∧ b < 0x240 then some (.eth, b - 0x238, o)
  else none

/-- How many event bits page `p` has: bit `b` names an event exactly when `b` is below this (R410). -/
def pageEvents (p : Page) : Nat :=
  match p with
  | .global => 5 | .power => 7 | .event => 3 | .perf => 4 | .timing => 14 | .ntime => 8 | .mate => 11 | .matrix => 5
  | .seq => 5 | .secure => 6 | .dramc => 5 | .bench => 1 | .lanep => 8 | .lanef => 22 | .dfab => 3 | .mapc => 13 | .sfab => 5
  | .conf => 1 | .prot => 4 | .eq => 4 | .pw => 5 | .eth => 4

/-- The greatest counter code of page `p`; codes 1 up to it are in the page's table (R348). -/
def pageCodes (p : Page) : Nat :=
  match p with
  | .global => 3 | .power => 3 | .event => 3 | .perf => 3 | .timing => 6 | .ntime => 5 | .mate => 7 | .matrix => 5
  | .seq => 5 | .secure => 6 | .dramc => 6 | .bench => 2 | .lanep => 5 | .lanef => 14 | .dfab => 4 | .mapc => 9 | .sfab => 5
  | .conf => 2 | .prot => 4 | .eq => 4 | .pw => 5 | .eth => 8

/-- The code of page `p` that counts a level ("above N", "longer than N"), if it has one (R348). -/
def levelCode (p : Page) : Option Nat :=
  match p with
  | .event | .perf => some 3
  | .matrix => some 4
  | .mapc | .dramc => some 5
  | .eth => some 8
  | .global | .power | .timing | .ntime | .mate | .seq | .secure | .bench | .lanep | .lanef | .dfab | .sfab | .conf | .prot
  | .eq | .pw => none

/-! Fields of the common header (R407). -/
def R.HDR_CNT_SEL_WRAP (p : Page) : Fld := ⟨p, 0xa0, 4, 31, 1, 0⟩
def R.HDR_CNT_SEL_MODE (p : Page) : Fld := ⟨p, 0xa0, 4, 28, 2, 0⟩
def R.HDR_CNT_SEL_N (p : Page) : Fld := ⟨p, 0xa0, 4, 8, 16, 0⟩
def R.HDR_CNT_SEL_CODE (p : Page) : Fld := ⟨p, 0xa0, 4, 0, 8, 0⟩
def R.HDR_PAGE_ID_VERSION (p : Page) : Fld := ⟨p, 0x0, 0, 24, 8, 1⟩
def R.HDR_PAGE_ID_TYPE (p : Page) : Fld := ⟨p, 0x0, 0, 8, 8, 0⟩
def R.HDR_PAGE_ID_INSTANCE (p : Page) : Fld := ⟨p, 0x0, 0, 0, 8, 0⟩
def R.HDR_PAGE_READY_DOMAIN (p : Page) : Fld := ⟨p, 0x4, 0, 8, 6, 0⟩
def R.HDR_PAGE_READY_DOMAIN_ON (p : Page) : Fld := ⟨p, 0x4, 0, 1, 1, 0⟩
def R.HDR_PAGE_READY_READY (p : Page) : Fld := ⟨p, 0x4, 0, 0, 1, 0⟩
def R.HDR_PAGE_CTL_LOCK (p : Page) : Fld := ⟨p, 0x8, 0, 0, 1, 0⟩
def R.HDR_EVT_STATUS_STATUS (p : Page) : Fld := ⟨p, 0x10, 0, 0, 32, 0⟩
def R.HDR_EVT_RAW_RAW (p : Page) : Fld := ⟨p, 0x14, 0, 0, 32, 0⟩
def R.HDR_EVT_MASK_MASK (p : Page) : Fld := ⟨p, 0x18, 0, 0, 32, 0xffffffff⟩
def R.HDR_CYCLES_CYCLES (p : Page) : Fld := ⟨p, 0x40, 0, 0, 64, 0⟩
def R.HDR_CNT_COUNT (p : Page) : Fld := ⟨p, 0x48, 8, 0, 48, 0⟩

/-! Fields of page GLOBAL. -/
def R.GLOBAL_MODE_REQ : Fld := ⟨.global, 0x120, 0, 0, 3, 0⟩
def R.GLOBAL_MODE_STAT_REFUSED : Fld := ⟨.global, 0x124, 0, 9, 1, 0⟩
def R.GLOBAL_MODE_STAT_PENDING : Fld := ⟨.global, 0x124, 0, 8, 1, 0⟩
def R.GLOBAL_MODE_STAT_PREV : Fld := ⟨.global, 0x124, 0, 4, 3, 2⟩
def R.GLOBAL_MODE_STAT_CUR : Fld := ⟨.global, 0x124, 0, 0, 3, 2⟩
def R.GLOBAL_READY_QUAD : Fld := ⟨.global, 0x130, 0, 16, 16, 0⟩
def R.GLOBAL_READY_HOLDUP : Fld := ⟨.global, 0x130, 0, 12, 1, 0⟩
def R.GLOBAL_READY_PW1 : Fld := ⟨.global, 0x130, 0, 11, 1, 0⟩
def R.GLOBAL_READY_PW0 : Fld := ⟨.global, 0x130, 0, 10, 1, 0⟩
def R.GLOBAL_READY_ETH1 : Fld := ⟨.global, 0x130, 0, 9, 1, 0⟩
def R.GLOBAL_READY_ETH0 : Fld := ⟨.global, 0x130, 0, 8, 1, 0⟩
def R.GLOBAL_READY_EQ : Fld := ⟨.global, 0x130, 0, 7, 1, 0⟩
def R.GLOBAL_READY_DRAM : Fld := ⟨.global, 0x130, 0, 6, 1, 0⟩
def R.GLOBAL_READY_SFAB : Fld := ⟨.global, 0x130, 0, 5, 1, 0⟩
def R.GLOBAL_READY_MAPC : Fld := ⟨.global, 0x130, 0, 4, 1, 0⟩
def R.GLOBAL_READY_DFAB : Fld := ⟨.global, 0x130, 0, 3, 1, 0⟩
def R.GLOBAL_READY_MATE : Fld := ⟨.global, 0x130, 0, 2, 1, 0⟩
def R.GLOBAL_READY_TIMING : Fld := ⟨.global, 0x130, 0, 1, 1, 0⟩
def R.GLOBAL_READY_MGMT : Fld := ⟨.global, 0x130, 0, 0, 1, 0⟩
def R.GLOBAL_SFTRST_KEY : Fld := ⟨.global, 0x140, 0, 0, 32, 0⟩
def R.GLOBAL_RESET_STAT_KIND : Fld := ⟨.global, 0x144, 0, 0, 2, 0⟩
def R.GLOBAL_RECOV_COUNT : Fld := ⟨.global, 0x148, 0, 16, 16, 0⟩
def R.GLOBAL_RECOV_CAUSE : Fld := ⟨.global, 0x148, 0, 0, 4, 0⟩
def R.GLOBAL_RECOV_INFO_WHERE : Fld := ⟨.global, 0x14c, 0, 0, 16, 0⟩
def R.GLOBAL_ID_ISSUE : Fld := ⟨.global, 0x100, 0, 0, 8, 161⟩
def R.GLOBAL_DEVICE_CODE : Fld := ⟨.global, 0x104, 0, 0, 16, 0x6480⟩
def R.GLOBAL_UID_SERIAL : Fld := ⟨.global, 0x108, 0, 0, 64, 0⟩
def R.GLOBAL_STRAP_MATE_PRESENT : Fld := ⟨.global, 0x110, 0, 5, 1, 0⟩
def R.GLOBAL_STRAP_SIDE : Fld := ⟨.global, 0x110, 0, 4, 1, 0⟩
def R.GLOBAL_STRAP_STRAP : Fld := ⟨.global, 0x110, 0, 0, 4, 0⟩
def R.GLOBAL_PRIV_PERF_USER : Fld := ⟨.global, 0x114, 0, 0, 1, 0⟩

/-! Fields of page POWER. -/
def R.POWER_SUPPLY_VIN_OK : Fld := ⟨.power, 0x100, 0, 31, 1, 0⟩
def R.POWER_SUPPLY_ON_HOLD : Fld := ⟨.power, 0x100, 0, 30, 1, 0⟩
def R.POWER_SUPPLY_HOLDUP_OK : Fld := ⟨.power, 0x100, 0, 29, 1, 0⟩
def R.POWER_SUPPLY_XTAL_OK : Fld := ⟨.power, 0x100, 0, 28, 1, 0⟩
def R.POWER_SUPPLY_VHOLD : Fld := ⟨.power, 0x100, 0, 10, 10, 0⟩
def R.POWER_SUPPLY_VIN : Fld := ⟨.power, 0x100, 0, 0, 10, 0⟩
def R.POWER_PWR_NOW_PIN : Fld := ⟨.power, 0x104, 0, 0, 16, 0⟩
def R.POWER_CTL_FIRST_QUAD : Fld := ⟨.power, 0x108, 0, 4, 4, 0⟩
def R.POWER_CTL_WAKE_MODE : Fld := ⟨.power, 0x108, 0, 1, 1, 0⟩
def R.POWER_CTL_CHG_EN : Fld := ⟨.power, 0x108, 0, 0, 1, 1⟩
def R.POWER_DOM_EN0_EN : Fld := ⟨.power, 0x110, 0, 4, 28, 0xfffffff⟩
def R.POWER_DOM_EN0_FIXED : Fld := ⟨.power, 0x110, 0, 0, 4, 7⟩
def R.POWER_DOM_EN1_EN : Fld := ⟨.power, 0x114, 0, 0, 24, 0xffffff⟩
def R.POWER_WAKE_TIMER_SECONDS : Fld := ⟨.power, 0x150, 0, 0, 24, 0⟩
def R.POWER_STAT_DOM_REFUSED : Fld := ⟨.power, 0x154, 0, 31, 1, 0⟩
def R.POWER_STAT_WAKE_CAUSE : Fld := ⟨.power, 0x154, 0, 4, 4, 0⟩
def R.POWER_VIN_FAIL_CNT_COUNT : Fld := ⟨.power, 0x158, 0, 0, 16, 0⟩
def R.POWER_HOLD_LAST_TIME : Fld := ⟨.power, 0x15c, 0, 0, 16, 0⟩
def R.POWER_SHED_STAGES : Fld := ⟨.power, 0x120, 4, 0, 30, 0⟩
def R.POWER_SHED_T0_T1 : Fld := ⟨.power, 0x140, 0, 0, 8, 10⟩
def R.POWER_SHED_T0_T2 : Fld := ⟨.power, 0x140, 0, 8, 8, 20⟩
def R.POWER_SHED_T0_T3 : Fld := ⟨.power, 0x140, 0, 16, 8, 30⟩
def R.POWER_SHED_T0_T4 : Fld := ⟨.power, 0x140, 0, 24, 8, 40⟩
def R.POWER_SHED_T1_T5 : Fld := ⟨.power, 0x144, 0, 0, 8, 50⟩
def R.POWER_SHED_T1_T6 : Fld := ⟨.power, 0x144, 0, 8, 8, 60⟩
def R.POWER_SHED_T1_T7 : Fld := ⟨.power, 0x144, 0, 16, 8, 70⟩
def R.POWER_DOM_ON0_ON : Fld := ⟨.power, 0x118, 0, 0, 32, 0⟩
def R.POWER_DOM_ON1_ON : Fld := ⟨.power, 0x11c, 0, 0, 24, 0⟩

/-! Fields of page EVENT. -/
def R.EVENT_TOP_PEND : Fld := ⟨.event, 0x100, 4, 0, 32, 0⟩
def R.EVENT_EQ_CTL_FLUSH : Fld := ⟨.event, 0x110, 0, 0, 1, 0⟩
def R.EVENT_EQ_STAT_QERR : Fld := ⟨.event, 0x114, 0, 31, 1, 0⟩
def R.EVENT_EQ_STAT_OVERRUN : Fld := ⟨.event, 0x114, 0, 30, 1, 0⟩
def R.EVENT_EQ_STAT_FILL : Fld := ⟨.event, 0x114, 0, 0, 10, 0⟩
def R.EVENT_EQ_DATA_ITEM : Fld := ⟨.event, 0x118, 0, 0, 64, 0⟩
def R.EVENT_EQ_CNT_DROPPED : Fld := ⟨.event, 0x120, 0, 16, 16, 0⟩
def R.EVENT_EQ_CNT_QERR_N : Fld := ⟨.event, 0x120, 0, 0, 16, 0⟩
def R.EVENT_WM_CUR : Fld := ⟨.event, 0x130, 4, 31, 1, 0⟩
def R.EVENT_WM_STICKY : Fld := ⟨.event, 0x130, 4, 30, 1, 0⟩
def R.EVENT_WM_MARK : Fld := ⟨.event, 0x130, 4, 0, 10, 0⟩
def R.EVENT_GRP_ROUTE_QUEUE_EN : Fld := ⟨.event, 0x200, 4, 11, 1, 0⟩
def R.EVENT_GRP_ROUTE_NOTIFY_EN : Fld := ⟨.event, 0x200, 4, 10, 1, 0⟩
def R.EVENT_GRP_ROUTE_PIN_EN : Fld := ⟨.event, 0x200, 4, 9, 1, 0⟩
def R.EVENT_GRP_ROUTE_MSIX_EN : Fld := ⟨.event, 0x200, 4, 8, 1, 0⟩
def R.EVENT_GRP_ROUTE_VECTOR : Fld := ⟨.event, 0x200, 4, 0, 6, 0⟩
def R.EVENT_CHG_IDX_KIND : Fld := ⟨.event, 0x720, 0, 31, 1, 0⟩
def R.EVENT_CHG_IDX_PORT : Fld := ⟨.event, 0x720, 0, 4, 7, 0⟩
def R.EVENT_CHG_IDX_SHELF : Fld := ⟨.event, 0x720, 0, 0, 4, 0⟩
def R.EVENT_CHG_MAP_CHANGED : Fld := ⟨.event, 0x740, 4, 0, 32, 0⟩
def R.EVENT_GRP_PEND_PEND : Fld := ⟨.event, 0x400, 4, 0, 32, 0⟩
def R.EVENT_SHELF_DRW_BITS : Fld := ⟨.event, 0x600, 4, 0, 32, 0⟩
def R.EVENT_SHELF_SEL_BITS : Fld := ⟨.event, 0x680, 4, 0, 32, 0⟩

/-! Fields of page PERF. -/
def R.PERF_CTL_PIN_MODE : Fld := ⟨.perf, 0x100, 0, 4, 2, 0⟩
def R.PERF_CTL_VIEW : Fld := ⟨.perf, 0x100, 0, 2, 1, 0⟩
def R.PERF_CTL_SNAP : Fld := ⟨.perf, 0x100, 0, 1, 1, 0⟩
def R.PERF_CTL_FREEZE : Fld := ⟨.perf, 0x100, 0, 0, 1, 0⟩
def R.PERF_SNAP_STAT_SNAP_SEQ : Fld := ⟨.perf, 0x104, 0, 16, 16, 0⟩
def R.PERF_SNAP_STAT_FROZEN : Fld := ⟨.perf, 0x104, 0, 1, 1, 0⟩
def R.PERF_SNAP_STAT_VALID : Fld := ⟨.perf, 0x104, 0, 0, 1, 0⟩
def R.PERF_SNAP_EPOCH_SOURCE : Fld := ⟨.perf, 0x108, 0, 62, 2, 0⟩
def R.PERF_SNAP_EPOCH_EPOCH : Fld := ⟨.perf, 0x108, 0, 0, 40, 0⟩
def R.PERF_SNAP_OFFSET_CYCLES : Fld := ⟨.perf, 0x110, 0, 0, 17, 0⟩
def R.PERF_WRAP_PAGE_PAGES : Fld := ⟨.perf, 0x120, 4, 0, 32, 0⟩
def R.PERF_TR_CTL_FILTER : Fld := ⟨.perf, 0x140, 0, 10, 7, 0⟩
def R.PERF_TR_CTL_DRAIN_EN : Fld := ⟨.perf, 0x140, 0, 9, 1, 0⟩
def R.PERF_TR_CTL_RATE : Fld := ⟨.perf, 0x140, 0, 4, 5, 0⟩
def R.PERF_TR_CTL_KIND : Fld := ⟨.perf, 0x140, 0, 1, 3, 0⟩
def R.PERF_TR_CTL_EN : Fld := ⟨.perf, 0x140, 0, 0, 1, 0⟩
def R.PERF_TR_SEED_SEED : Fld := ⟨.perf, 0x144, 0, 0, 32, 0⟩
def R.PERF_TR_STAT_TQERR : Fld := ⟨.perf, 0x148, 0, 31, 1, 0⟩
def R.PERF_TR_STAT_OVERRUN : Fld := ⟨.perf, 0x148, 0, 30, 1, 0⟩
def R.PERF_TR_STAT_REFUSED : Fld := ⟨.perf, 0x148, 0, 29, 1, 0⟩
def R.PERF_TR_STAT_DRAIN_ERR : Fld := ⟨.perf, 0x148, 0, 28, 1, 0⟩
def R.PERF_TR_STAT_FILL : Fld := ⟨.perf, 0x148, 0, 0, 9, 0⟩
def R.PERF_TR_DATA_WORD : Fld := ⟨.perf, 0x150, 4, 0, 32, 0⟩
def R.PERF_TR_RING_BASE_BASE : Fld := ⟨.perf, 0x160, 0, 4, 28, 0⟩
def R.PERF_TR_RING_SIZE_SIZE : Fld := ⟨.perf, 0x164, 0, 0, 4, 0⟩
def R.PERF_TR_WIDX_WIDX : Fld := ⟨.perf, 0x168, 0, 0, 15, 0⟩
def R.PERF_TR_LOST_COUNT : Fld := ⟨.perf, 0x16c, 0, 0, 32, 0⟩

/-! Fields of page TIMING. -/
def R.TIMING_CTL_FORCE_REF : Fld := ⟨.timing, 0x100, 0, 12, 4, 0⟩
def R.TIMING_CTL_BW : Fld := ⟨.timing, 0x100, 0, 8, 4, 8⟩
def R.TIMING_CTL_REVERT : Fld := ⟨.timing, 0x100, 0, 3, 1, 1⟩
def R.TIMING_CTL_MODE : Fld := ⟨.timing, 0x100, 0, 0, 3, 0⟩
def R.TIMING_THRESH_PERSIST : Fld := ⟨.timing, 0x104, 0, 20, 8, 100⟩
def R.TIMING_THRESH_DISQ : Fld := ⟨.timing, 0x104, 0, 10, 10, 120⟩
def R.TIMING_THRESH_SOFT : Fld := ⟨.timing, 0x104, 0, 0, 10, 90⟩
def R.TIMING_HO_CFG_HO_SPEC : Fld := ⟨.timing, 0x108, 0, 0, 20, 1⟩
def R.TIMING_HO_AVG_AVG : Fld := ⟨.timing, 0x10c, 0, 0, 10, 60⟩
def R.TIMING_LO_STAT_LO_FAIL : Fld := ⟨.timing, 0x110, 0, 31, 1, 0⟩
def R.TIMING_LO_STAT_VALID : Fld := ⟨.timing, 0x110, 0, 30, 1, 0⟩
def R.TIMING_LO_STAT_LO_VOTE : Fld := ⟨.timing, 0x110, 0, 0, 20, 0⟩
def R.TIMING_REF_CFG_HIT : Fld := ⟨.timing, 0x120, 4, 22, 7, 10⟩
def R.TIMING_REF_CFG_WTR : Fld := ⟨.timing, 0x120, 4, 14, 8, 10⟩
def R.TIMING_REF_CFG_LANE : Fld := ⟨.timing, 0x120, 4, 8, 6, 0⟩
def R.TIMING_REF_CFG_KIND : Fld := ⟨.timing, 0x120, 4, 5, 2, 0⟩
def R.TIMING_REF_CFG_PRIO : Fld := ⟨.timing, 0x120, 4, 1, 4, 0⟩
def R.TIMING_REF_CFG_EN : Fld := ⟨.timing, 0x120, 4, 0, 1, 0⟩
def R.TIMING_REF_STAT_CYCLES : Fld := ⟨.timing, 0x160, 4, 16, 4, 0⟩
def R.TIMING_REF_STAT_WITHDRAWN : Fld := ⟨.timing, 0x160, 4, 10, 1, 0⟩
def R.TIMING_REF_STAT_VOTE : Fld := ⟨.timing, 0x160, 4, 9, 1, 0⟩
def R.TIMING_REF_STAT_WTR_RUN : Fld := ⟨.timing, 0x160, 4, 8, 1, 0⟩
def R.TIMING_REF_STAT_LOCKOUT : Fld := ⟨.timing, 0x160, 4, 7, 1, 0⟩
def R.TIMING_REF_STAT_HIT : Fld := ⟨.timing, 0x160, 4, 6, 1, 0⟩
def R.TIMING_REF_STAT_PERSIST_RUN : Fld := ⟨.timing, 0x160, 4, 5, 1, 0⟩
def R.TIMING_REF_STAT_OUT : Fld := ⟨.timing, 0x160, 4, 4, 1, 0⟩
def R.TIMING_REF_STAT_SOFT : Fld := ⟨.timing, 0x160, 4, 3, 1, 0⟩
def R.TIMING_REF_STAT_UNSTABLE : Fld := ⟨.timing, 0x160, 4, 2, 1, 0⟩
def R.TIMING_REF_STAT_ACTIVE : Fld := ⟨.timing, 0x160, 4, 1, 1, 0⟩
def R.TIMING_REF_STAT_QUAL : Fld := ⟨.timing, 0x160, 4, 0, 1, 0⟩
def R.TIMING_REF_FREQ_VALID : Fld := ⟨.timing, 0x1a0, 4, 31, 1, 0⟩
def R.TIMING_REF_FREQ_L_OFF : Fld := ⟨.timing, 0x1a0, 4, 0, 20, 0⟩
def R.TIMING_REF_VOTE_VALID : Fld := ⟨.timing, 0x1e0, 4, 31, 1, 0⟩
def R.TIMING_REF_VOTE_V_OFF : Fld := ⟨.timing, 0x1e0, 4, 0, 20, 0⟩
def R.TIMING_DPLL_STAT_LO_FAIL : Fld := ⟨.timing, 0x220, 0, 19, 1, 0⟩
def R.TIMING_DPLL_STAT_LIMIT : Fld := ⟨.timing, 0x220, 0, 18, 1, 0⟩
def R.TIMING_DPLL_STAT_HISTORY : Fld := ⟨.timing, 0x220, 0, 17, 1, 0⟩
def R.TIMING_DPLL_STAT_HO_OOS : Fld := ⟨.timing, 0x220, 0, 16, 1, 0⟩
def R.TIMING_DPLL_STAT_STEP : Fld := ⟨.timing, 0x220, 0, 12, 4, 0⟩
def R.TIMING_DPLL_STAT_TARGET : Fld := ⟨.timing, 0x220, 0, 8, 4, 0⟩
def R.TIMING_DPLL_STAT_SELECTED : Fld := ⟨.timing, 0x220, 0, 4, 4, 15⟩
def R.TIMING_DPLL_STAT_STATE : Fld := ⟨.timing, 0x220, 0, 0, 3, 0⟩
def R.TIMING_DPLL_FREQ_OFF : Fld := ⟨.timing, 0x224, 0, 0, 20, 0⟩
def R.TIMING_HO_ELAPSED_SECONDS : Fld := ⟨.timing, 0x228, 0, 0, 20, 0⟩
def R.TIMING_OUT_CFG_SQ_OOS : Fld := ⟨.timing, 0x240, 4, 5, 1, 0⟩
def R.TIMING_OUT_CFG_SQ_HO : Fld := ⟨.timing, 0x240, 4, 4, 1, 0⟩
def R.TIMING_OUT_CFG_SQ_FR : Fld := ⟨.timing, 0x240, 4, 3, 1, 0⟩
def R.TIMING_OUT_CFG_FREQ : Fld := ⟨.timing, 0x240, 4, 1, 2, 0⟩
def R.TIMING_OUT_CFG_EN : Fld := ⟨.timing, 0x240, 4, 0, 1, 0⟩

/-! Fields of page NTIME. -/
def R.NTIME_CTL_SLEW_MAX : Fld := ⟨.ntime, 0x100, 0, 0, 10, 200⟩
def R.NTIME_LIMITS_MASTER_TMO : Fld := ⟨.ntime, 0x104, 0, 16, 8, 30⟩
def R.NTIME_LIMITS_STEP_LIMIT : Fld := ⟨.ntime, 0x104, 0, 0, 16, 1000⟩
def R.NTIME_SERVO_BW : Fld := ⟨.ntime, 0x108, 0, 24, 4, 3⟩
def R.NTIME_SERVO_ACQ_N : Fld := ⟨.ntime, 0x108, 0, 20, 4, 4⟩
def R.NTIME_SERVO_LOCK_N : Fld := ⟨.ntime, 0x108, 0, 16, 4, 8⟩
def R.NTIME_SERVO_LOCK_NS : Fld := ⟨.ntime, 0x108, 0, 0, 16, 100⟩
def R.NTIME_TIME_SUB_SUB : Fld := ⟨.ntime, 0x110, 0, 0, 16, 0⟩
def R.NTIME_TIME_NS_NS : Fld := ⟨.ntime, 0x114, 0, 0, 30, 0⟩
def R.NTIME_TIME_SEC_LO_SEC : Fld := ⟨.ntime, 0x118, 0, 0, 32, 0⟩
def R.NTIME_TIME_SEC_HI_SEC : Fld := ⟨.ntime, 0x11c, 0, 0, 16, 0⟩
def R.NTIME_STEP_SEC_LO_SEC : Fld := ⟨.ntime, 0x120, 0, 0, 32, 0⟩
def R.NTIME_STEP_SEC_HI_SEC : Fld := ⟨.ntime, 0x124, 0, 0, 16, 0⟩
def R.NTIME_STEP_NS_NS : Fld := ⟨.ntime, 0x128, 0, 0, 30, 0⟩
def R.NTIME_STEP_CTL_REFUSED : Fld := ⟨.ntime, 0x12c, 0, 4, 1, 0⟩
def R.NTIME_STEP_CTL_PENDING : Fld := ⟨.ntime, 0x12c, 0, 3, 1, 0⟩
def R.NTIME_STEP_CTL_ABS : Fld := ⟨.ntime, 0x12c, 0, 2, 1, 0⟩
def R.NTIME_STEP_CTL_NEG : Fld := ⟨.ntime, 0x12c, 0, 1, 1, 0⟩
def R.NTIME_STEP_CTL_GO : Fld := ⟨.ntime, 0x12c, 0, 0, 1, 0⟩
def R.NTIME_SAMP_LO_OFFSET : Fld := ⟨.ntime, 0x130, 0, 0, 32, 0⟩
def R.NTIME_SAMP_HI_OFFSET : Fld := ⟨.ntime, 0x134, 0, 0, 32, 0⟩
def R.NTIME_MASTER_ID_ID : Fld := ⟨.ntime, 0x138, 0, 0, 16, 0⟩
def R.NTIME_STAT_EPOCH_HOLD : Fld := ⟨.ntime, 0x140, 0, 4, 1, 0⟩
def R.NTIME_STAT_STEP_PEND : Fld := ⟨.ntime, 0x140, 0, 3, 1, 0⟩
def R.NTIME_STAT_JUMP : Fld := ⟨.ntime, 0x140, 0, 2, 1, 0⟩
def R.NTIME_STAT_STATE : Fld := ⟨.ntime, 0x140, 0, 0, 2, 0⟩
def R.NTIME_FREQ_F : Fld := ⟨.ntime, 0x144, 0, 0, 20, 0⟩
def R.NTIME_OFFSET_OFFSET : Fld := ⟨.ntime, 0x148, 0, 0, 32, 0⟩
def R.NTIME_EPOCH_LABEL : Fld := ⟨.ntime, 0x150, 0, 0, 40, 0⟩
def R.NTIME_EPOCH_PHASE_PHASE : Fld := ⟨.ntime, 0x158, 0, 0, 18, 0⟩
def R.NTIME_SLIP_CNT_REPEATS : Fld := ⟨.ntime, 0x15c, 0, 16, 16, 0⟩
def R.NTIME_SLIP_CNT_SKIPS : Fld := ⟨.ntime, 0x15c, 0, 0, 16, 0⟩
def R.NTIME_PPS_WIDTH : Fld := ⟨.ntime, 0x160, 0, 1, 7, 100⟩
def R.NTIME_PPS_EN : Fld := ⟨.ntime, 0x160, 0, 0, 1, 0⟩
def R.NTIME_PPS_IN_SEC_SEC : Fld := ⟨.ntime, 0x164, 0, 0, 32, 0⟩
def R.NTIME_PPS_IN_NS_VALID : Fld := ⟨.ntime, 0x168, 0, 31, 1, 0⟩
def R.NTIME_PPS_IN_NS_NS : Fld := ⟨.ntime, 0x168, 0, 0, 30, 0⟩
def R.NTIME_PORT_ADJ_ADJ : Fld := ⟨.ntime, 0x180, 4, 0, 16, 0⟩
def R.NTIME_ONESTEP_EN : Fld := ⟨.ntime, 0x1a0, 0, 0, 8, 0⟩
def R.NTIME_ACT_EPOCH_LO_EPOCH : Fld := ⟨.ntime, 0x200, 16, 0, 32, 0⟩
def R.NTIME_ACT_EPOCH_HI_EPOCH : Fld := ⟨.ntime, 0x204, 16, 0, 8, 0⟩
def R.NTIME_ACT_CTL_ERR : Fld := ⟨.ntime, 0x208, 16, 12, 1, 0⟩
def R.NTIME_ACT_CTL_DROPPED : Fld := ⟨.ntime, 0x208, 16, 11, 1, 0⟩
def R.NTIME_ACT_CTL_LATE : Fld := ⟨.ntime, 0x208, 16, 10, 1, 0⟩
def R.NTIME_ACT_CTL_DONE : Fld := ⟨.ntime, 0x208, 16, 9, 1, 0⟩
def R.NTIME_ACT_CTL_PENDING : Fld := ⟨.ntime, 0x208, 16, 8, 1, 0⟩
def R.NTIME_ACT_CTL_CANCEL : Fld := ⟨.ntime, 0x208, 16, 6, 1, 0⟩
def R.NTIME_ACT_CTL_ARM : Fld := ⟨.ntime, 0x208, 16, 5, 1, 0⟩
def R.NTIME_ACT_CTL_DROP_LATE : Fld := ⟨.ntime, 0x208, 16, 4, 1, 0⟩
def R.NTIME_ACT_CTL_ACTION : Fld := ⟨.ntime, 0x208, 16, 0, 4, 0⟩

/-! Fields of page MATE. -/
def R.MATE_CTL_MIR_LAG : Fld := ⟨.mate, 0x100, 0, 12, 4, 3⟩
def R.MATE_CTL_HB_MISS : Fld := ⟨.mate, 0x100, 0, 8, 4, 4⟩
def R.MATE_CTL_AUTO_RESYNC : Fld := ⟨.mate, 0x100, 0, 7, 1, 1⟩
def R.MATE_CTL_DX_EN : Fld := ⟨.mate, 0x100, 0, 6, 1, 0⟩
def R.MATE_CTL_FAULT : Fld := ⟨.mate, 0x100, 0, 4, 1, 0⟩
def R.MATE_CTL_JOIN : Fld := ⟨.mate, 0x100, 0, 3, 1, 0⟩
def R.MATE_CTL_SWAP : Fld := ⟨.mate, 0x100, 0, 2, 1, 0⟩
def R.MATE_CTL_PULL : Fld := ⟨.mate, 0x100, 0, 1, 1, 0⟩
def R.MATE_QUORUM_QUORUM : Fld := ⟨.mate, 0x104, 0, 0, 7, 4⟩
def R.MATE_QMASK_LANES : Fld := ⟨.mate, 0x108, 0, 0, 64, 0⟩
def R.MATE_FAULT_EN_EN : Fld := ⟨.mate, 0x110, 0, 0, 3, 0⟩
def R.MATE_STAT_RTS_CAUSE : Fld := ⟨.mate, 0x120, 0, 28, 4, 0⟩
def R.MATE_STAT_RTS_STEP : Fld := ⟨.mate, 0x120, 0, 24, 4, 0⟩
def R.MATE_STAT_SWAP_REFUSED : Fld := ⟨.mate, 0x120, 0, 17, 1, 0⟩
def R.MATE_STAT_DX_REFUSED : Fld := ⟨.mate, 0x120, 0, 16, 1, 0⟩
def R.MATE_STAT_SIDE : Fld := ⟨.mate, 0x120, 0, 15, 1, 0⟩
def R.MATE_STAT_MATE_PRESENT : Fld := ⟨.mate, 0x120, 0, 14, 1, 0⟩
def R.MATE_STAT_CLAIM_OWN : Fld := ⟨.mate, 0x120, 0, 13, 1, 0⟩
def R.MATE_STAT_CLAIM_MATE : Fld := ⟨.mate, 0x120, 0, 12, 1, 0⟩
def R.MATE_STAT_GASP_IN : Fld := ⟨.mate, 0x120, 0, 11, 1, 0⟩
def R.MATE_STAT_HB_LOST : Fld := ⟨.mate, 0x120, 0, 10, 1, 1⟩
def R.MATE_STAT_DISOWNED : Fld := ⟨.mate, 0x120, 0, 9, 1, 0⟩
def R.MATE_STAT_MATE_DISOWNED : Fld := ⟨.mate, 0x120, 0, 8, 1, 0⟩
def R.MATE_STAT_MIR_CUR : Fld := ⟨.mate, 0x120, 0, 7, 1, 0⟩
def R.MATE_STAT_READY : Fld := ⟨.mate, 0x120, 0, 6, 1, 0⟩
def R.MATE_STAT_ORPHAN : Fld := ⟨.mate, 0x120, 0, 5, 1, 0⟩
def R.MATE_STAT_PULL_BUSY : Fld := ⟨.mate, 0x120, 0, 4, 1, 0⟩
def R.MATE_STAT_SUM_MM : Fld := ⟨.mate, 0x120, 0, 3, 1, 0⟩
def R.MATE_MATE_HB_UNIT : Fld := ⟨.mate, 0x124, 0, 16, 8, 0⟩
def R.MATE_MATE_HB_HB_SEQ : Fld := ⟨.mate, 0x124, 0, 8, 8, 0⟩
def R.MATE_MATE_HB_FLAGS : Fld := ⟨.mate, 0x124, 0, 0, 8, 0⟩
def R.MATE_PHASE_DELTA : Fld := ⟨.mate, 0x128, 0, 0, 16, 0⟩
def R.MATE_LINK_DELAY_NS : Fld := ⟨.mate, 0x12c, 0, 0, 20, 0⟩
def R.MATE_QCOUNT_MATE : Fld := ⟨.mate, 0x130, 0, 8, 7, 0⟩
def R.MATE_QCOUNT_OWN : Fld := ⟨.mate, 0x130, 0, 0, 7, 0⟩
def R.MATE_DXEQ_BYTES : Fld := ⟨.mate, 0x180, 4, 0, 32, 0⟩

/-! Fields of page MATRIX. -/
def R.MATRIX_QOS_M5 : Fld := ⟨.matrix, 0x100, 0, 20, 4, 2⟩
def R.MATRIX_QOS_M4 : Fld := ⟨.matrix, 0x100, 0, 16, 4, 10⟩
def R.MATRIX_QOS_M3 : Fld := ⟨.matrix, 0x100, 0, 12, 4, 12⟩
def R.MATRIX_QOS_M2 : Fld := ⟨.matrix, 0x100, 0, 8, 4, 8⟩
def R.MATRIX_QOS_M1 : Fld := ⟨.matrix, 0x100, 0, 4, 4, 4⟩
def R.MATRIX_QOS_M0 : Fld := ⟨.matrix, 0x100, 0, 0, 4, 4⟩
def R.MATRIX_TMO_TMO_LOG2 : Fld := ⟨.matrix, 0x104, 0, 0, 5, 12⟩
def R.MATRIX_APER_APER : Fld := ⟨.matrix, 0x108, 0, 0, 5, 8⟩
def R.MATRIX_ERR_ADDR_ADDR : Fld := ⟨.matrix, 0x110, 0, 0, 32, 0⟩
def R.MATRIX_ERR_INFO_CAUSE : Fld := ⟨.matrix, 0x114, 0, 12, 4, 0⟩
def R.MATRIX_ERR_INFO_MASTER : Fld := ⟨.matrix, 0x114, 0, 8, 3, 0⟩
def R.MATRIX_ERR_INFO_TARGET : Fld := ⟨.matrix, 0x114, 0, 4, 3, 0⟩
def R.MATRIX_ERR_INFO_VALID : Fld := ⟨.matrix, 0x114, 0, 0, 1, 0⟩
def R.MATRIX_ABORT_VALID : Fld := ⟨.matrix, 0x118, 0, 31, 1, 0⟩
def R.MATRIX_ABORT_MASTER : Fld := ⟨.matrix, 0x118, 0, 8, 3, 0⟩
def R.MATRIX_ABORT_TARGET : Fld := ⟨.matrix, 0x118, 0, 4, 3, 0⟩
def R.MATRIX_ABORT_WRITE : Fld := ⟨.matrix, 0x118, 0, 0, 1, 0⟩
def R.MATRIX_ABORT_ADDR_ADDR : Fld := ⟨.matrix, 0x11c, 0, 0, 32, 0⟩
def R.MATRIX_LOCK_STAT_LOCKED : Fld := ⟨.matrix, 0x120, 0, 0, 4, 0⟩

/-! Fields of page SEQ. -/
def R.SEQ_CTL_WD_EN : Fld := ⟨.seq, 0x100, 0, 8, 1, 0⟩
def R.SEQ_CTL_REMAP : Fld := ⟨.seq, 0x100, 0, 0, 1, 0⟩
def R.SEQ_WD_PERIOD_PERIOD : Fld := ⟨.seq, 0x104, 0, 0, 16, 0x2710⟩
def R.SEQ_WD_KICK_KEY : Fld := ⟨.seq, 0x108, 0, 0, 32, 0⟩
def R.SEQ_STAT_WD_CNT : Fld := ⟨.seq, 0x10c, 0, 24, 8, 0⟩
def R.SEQ_STAT_WD_FIRED : Fld := ⟨.seq, 0x10c, 0, 2, 1, 0⟩
def R.SEQ_STAT_RUNNING : Fld := ⟨.seq, 0x10c, 0, 0, 1, 0⟩
def R.SEQ_CHN_ADDR_ADDR : Fld := ⟨.seq, 0x120, 0, 0, 6, 0⟩
def R.SEQ_CHN_STAT_ARM : Fld := ⟨.seq, 0x124, 0, 7, 1, 0⟩
def R.SEQ_CHN_STAT_TOK_IN : Fld := ⟨.seq, 0x124, 0, 6, 1, 0⟩
def R.SEQ_CHN_STAT_TOK_OUT : Fld := ⟨.seq, 0x124, 0, 5, 1, 0⟩
def R.SEQ_CHN_STAT_QFILL : Fld := ⟨.seq, 0x124, 0, 0, 5, 0⟩
def R.SEQ_CHN_CFG_NOTIFY_GAP : Fld := ⟨.seq, 0x128, 0, 4, 8, 10⟩
def R.SEQ_CHN_CFG_NOTIFY_EN : Fld := ⟨.seq, 0x128, 0, 0, 1, 0⟩

/-! Fields of page SECURE. -/
def R.SECURE_SP_CTL_ROTATE : Fld := ⟨.secure, 0x100, 0, 0, 1, 0⟩
def R.SECURE_SP_STAT_COLLIDE : Fld := ⟨.secure, 0x104, 0, 31, 1, 0⟩
def R.SECURE_SP_STAT_DET : Fld := ⟨.secure, 0x104, 0, 30, 1, 0⟩
def R.SECURE_SP_STAT_ST_FAIL : Fld := ⟨.secure, 0x104, 0, 29, 1, 0⟩
def R.SECURE_SP_STAT_RESTORE_ERR : Fld := ⟨.secure, 0x104, 0, 28, 1, 0⟩
def R.SECURE_SP_STAT_INIT_DONE : Fld := ⟨.secure, 0x104, 0, 0, 1, 0⟩
def R.SECURE_COLL_ADDR_WORD : Fld := ⟨.secure, 0x108, 0, 2, 17, 0⟩
def R.SECURE_COLL_CNT_COUNT : Fld := ⟨.secure, 0x10c, 0, 0, 32, 0⟩
def R.SECURE_SP_DET_ADDR_PORT : Fld := ⟨.secure, 0x110, 0, 31, 1, 0⟩
def R.SECURE_SP_DET_ADDR_OFFSET : Fld := ⟨.secure, 0x110, 0, 0, 19, 0⟩
def R.SECURE_SP_DET_CNT_COUNT : Fld := ⟨.secure, 0x114, 0, 0, 32, 0⟩
def R.SECURE_ST_CTL_GAP : Fld := ⟨.secure, 0x120, 0, 8, 8, 10⟩
def R.SECURE_ST_CTL_EN : Fld := ⟨.secure, 0x120, 0, 0, 1, 0⟩
def R.SECURE_ST_STAT_LINE : Fld := ⟨.secure, 0x124, 0, 16, 13, 0⟩
def R.SECURE_ST_STAT_PASSES : Fld := ⟨.secure, 0x124, 0, 0, 16, 0⟩
def R.SECURE_ST_FAIL_ADDR_OFFSET : Fld := ⟨.secure, 0x128, 0, 0, 19, 0⟩
def R.SECURE_LC_WIPE_BUSY : Fld := ⟨.secure, 0x200, 0, 15, 1, 0⟩
def R.SECURE_LC_TAMPER_IN : Fld := ⟨.secure, 0x200, 0, 14, 1, 0⟩
def R.SECURE_LC_TAMPERED : Fld := ⟨.secure, 0x200, 0, 13, 1, 0⟩
def R.SECURE_LC_K_ID_HELD : Fld := ⟨.secure, 0x200, 0, 11, 1, 0⟩
def R.SECURE_LC_K_AUTH_HELD : Fld := ⟨.secure, 0x200, 0, 10, 1, 0⟩
def R.SECURE_LC_K_ID_USED : Fld := ⟨.secure, 0x200, 0, 9, 1, 0⟩
def R.SECURE_LC_K_AUTH_USED : Fld := ⟨.secure, 0x200, 0, 8, 1, 0⟩
def R.SECURE_LC_STATE : Fld := ⟨.secure, 0x200, 0, 0, 2, 0⟩
def R.SECURE_LC_KEY_KEY : Fld := ⟨.secure, 0x204, 0, 0, 32, 0⟩
def R.SECURE_LC_CTL_LC_REFUSED : Fld := ⟨.secure, 0x208, 0, 9, 1, 0⟩
def R.SECURE_LC_CTL_GO : Fld := ⟨.secure, 0x208, 0, 8, 1, 0⟩
def R.SECURE_LC_CTL_TARGET : Fld := ⟨.secure, 0x208, 0, 0, 2, 0⟩
def R.SECURE_LC_TAG_TAG : Fld := ⟨.secure, 0x210, 4, 0, 32, 0⟩
def R.SECURE_CTL_ENFORCE : Fld := ⟨.secure, 0x220, 0, 0, 1, 0⟩
def R.SECURE_AUTH_STAT_FAIL : Fld := ⟨.secure, 0x224, 0, 31, 1, 0⟩
def R.SECURE_AUTH_STAT_KEY_REFUSED : Fld := ⟨.secure, 0x224, 0, 30, 1, 0⟩
def R.SECURE_AUTH_FAIL_CNT_COUNT : Fld := ⟨.secure, 0x228, 0, 0, 32, 0⟩
def R.SECURE_AUTH_SEQ_SEQ : Fld := ⟨.secure, 0x230, 0, 0, 64, 0⟩
def R.SECURE_KEY_IN_KEY : Fld := ⟨.secure, 0x240, 4, 0, 32, 0⟩
def R.SECURE_KEY_CMD_LOAD_ID : Fld := ⟨.secure, 0x260, 0, 1, 1, 0⟩
def R.SECURE_KEY_CMD_LOAD_AUTH : Fld := ⟨.secure, 0x260, 0, 0, 1, 0⟩
def R.SECURE_KEY_ID_ID_FP : Fld := ⟨.secure, 0x264, 0, 16, 16, 0⟩
def R.SECURE_KEY_ID_AUTH_FP : Fld := ⟨.secure, 0x264, 0, 0, 16, 0⟩
def R.SECURE_CHAL_CHAL : Fld := ⟨.secure, 0x280, 4, 0, 32, 0⟩
def R.SECURE_ID_CMD_BUSY : Fld := ⟨.secure, 0x2a0, 0, 8, 1, 0⟩
def R.SECURE_ID_CMD_RESPOND : Fld := ⟨.secure, 0x2a0, 0, 0, 1, 0⟩
def R.SECURE_RESP_RESP : Fld := ⟨.secure, 0x2b0, 4, 0, 32, 0⟩

/-! Fields of page DRAMC. -/
def R.DRAMC_CFG_SPEED : Fld := ⟨.dramc, 0x100, 0, 6, 2, 0⟩
def R.DRAMC_CFG_WIDTH : Fld := ⟨.dramc, 0x100, 0, 5, 1, 0⟩
def R.DRAMC_CFG_DENSITY : Fld := ⟨.dramc, 0x100, 0, 3, 2, 0⟩
def R.DRAMC_CFG_RANKS : Fld := ⟨.dramc, 0x100, 0, 2, 1, 0⟩
def R.DRAMC_CFG_VALID : Fld := ⟨.dramc, 0x100, 0, 0, 1, 0⟩
def R.DRAMC_STAT_READY : Fld := ⟨.dramc, 0x104, 0, 12, 1, 0⟩
def R.DRAMC_STAT_HOT : Fld := ⟨.dramc, 0x104, 0, 11, 1, 0⟩
def R.DRAMC_STAT_CFG_REFUSED : Fld := ⟨.dramc, 0x104, 0, 10, 1, 0⟩
def R.DRAMC_STAT_CFG_ERR : Fld := ⟨.dramc, 0x104, 0, 9, 1, 0⟩
def R.DRAMC_STAT_MISMATCH : Fld := ⟨.dramc, 0x104, 0, 8, 1, 0⟩
def R.DRAMC_STAT_FAIL_STEP : Fld := ⟨.dramc, 0x104, 0, 4, 4, 0⟩
def R.DRAMC_STAT_TRAIN_FAIL : Fld := ⟨.dramc, 0x104, 0, 2, 1, 0⟩
def R.DRAMC_STAT_TRAIN_BUSY : Fld := ⟨.dramc, 0x104, 0, 1, 1, 0⟩
def R.DRAMC_STAT_TRAINED : Fld := ⟨.dramc, 0x104, 0, 0, 1, 0⟩
def R.DRAMC_DET_ADDR_CAUSE : Fld := ⟨.dramc, 0x108, 0, 62, 2, 0⟩
def R.DRAMC_DET_ADDR_REGION : Fld := ⟨.dramc, 0x108, 0, 54, 8, 0⟩
def R.DRAMC_DET_ADDR_BURST : Fld := ⟨.dramc, 0x108, 0, 6, 30, 0⟩
def R.DRAMC_WIN_EN : Fld := ⟨.dramc, 0x180, 4, 31, 1, 0⟩
def R.DRAMC_WIN_RO : Fld := ⟨.dramc, 0x180, 4, 30, 1, 0⟩
def R.DRAMC_WIN_TARGET : Fld := ⟨.dramc, 0x180, 4, 0, 11, 0⟩
def R.DRAMC_DET_CNT_COUNT : Fld := ⟨.dramc, 0x110, 0, 0, 32, 0⟩

/-! Fields of page BENCH. -/
def R.BENCH_B_IDX_DRAWER : Fld := ⟨.bench, 0x100, 0, 0, 13, 0⟩
def R.BENCH_B_CMD_BUSY : Fld := ⟨.bench, 0x104, 0, 8, 1, 0⟩
def R.BENCH_B_CMD_CLR : Fld := ⟨.bench, 0x104, 0, 2, 1, 0⟩
def R.BENCH_B_CMD_WRITE : Fld := ⟨.bench, 0x104, 0, 1, 1, 0⟩
def R.BENCH_B_CMD_READ : Fld := ⟨.bench, 0x104, 0, 0, 1, 0⟩
def R.BENCH_B_CFG_FIXED : Fld := ⟨.bench, 0x108, 0, 8, 8, 0⟩
def R.BENCH_B_CFG_PATTERN : Fld := ⟨.bench, 0x108, 0, 2, 2, 0⟩
def R.BENCH_B_CFG_ANA_EN : Fld := ⟨.bench, 0x108, 0, 1, 1, 0⟩
def R.BENCH_B_CFG_GEN_EN : Fld := ⟨.bench, 0x108, 0, 0, 1, 0⟩
def R.BENCH_B_STAT_DELAY : Fld := ⟨.bench, 0x10c, 0, 11, 21, 0⟩
def R.BENCH_B_STAT_TAG_SYNC : Fld := ⟨.bench, 0x10c, 0, 2, 1, 0⟩
def R.BENCH_B_STAT_PAT_SYNC : Fld := ⟨.bench, 0x10c, 0, 1, 1, 0⟩
def R.BENCH_B_STAT_PSTATE_OK : Fld := ⟨.bench, 0x10c, 0, 0, 1, 0⟩
def R.BENCH_B_CNT_SYNC_LOSS : Fld := ⟨.bench, 0x110, 0, 24, 8, 0⟩
def R.BENCH_B_CNT_BIT_ERR : Fld := ⟨.bench, 0x110, 0, 0, 24, 0⟩
def R.BENCH_B_CNT2_BIP_ERR : Fld := ⟨.bench, 0x114, 0, 0, 16, 0⟩

/-! Fields of page LANEP. -/
def R.LANEP_CTL_LOOP : Fld := ⟨.lanep, 0x100, 0, 4, 2, 0⟩
def R.LANEP_CTL_RATE : Fld := ⟨.lanep, 0x100, 0, 1, 2, 0⟩
def R.LANEP_CTL_EN : Fld := ⟨.lanep, 0x100, 0, 0, 1, 0⟩
def R.LANEP_STAT_LOOP_REFUSED : Fld := ⟨.lanep, 0x104, 0, 10, 1, 0⟩
def R.LANEP_STAT_EN_REFUSED : Fld := ⟨.lanep, 0x104, 0, 9, 1, 0⟩
def R.LANEP_STAT_RATE_REFUSED : Fld := ⟨.lanep, 0x104, 0, 8, 1, 0⟩
def R.LANEP_STAT_LOOP_ACTIVE : Fld := ⟨.lanep, 0x104, 0, 6, 2, 0⟩
def R.LANEP_STAT_RATE_ACTIVE : Fld := ⟨.lanep, 0x104, 0, 4, 2, 0⟩
def R.LANEP_STAT_RUNNING : Fld := ⟨.lanep, 0x104, 0, 3, 1, 0⟩
def R.LANEP_STAT_SIG_DET : Fld := ⟨.lanep, 0x104, 0, 2, 1, 0⟩
def R.LANEP_STAT_CDR_LOCK : Fld := ⟨.lanep, 0x104, 0, 1, 1, 0⟩
def R.LANEP_STAT_PLL_LOCK : Fld := ⟨.lanep, 0x104, 0, 0, 1, 0⟩
def R.LANEP_REF_OFFSET_REF_RANGE : Fld := ⟨.lanep, 0x108, 0, 31, 1, 0⟩
def R.LANEP_REF_OFFSET_OFFSET : Fld := ⟨.lanep, 0x108, 0, 0, 20, 0⟩
def R.LANEP_EQ_CTL_LOAD : Fld := ⟨.lanep, 0x110, 0, 0, 1, 0⟩
def R.LANEP_EQ_STAT_BUSY : Fld := ⟨.lanep, 0x114, 0, 8, 1, 0⟩
def R.LANEP_EQ_STAT_VALID_RATES : Fld := ⟨.lanep, 0x114, 0, 4, 4, 0⟩
def R.LANEP_EQ_STAT_RANGE_ERR : Fld := ⟨.lanep, 0x114, 0, 3, 1, 0⟩
def R.LANEP_EQ_STAT_CRC_ERR : Fld := ⟨.lanep, 0x114, 0, 2, 1, 0⟩
def R.LANEP_EQ_STAT_FMT_ERR : Fld := ⟨.lanep, 0x114, 0, 1, 1, 0⟩
def R.LANEP_EQ_STAT_LOADED : Fld := ⟨.lanep, 0x114, 0, 0, 1, 0⟩
def R.LANEP_EQ_TX_FLAGS : Fld := ⟨.lanep, 0x118, 0, 24, 8, 0⟩
def R.LANEP_EQ_TX_TX_POST : Fld := ⟨.lanep, 0x118, 0, 16, 8, 0⟩
def R.LANEP_EQ_TX_TX_MAIN : Fld := ⟨.lanep, 0x118, 0, 8, 8, 0⟩
def R.LANEP_EQ_TX_TX_PRE : Fld := ⟨.lanep, 0x118, 0, 0, 8, 0⟩
def R.LANEP_EQ_RX0_DFE2 : Fld := ⟨.lanep, 0x11c, 0, 24, 8, 0⟩
def R.LANEP_EQ_RX0_DFE1 : Fld := ⟨.lanep, 0x11c, 0, 16, 8, 0⟩
def R.LANEP_EQ_RX0_CTLE_PEAK : Fld := ⟨.lanep, 0x11c, 0, 8, 8, 0⟩
def R.LANEP_EQ_RX1_DFE5 : Fld := ⟨.lanep, 0x120, 0, 16, 8, 0⟩
def R.LANEP_EQ_RX1_DFE4 : Fld := ⟨.lanep, 0x120, 0, 8, 8, 0⟩
def R.LANEP_EQ_RX1_DFE3 : Fld := ⟨.lanep, 0x120, 0, 0, 8, 0⟩
def R.LANEP_EYE_CTL_DWELL_LOG2 : Fld := ⟨.lanep, 0x130, 0, 8, 6, 0⟩
def R.LANEP_EYE_CTL_ABORT : Fld := ⟨.lanep, 0x130, 0, 1, 1, 0⟩
def R.LANEP_EYE_CTL_START : Fld := ⟨.lanep, 0x130, 0, 0, 1, 0⟩
def R.LANEP_EYE_DEST_BLOCK : Fld := ⟨.lanep, 0x134, 0, 14, 5, 0⟩
def R.LANEP_EYE_STAT_POINT : Fld := ⟨.lanep, 0x138, 0, 16, 14, 0⟩
def R.LANEP_EYE_STAT_REFUSED : Fld := ⟨.lanep, 0x138, 0, 3, 1, 0⟩
def R.LANEP_EYE_STAT_ABORTED : Fld := ⟨.lanep, 0x138, 0, 2, 1, 0⟩
def R.LANEP_EYE_STAT_DONE : Fld := ⟨.lanep, 0x138, 0, 1, 1, 0⟩
def R.LANEP_EYE_STAT_BUSY : Fld := ⟨.lanep, 0x138, 0, 0, 1, 0⟩
def R.LANEP_FILL_RX_COUNT : Fld := ⟨.lanep, 0x140, 0, 0, 18, 0⟩
def R.LANEP_STUFF_RX_COUNT : Fld := ⟨.lanep, 0x144, 0, 0, 18, 0⟩
def R.LANEP_FILL_TX_COUNT : Fld := ⟨.lanep, 0x148, 0, 0, 18, 0⟩
def R.LANEP_STUFF_TX_COUNT : Fld := ⟨.lanep, 0x14c, 0, 0, 18, 0⟩

/-! Fields of page LANEF. -/
def R.LANEF_CTL_SD_EXP : Fld := ⟨.lanef, 0x100, 0, 16, 4, 6⟩
def R.LANEF_CTL_LOSS_M : Fld := ⟨.lanef, 0x100, 0, 12, 4, 4⟩
def R.LANEF_CTL_CONF_N : Fld := ⟨.lanef, 0x100, 0, 8, 4, 3⟩
def R.LANEF_CTL_EXC_AIS : Fld := ⟨.lanef, 0x100, 0, 4, 1, 0⟩
def R.LANEF_CTL_TIM_AIS : Fld := ⟨.lanef, 0x100, 0, 3, 1, 1⟩
def R.LANEF_CTL_TIM_EN : Fld := ⟨.lanef, 0x100, 0, 2, 1, 0⟩
def R.LANEF_CTL_FORCE_AIS : Fld := ⟨.lanef, 0x100, 0, 1, 1, 0⟩
def R.LANEF_CTL_FORCE_RDI : Fld := ⟨.lanef, 0x100, 0, 0, 1, 0⟩
def R.LANEF_STATE_CONF_COUNT : Fld := ⟨.lanef, 0x104, 0, 4, 4, 0⟩
def R.LANEF_STATE_SYNC : Fld := ⟨.lanef, 0x104, 0, 3, 1, 0⟩
def R.LANEF_STATE_CAND : Fld := ⟨.lanef, 0x104, 0, 0, 3, 0⟩
def R.LANEF_DEF_RAW_DEFECTS : Fld := ⟨.lanef, 0x108, 0, 0, 11, 0⟩
def R.LANEF_DEF_DEFECTS : Fld := ⟨.lanef, 0x10c, 0, 0, 11, 0⟩
def R.LANEF_INTEG_CLEAR : Fld := ⟨.lanef, 0x110, 4, 8, 8, 100⟩
def R.LANEF_INTEG_SET : Fld := ⟨.lanef, 0x110, 4, 0, 8, 25⟩
def R.LANEF_RX_UNIT_UNIT : Fld := ⟨.lanef, 0x140, 0, 0, 8, 0⟩
def R.LANEF_RX_APS_APS : Fld := ⟨.lanef, 0x144, 0, 0, 16, 0⟩
def R.LANEF_RX_FB_FB : Fld := ⟨.lanef, 0x148, 0, 0, 32, 0⟩
def R.LANEF_RX_LABEL_LABEL : Fld := ⟨.lanef, 0x14c, 0, 0, 16, 0⟩
def R.LANEF_RX_EPOCH_EPOCH : Fld := ⟨.lanef, 0x150, 0, 0, 40, 0⟩
def R.LANEF_FB_TX_PORT_ID : Fld := ⟨.lanef, 0x160, 0, 16, 16, 0⟩
def R.LANEF_FB_TX_EN : Fld := ⟨.lanef, 0x160, 0, 15, 1, 0⟩
def R.LANEF_FB_TX_SEL : Fld := ⟨.lanef, 0x160, 0, 13, 2, 0⟩
def R.LANEF_FB_TX_FAR_SIDE : Fld := ⟨.lanef, 0x160, 0, 12, 1, 0⟩
def R.LANEF_FB_TX_PARTNER_EN : Fld := ⟨.lanef, 0x160, 0, 11, 1, 0⟩
def R.LANEF_FB_TX_PARTNER : Fld := ⟨.lanef, 0x160, 0, 5, 6, 0⟩
def R.LANEF_FAR_OFFSET_OFFSET : Fld := ⟨.lanef, 0x170, 0, 0, 20, 0⟩
def R.LANEF_OSC_DIFF_DIFF : Fld := ⟨.lanef, 0x174, 0, 0, 20, 0⟩
def R.LANEF_BIP_LAST_COUNT : Fld := ⟨.lanef, 0x178, 0, 0, 5, 0⟩
def R.LANEF_MSG_CTL_BLOCK : Fld := ⟨.lanef, 0x180, 0, 9, 10, 0⟩
def R.LANEF_MSG_CTL_RX_EN : Fld := ⟨.lanef, 0x180, 0, 1, 1, 0⟩
def R.LANEF_MSG_CTL_TX_EN : Fld := ⟨.lanef, 0x180, 0, 0, 1, 0⟩
def R.LANEF_MSG_PTR_TX_WR : Fld := ⟨.lanef, 0x184, 0, 24, 5, 0⟩
def R.LANEF_MSG_PTR_TX_RD : Fld := ⟨.lanef, 0x184, 0, 16, 5, 0⟩
def R.LANEF_MSG_PTR_RX_WR : Fld := ⟨.lanef, 0x184, 0, 8, 5, 0⟩
def R.LANEF_MSG_PTR_RX_RD : Fld := ⟨.lanef, 0x184, 0, 0, 5, 0⟩
def R.LANEF_SKEW_ROW_SKEW : Fld := ⟨.lanef, 0x2c0, 0, 0, 6, 0⟩
def R.LANEF_DRW_IDX_COLUMN : Fld := ⟨.lanef, 0x300, 0, 0, 13, 0⟩
def R.LANEF_DRW_CMD_ERR : Fld := ⟨.lanef, 0x304, 0, 9, 1, 0⟩
def R.LANEF_DRW_CMD_BUSY : Fld := ⟨.lanef, 0x304, 0, 8, 1, 0⟩
def R.LANEF_DRW_CMD_CLR : Fld := ⟨.lanef, 0x304, 0, 2, 1, 0⟩
def R.LANEF_DRW_CMD_WRITE : Fld := ⟨.lanef, 0x304, 0, 1, 1, 0⟩
def R.LANEF_DRW_CMD_READ : Fld := ⟨.lanef, 0x304, 0, 0, 1, 0⟩
def R.LANEF_DRW_CFG_SD_EXP : Fld := ⟨.lanef, 0x308, 0, 8, 4, 6⟩
def R.LANEF_DRW_CFG_MON_EN : Fld := ⟨.lanef, 0x308, 0, 7, 1, 0⟩
def R.LANEF_DRW_CFG_JCE_EN : Fld := ⟨.lanef, 0x308, 0, 6, 1, 0⟩
def R.LANEF_DRW_CFG_TAG_EN : Fld := ⟨.lanef, 0x308, 0, 5, 1, 0⟩
def R.LANEF_DRW_CFG_PLM_AIS : Fld := ⟨.lanef, 0x308, 0, 4, 1, 0⟩
def R.LANEF_DRW_CFG_PLM_EN : Fld := ⟨.lanef, 0x308, 0, 3, 1, 0⟩
def R.LANEF_DRW_CFG_EXP_LABEL : Fld := ⟨.lanef, 0x308, 0, 0, 3, 1⟩
def R.LANEF_DRW_STAT_TAG_SYNC : Fld := ⟨.lanef, 0x30c, 0, 29, 1, 0⟩
def R.LANEF_DRW_STAT_FILL : Fld := ⟨.lanef, 0x30c, 0, 26, 3, 0⟩
def R.LANEF_DRW_STAT_LABEL_ACC : Fld := ⟨.lanef, 0x30c, 0, 23, 3, 0⟩
def R.LANEF_DRW_STAT_PTR_CORE : Fld := ⟨.lanef, 0x30c, 0, 17, 6, 0⟩
def R.LANEF_DRW_STAT_PTR_RX : Fld := ⟨.lanef, 0x30c, 0, 11, 6, 0⟩
def R.LANEF_DRW_STAT_PSTATE : Fld := ⟨.lanef, 0x30c, 0, 9, 2, 0⟩
def R.LANEF_DRW_STAT_DEF : Fld := ⟨.lanef, 0x30c, 0, 0, 9, 0⟩
def R.LANEF_DRW_CNT_JUST_CORE : Fld := ⟨.lanef, 0x310, 0, 24, 8, 0⟩
def R.LANEF_DRW_CNT_JUST_RX : Fld := ⟨.lanef, 0x310, 0, 16, 8, 0⟩
def R.LANEF_DRW_CNT_BIP_ERR : Fld := ⟨.lanef, 0x310, 0, 0, 16, 0⟩
def R.LANEF_DRW_TAG_TAG : Fld := ⟨.lanef, 0x314, 0, 0, 16, 0⟩
def R.LANEF_DINTEG_CLEAR : Fld := ⟨.lanef, 0x320, 4, 8, 8, 100⟩
def R.LANEF_DINTEG_SET : Fld := ⟨.lanef, 0x320, 4, 0, 8, 25⟩
def R.LANEF_TRACE_TX_BYTES : Fld := ⟨.lanef, 0x200, 4, 0, 32, 0⟩
def R.LANEF_TRACE_EXP_BYTES : Fld := ⟨.lanef, 0x240, 4, 0, 32, 0⟩
def R.LANEF_TRACE_ACC_BYTES : Fld := ⟨.lanef, 0x280, 4, 0, 32, 0⟩

/-! Fields of page DFAB. -/
def R.DFAB_CTL_IDLE_BYTE : Fld := ⟨.dfab, 0x100, 0, 0, 8, 0⟩
def R.DFAB_STAT_GROUP_ON : Fld := ⟨.dfab, 0x104, 0, 0, 8, 0⟩
def R.DFAB_CMDET_ADDR_BANK : Fld := ⟨.dfab, 0x108, 0, 24, 1, 0⟩
def R.DFAB_CMDET_ADDR_OFFSET : Fld := ⟨.dfab, 0x108, 0, 0, 24, 0⟩
def R.DFAB_PAR_ADDR_PORT : Fld := ⟨.dfab, 0x10c, 0, 26, 6, 0⟩
def R.DFAB_PAR_ADDR_PORT_HI : Fld := ⟨.dfab, 0x10c, 0, 25, 1, 0⟩
def R.DFAB_PAR_ADDR_ROW : Fld := ⟨.dfab, 0x10c, 0, 19, 6, 0⟩
def R.DFAB_PAR_ADDR_COLUMN : Fld := ⟨.dfab, 0x10c, 0, 0, 13, 0⟩

/-! Fields of page MAPC. -/
def R.MAPC_CTL_PLANE_EN : Fld := ⟨.mapc, 0x100, 0, 0, 8, 255⟩
def R.MAPC_STAT_GROUP_EMPTY : Fld := ⟨.mapc, 0x104, 0, 24, 8, 0⟩
def R.MAPC_STAT_QFREE : Fld := ⟨.mapc, 0x104, 0, 3, 9, 0⟩
def R.MAPC_STAT_LIST_BUSY : Fld := ⟨.mapc, 0x104, 0, 2, 1, 0⟩
def R.MAPC_STAT_BUSY : Fld := ⟨.mapc, 0x104, 0, 1, 1, 0⟩
def R.MAPC_STAT_READY : Fld := ⟨.mapc, 0x104, 0, 0, 1, 0⟩
def R.MAPC_LIST_ADDR_ADDR : Fld := ⟨.mapc, 0x110, 0, 3, 29, 0⟩
def R.MAPC_LIST_LEN_LEN : Fld := ⟨.mapc, 0x114, 0, 0, 20, 0⟩
def R.MAPC_LIST_CTL_ABORT : Fld := ⟨.mapc, 0x118, 0, 1, 1, 0⟩
def R.MAPC_LIST_CTL_START : Fld := ⟨.mapc, 0x118, 0, 0, 1, 0⟩
def R.MAPC_LIST_DONE_DONE : Fld := ⟨.mapc, 0x11c, 0, 0, 20, 0⟩
def R.MAPC_REJ_INFO_REFUSED : Fld := ⟨.mapc, 0x128, 0, 5, 1, 0⟩
def R.MAPC_REJ_INFO_OVERRUN : Fld := ⟨.mapc, 0x128, 0, 4, 1, 0⟩
def R.MAPC_REJ_INFO_REASON : Fld := ⟨.mapc, 0x128, 0, 0, 4, 0⟩
def R.MAPC_LOAD_IDX_PORT : Fld := ⟨.mapc, 0x130, 0, 0, 7, 0⟩
def R.MAPC_LOAD_R_OUT : Fld := ⟨.mapc, 0x134, 0, 16, 15, 0⟩
def R.MAPC_LOAD_R_IN : Fld := ⟨.mapc, 0x134, 0, 0, 15, 0⟩
def R.MAPC_COMMIT_CTL_SUM_ACT : Fld := ⟨.mapc, 0x140, 0, 5, 1, 0⟩
def R.MAPC_COMMIT_CTL_SUM_EDIT : Fld := ⟨.mapc, 0x140, 0, 4, 1, 0⟩
def R.MAPC_COMMIT_CTL_DROP_LATE : Fld := ⟨.mapc, 0x140, 0, 3, 1, 0⟩
def R.MAPC_COMMIT_CTL_CANCEL : Fld := ⟨.mapc, 0x140, 0, 2, 1, 0⟩
def R.MAPC_COMMIT_CTL_ARM : Fld := ⟨.mapc, 0x140, 0, 1, 1, 0⟩
def R.MAPC_COMMIT_CTL_NOW : Fld := ⟨.mapc, 0x140, 0, 0, 1, 0⟩
def R.MAPC_COMMIT_STAT_AUTH_FAIL : Fld := ⟨.mapc, 0x144, 0, 11, 1, 0⟩
def R.MAPC_COMMIT_STAT_CANCELLED : Fld := ⟨.mapc, 0x144, 0, 10, 1, 0⟩
def R.MAPC_COMMIT_STAT_REFUSED : Fld := ⟨.mapc, 0x144, 0, 9, 1, 0⟩
def R.MAPC_COMMIT_STAT_DROPPED : Fld := ⟨.mapc, 0x144, 0, 8, 1, 0⟩
def R.MAPC_COMMIT_STAT_LATE : Fld := ⟨.mapc, 0x144, 0, 7, 1, 0⟩
def R.MAPC_COMMIT_STAT_EDIT_SUM_VALID : Fld := ⟨.mapc, 0x144, 0, 5, 1, 0⟩
def R.MAPC_COMMIT_STAT_SUM_BUSY : Fld := ⟨.mapc, 0x144, 0, 4, 1, 0⟩
def R.MAPC_COMMIT_STAT_SUM_VALID : Fld := ⟨.mapc, 0x144, 0, 3, 1, 0⟩
def R.MAPC_COMMIT_STAT_CATCHUP : Fld := ⟨.mapc, 0x144, 0, 2, 1, 0⟩
def R.MAPC_COMMIT_STAT_CUT : Fld := ⟨.mapc, 0x144, 0, 1, 1, 0⟩
def R.MAPC_COMMIT_STAT_PENDING : Fld := ⟨.mapc, 0x144, 0, 0, 1, 0⟩
def R.MAPC_COMMIT_EPOCH_EPOCH : Fld := ⟨.mapc, 0x148, 0, 0, 40, 0⟩
def R.MAPC_LAST_EPOCH_ARMED : Fld := ⟨.mapc, 0x150, 0, 63, 1, 0⟩
def R.MAPC_LAST_EPOCH_LATE : Fld := ⟨.mapc, 0x150, 0, 62, 1, 0⟩
def R.MAPC_LAST_EPOCH_EPOCH : Fld := ⟨.mapc, 0x150, 0, 0, 40, 0⟩
def R.MAPC_COMMIT_CNT_COUNT : Fld := ⟨.mapc, 0x158, 0, 0, 32, 0⟩
def R.MAPC_ACT_DSUM_SUM : Fld := ⟨.mapc, 0x160, 0, 0, 32, 0⟩
def R.MAPC_ACT_SSUM_SUM : Fld := ⟨.mapc, 0x164, 0, 0, 32, 0⟩
def R.MAPC_EDIT_DSUM_SUM : Fld := ⟨.mapc, 0x168, 0, 0, 32, 0⟩
def R.MAPC_EDIT_SSUM_SUM : Fld := ⟨.mapc, 0x16c, 0, 0, 32, 0⟩
def R.MAPC_MAPLOST_ADDR_FABRIC : Fld := ⟨.mapc, 0x170, 0, 25, 1, 0⟩
def R.MAPC_MAPLOST_ADDR_BANK : Fld := ⟨.mapc, 0x170, 0, 24, 1, 0⟩
def R.MAPC_MAPLOST_ADDR_OFFSET : Fld := ⟨.mapc, 0x170, 0, 0, 24, 0⟩
def R.MAPC_MAPLOST_CNT_COUNT : Fld := ⟨.mapc, 0x174, 0, 0, 32, 0⟩
def R.MAPC_REQ_LO_WORD : Fld := ⟨.mapc, 0x108, 0, 0, 32, 0⟩
def R.MAPC_REQ_HI_WORD : Fld := ⟨.mapc, 0x10c, 0, 0, 32, 0⟩
def R.MAPC_REJ_LO_WORD : Fld := ⟨.mapc, 0x120, 0, 0, 32, 0⟩
def R.MAPC_REJ_HI_WORD : Fld := ⟨.mapc, 0x124, 0, 0, 32, 0⟩
def R.MAPC_PURGE_CNT_COUNT : Fld := ⟨.mapc, 0x138, 0, 0, 32, 0⟩
def R.MAPC_COMMIT_TAG_TAG : Fld := ⟨.mapc, 0x180, 4, 0, 32, 0⟩

/-! Fields of page SFAB. -/
def R.SFAB_CTL_IDLE1 : Fld := ⟨.sfab, 0x100, 0, 8, 8, 255⟩
def R.SFAB_CTL_IDLE0 : Fld := ⟨.sfab, 0x100, 0, 0, 8, 213⟩
def R.SFAB_STAT_READY : Fld := ⟨.sfab, 0x104, 0, 4, 1, 0⟩
def R.SFAB_STAT_QUARTER_ON : Fld := ⟨.sfab, 0x104, 0, 0, 4, 0⟩
def R.SFAB_DET_ADDR_BANK : Fld := ⟨.sfab, 0x108, 0, 24, 1, 0⟩
def R.SFAB_DET_ADDR_OFFSET : Fld := ⟨.sfab, 0x108, 0, 0, 24, 0⟩
def R.SFAB_PAR_ADDR_SLOT : Fld := ⟨.sfab, 0x10c, 0, 0, 21, 0⟩
def R.SFAB_G_IDX_DRAWER : Fld := ⟨.sfab, 0x110, 0, 0, 16, 0⟩
def R.SFAB_G_CMD_BUSY : Fld := ⟨.sfab, 0x114, 0, 8, 1, 0⟩
def R.SFAB_G_CMD_CLR : Fld := ⟨.sfab, 0x114, 0, 2, 1, 0⟩
def R.SFAB_G_CMD_READ : Fld := ⟨.sfab, 0x114, 0, 0, 1, 0⟩
def R.SFAB_G_STAT_LIVE : Fld := ⟨.sfab, 0x118, 0, 13, 1, 0⟩
def R.SFAB_G_STAT_PTR_CORE : Fld := ⟨.sfab, 0x118, 0, 7, 6, 0⟩
def R.SFAB_G_STAT_LABEL_ACC : Fld := ⟨.sfab, 0x118, 0, 4, 3, 0⟩
def R.SFAB_G_STAT_PSTATE : Fld := ⟨.sfab, 0x118, 0, 2, 2, 0⟩
def R.SFAB_G_STAT_CLASS : Fld := ⟨.sfab, 0x118, 0, 0, 2, 0⟩
def R.SFAB_G_CNT_JUST : Fld := ⟨.sfab, 0x11c, 0, 24, 8, 0⟩
def R.SFAB_G_CNT_BIP_ERR : Fld := ⟨.sfab, 0x11c, 0, 0, 16, 0⟩

/-! Fields of page CONF. -/
def R.CONF_PUSED0_Q1 : Fld := ⟨.conf, 0x100, 0, 16, 15, 0⟩
def R.CONF_PUSED0_Q0 : Fld := ⟨.conf, 0x100, 0, 0, 15, 0⟩
def R.CONF_PUSED1_Q3 : Fld := ⟨.conf, 0x104, 0, 16, 15, 0⟩
def R.CONF_PUSED1_Q2 : Fld := ⟨.conf, 0x104, 0, 0, 15, 0⟩
def R.CONF_B_IDX_BRIDGE : Fld := ⟨.conf, 0x110, 0, 0, 13, 0⟩
def R.CONF_B_CMD_BUSY : Fld := ⟨.conf, 0x114, 0, 8, 1, 0⟩
def R.CONF_B_CMD_CLR : Fld := ⟨.conf, 0x114, 0, 2, 1, 0⟩
def R.CONF_B_CMD_READ : Fld := ⟨.conf, 0x114, 0, 0, 1, 0⟩
def R.CONF_B_STAT_SILENT : Fld := ⟨.conf, 0x118, 0, 8, 7, 0⟩
def R.CONF_B_STAT_PARTIES : Fld := ⟨.conf, 0x118, 0, 0, 7, 0⟩
def R.CONF_B_CNT_SAT : Fld := ⟨.conf, 0x11c, 0, 0, 24, 0⟩

/-! Fields of page PROT. -/
def R.PROT_S_IDX_OUT : Fld := ⟨.prot, 0x100, 0, 0, 20, 0⟩
def R.PROT_S_CMD_ERR : Fld := ⟨.prot, 0x104, 0, 10, 1, 0⟩
def R.PROT_S_CMD_BUSY : Fld := ⟨.prot, 0x104, 0, 9, 1, 0⟩
def R.PROT_S_CMD_COMMAND : Fld := ⟨.prot, 0x104, 0, 4, 3, 0⟩
def R.PROT_S_CMD_EXEC : Fld := ⟨.prot, 0x104, 0, 3, 1, 0⟩
def R.PROT_S_CMD_CLR : Fld := ⟨.prot, 0x104, 0, 2, 1, 0⟩
def R.PROT_S_CMD_WRITE : Fld := ⟨.prot, 0x104, 0, 1, 1, 0⟩
def R.PROT_S_CMD_READ : Fld := ⟨.prot, 0x104, 0, 0, 1, 0⟩
def R.PROT_S_CFG_WTR : Fld := ⟨.prot, 0x108, 0, 10, 10, 0⟩
def R.PROT_S_CFG_HOLDOFF : Fld := ⟨.prot, 0x108, 0, 3, 7, 0⟩
def R.PROT_S_CFG_REVERT : Fld := ⟨.prot, 0x108, 0, 1, 1, 0⟩
def R.PROT_S_CFG_EN : Fld := ⟨.prot, 0x108, 0, 0, 1, 0⟩
def R.PROT_S_STAT_SWITCHES : Fld := ⟨.prot, 0x10c, 0, 16, 16, 0⟩
def R.PROT_S_STAT_CMD_HELD : Fld := ⟨.prot, 0x10c, 0, 13, 3, 0⟩
def R.PROT_S_STAT_REQUEST : Fld := ⟨.prot, 0x10c, 0, 9, 4, 0⟩
def R.PROT_S_STAT_WTR_RUN : Fld := ⟨.prot, 0x10c, 0, 8, 1, 0⟩
def R.PROT_S_STAT_HOLD_RUN : Fld := ⟨.prot, 0x10c, 0, 7, 1, 0⟩
def R.PROT_S_STAT_COND : Fld := ⟨.prot, 0x10c, 0, 3, 4, 0⟩
def R.PROT_S_STAT_SELECTED : Fld := ⟨.prot, 0x10c, 0, 0, 1, 0⟩
def R.PROT_G_CFG_WTR : Fld := ⟨.prot, 0x200, 16, 22, 10, 0⟩
def R.PROT_G_CFG_HOLDOFF : Fld := ⟨.prot, 0x200, 16, 15, 7, 0⟩
def R.PROT_G_CFG_P_LANE : Fld := ⟨.prot, 0x200, 16, 9, 6, 0⟩
def R.PROT_G_CFG_W_LANE : Fld := ⟨.prot, 0x200, 16, 3, 6, 0⟩
def R.PROT_G_CFG_REVERT : Fld := ⟨.prot, 0x200, 16, 2, 1, 0⟩
def R.PROT_G_CFG_DUAL : Fld := ⟨.prot, 0x200, 16, 1, 1, 0⟩
def R.PROT_G_CFG_EN : Fld := ⟨.prot, 0x200, 16, 0, 1, 0⟩
def R.PROT_G_CMD_COMMAND : Fld := ⟨.prot, 0x204, 16, 0, 3, 0⟩
def R.PROT_G_STAT_SWITCHES : Fld := ⟨.prot, 0x208, 16, 16, 16, 0⟩
def R.PROT_G_STAT_FAR_REQ : Fld := ⟨.prot, 0x208, 16, 12, 4, 0⟩
def R.PROT_G_STAT_REQUEST : Fld := ⟨.prot, 0x208, 16, 8, 4, 0⟩
def R.PROT_G_STAT_CMD_HELD : Fld := ⟨.prot, 0x208, 16, 5, 3, 0⟩
def R.PROT_G_STAT_CMD_ERR : Fld := ⟨.prot, 0x208, 16, 4, 1, 0⟩
def R.PROT_G_STAT_CFG_ERR : Fld := ⟨.prot, 0x208, 16, 3, 1, 0⟩
def R.PROT_G_STAT_APS_MM : Fld := ⟨.prot, 0x208, 16, 2, 1, 0⟩
def R.PROT_G_STAT_WTR_RUN : Fld := ⟨.prot, 0x208, 16, 1, 1, 0⟩
def R.PROT_G_STAT_SELECTED : Fld := ⟨.prot, 0x208, 16, 0, 1, 0⟩

/-! Fields of page EQ. -/
def R.EQ_STAT_CAP : Fld := ⟨.eq, 0x104, 0, 0, 17, 0⟩
def R.EQ_Q_IDX_GROUP : Fld := ⟨.eq, 0x110, 0, 0, 16, 0⟩
def R.EQ_Q_CMD_ERR : Fld := ⟨.eq, 0x114, 0, 9, 1, 0⟩
def R.EQ_Q_CMD_BUSY : Fld := ⟨.eq, 0x114, 0, 8, 1, 0⟩
def R.EQ_Q_CMD_CLR : Fld := ⟨.eq, 0x114, 0, 2, 1, 0⟩
def R.EQ_Q_CMD_WRITE : Fld := ⟨.eq, 0x114, 0, 1, 1, 0⟩
def R.EQ_Q_CMD_READ : Fld := ⟨.eq, 0x114, 0, 0, 1, 0⟩
def R.EQ_Q_CFG_EN : Fld := ⟨.eq, 0x118, 0, 31, 1, 0⟩
def R.EQ_Q_CFG_WIN_M1 : Fld := ⟨.eq, 0x118, 0, 20, 8, 0⟩
def R.EQ_Q_CFG_OUT : Fld := ⟨.eq, 0x118, 0, 0, 20, 0⟩
def R.EQ_Q_STAT_DELAY : Fld := ⟨.eq, 0x11c, 0, 23, 9, 0⟩
def R.EQ_Q_STAT_HELD : Fld := ⟨.eq, 0x11c, 0, 14, 9, 0⟩
def R.EQ_Q_STAT_TAG_P : Fld := ⟨.eq, 0x11c, 0, 11, 1, 0⟩
def R.EQ_Q_STAT_TAG_W : Fld := ⟨.eq, 0x11c, 0, 10, 1, 0⟩
def R.EQ_Q_STAT_LATER : Fld := ⟨.eq, 0x11c, 0, 9, 1, 0⟩
def R.EQ_Q_STAT_OTHER : Fld := ⟨.eq, 0x11c, 0, 8, 1, 0⟩
def R.EQ_Q_STAT_CAUSE : Fld := ⟨.eq, 0x11c, 0, 5, 3, 0⟩
def R.EQ_Q_STAT_STATE : Fld := ⟨.eq, 0x11c, 0, 0, 2, 0⟩
def R.EQ_Q_CNT_SUBST : Fld := ⟨.eq, 0x120, 0, 16, 16, 0⟩
def R.EQ_Q_CNT_MEM_DET : Fld := ⟨.eq, 0x120, 0, 8, 8, 0⟩
def R.EQ_Q_CNT_REANCHOR : Fld := ⟨.eq, 0x120, 0, 0, 8, 0⟩

/-! Fields of page PW. -/
def R.PW_CTL_RTP_PT : Fld := ⟨.pw, 0x100, 0, 8, 7, 32⟩
def R.PW_CTL_LOPS_CLR : Fld := ⟨.pw, 0x100, 0, 4, 4, 2⟩
def R.PW_LOPS_CFG_LOPS_SET : Fld := ⟨.pw, 0x104, 0, 0, 8, 64⟩
def R.PW_C_IDX_CTX : Fld := ⟨.pw, 0x110, 0, 0, 14, 0⟩
def R.PW_C_CMD_ERR_CODE : Fld := ⟨.pw, 0x114, 0, 12, 4, 0⟩
def R.PW_C_CMD_ERR : Fld := ⟨.pw, 0x114, 0, 9, 1, 0⟩
def R.PW_C_CMD_BUSY : Fld := ⟨.pw, 0x114, 0, 8, 1, 0⟩
def R.PW_C_CMD_CLR : Fld := ⟨.pw, 0x114, 0, 2, 1, 0⟩
def R.PW_C_CMD_WRITE : Fld := ⟨.pw, 0x114, 0, 1, 1, 0⟩
def R.PW_C_CMD_READ : Fld := ⟨.pw, 0x114, 0, 0, 1, 0⟩
def R.PW_C_CFG0_EN : Fld := ⟨.pw, 0x118, 0, 31, 1, 0⟩
def R.PW_C_CFG0_MODE : Fld := ⟨.pw, 0x118, 0, 30, 1, 0⟩
def R.PW_C_CFG0_ETH_PORT : Fld := ⟨.pw, 0x118, 0, 27, 3, 0⟩
def R.PW_C_CFG0_ENC : Fld := ⟨.pw, 0x118, 0, 25, 2, 0⟩
def R.PW_C_CFG0_RTP_EN : Fld := ⟨.pw, 0x118, 0, 24, 1, 0⟩
def R.PW_C_CFG0_CR : Fld := ⟨.pw, 0x118, 0, 22, 2, 0⟩
def R.PW_C_CFG0_LOSS_MODE : Fld := ⟨.pw, 0x118, 0, 21, 1, 0⟩
def R.PW_C_CFG0_JB_FRAMES : Fld := ⟨.pw, 0x118, 0, 10, 11, 0⟩
def R.PW_C_CFG0_PKT_M1 : Fld := ⟨.pw, 0x118, 0, 4, 6, 0⟩
def R.PW_C_CFG1_SLOT_MASK : Fld := ⟨.pw, 0x11c, 0, 0, 32, 0⟩
def R.PW_C_CFG2_TEMPLATE : Fld := ⟨.pw, 0x120, 0, 20, 10, 0⟩
def R.PW_C_CFG2_TX_KEY : Fld := ⟨.pw, 0x120, 0, 0, 20, 0⟩
def R.PW_C_CFG3_PHASE : Fld := ⟨.pw, 0x124, 0, 25, 7, 0⟩
def R.PW_C_CFG3_RX_KEY : Fld := ⟨.pw, 0x124, 0, 0, 20, 0⟩
def R.PW_C_CFG4_IDLE : Fld := ⟨.pw, 0x128, 0, 0, 8, 0⟩
def R.PW_C_STAT_CR_OFFSET : Fld := ⟨.pw, 0x130, 0, 12, 20, 0⟩
def R.PW_C_STAT_FILL : Fld := ⟨.pw, 0x130, 0, 0, 11, 0⟩
def R.PW_C_STAT2_R_RX : Fld := ⟨.pw, 0x134, 0, 7, 1, 0⟩
def R.PW_C_STAT2_L_RX : Fld := ⟨.pw, 0x134, 0, 6, 1, 0⟩
def R.PW_C_STAT2_CLASS : Fld := ⟨.pw, 0x134, 0, 4, 2, 0⟩
def R.PW_C_STAT2_FAILED : Fld := ⟨.pw, 0x134, 0, 3, 1, 0⟩
def R.PW_C_STAT2_STATE : Fld := ⟨.pw, 0x134, 0, 0, 2, 0⟩
def R.PW_C_CNT_RX_PKTS : Fld := ⟨.pw, 0x138, 0, 0, 32, 0⟩
def R.PW_C_CNT2_CONCEAL : Fld := ⟨.pw, 0x13c, 0, 16, 16, 0⟩
def R.PW_C_CNT2_LATE : Fld := ⟨.pw, 0x13c, 0, 8, 8, 0⟩
def R.PW_C_CNT2_RESTART : Fld := ⟨.pw, 0x13c, 0, 0, 8, 0⟩
def R.PW_T_IDX_TEMPLATE : Fld := ⟨.pw, 0x140, 0, 0, 10, 0⟩
def R.PW_T_CMD_ERR : Fld := ⟨.pw, 0x144, 0, 9, 1, 0⟩
def R.PW_T_CMD_BUSY : Fld := ⟨.pw, 0x144, 0, 8, 1, 0⟩
def R.PW_T_CMD_INVAL : Fld := ⟨.pw, 0x144, 0, 2, 1, 0⟩
def R.PW_T_CMD_WRITE : Fld := ⟨.pw, 0x144, 0, 1, 1, 0⟩
def R.PW_T_CMD_READ : Fld := ⟨.pw, 0x144, 0, 0, 1, 0⟩
def R.PW_T_CTL_VALID : Fld := ⟨.pw, 0x148, 0, 7, 1, 0⟩
def R.PW_T_CTL_LABELS : Fld := ⟨.pw, 0x148, 0, 4, 2, 0⟩
def R.PW_T_CTL_VLANS : Fld := ⟨.pw, 0x148, 0, 2, 2, 0⟩
def R.PW_T_CTL_ENC : Fld := ⟨.pw, 0x148, 0, 0, 2, 0⟩
def R.PW_T_DATA_BYTES : Fld := ⟨.pw, 0x200, 4, 0, 32, 0⟩

/-! Fields of page ETH. -/
def R.ETH_CTL_MAX_LEN : Fld := ⟨.eth, 0x100, 0, 16, 12, 0x898⟩
def R.ETH_CTL_MCAST : Fld := ⟨.eth, 0x100, 0, 3, 1, 1⟩
def R.ETH_CTL_PAUSE_RX : Fld := ⟨.eth, 0x100, 0, 2, 1, 1⟩
def R.ETH_CTL_FEC : Fld := ⟨.eth, 0x100, 0, 1, 1, 0⟩
def R.ETH_CTL_SPEED : Fld := ⟨.eth, 0x100, 0, 0, 1, 0⟩
def R.ETH_EN_HRX_EN : Fld := ⟨.eth, 0x104, 0, 2, 1, 0⟩
def R.ETH_EN_HTX_EN : Fld := ⟨.eth, 0x104, 0, 1, 1, 0⟩
def R.ETH_EN_PORT_EN : Fld := ⟨.eth, 0x104, 0, 0, 1, 0⟩
def R.ETH_STAT_PAUSED : Fld := ⟨.eth, 0x108, 0, 4, 1, 0⟩
def R.ETH_STAT_HI_BER : Fld := ⟨.eth, 0x108, 0, 3, 1, 0⟩
def R.ETH_STAT_FEC_LOCK : Fld := ⟨.eth, 0x108, 0, 2, 1, 0⟩
def R.ETH_STAT_BLOCK_LOCK : Fld := ⟨.eth, 0x108, 0, 1, 1, 0⟩
def R.ETH_STAT_LINK : Fld := ⟨.eth, 0x108, 0, 0, 1, 0⟩
def R.ETH_MAC_LO_MAC : Fld := ⟨.eth, 0x110, 0, 0, 32, 0⟩
def R.ETH_MAC_HI_MAC : Fld := ⟨.eth, 0x114, 0, 0, 16, 0⟩
def R.ETH_IP4_ADDR : Fld := ⟨.eth, 0x118, 0, 0, 32, 0⟩
def R.ETH_IP6_ADDR : Fld := ⟨.eth, 0x120, 4, 0, 32, 0⟩
def R.ETH_HTX_BASE_BASE : Fld := ⟨.eth, 0x140, 0, 0, 32, 0⟩
def R.ETH_HTX_SIZE_SIZE : Fld := ⟨.eth, 0x144, 0, 0, 4, 0⟩
def R.ETH_HTX_PTR_RD : Fld := ⟨.eth, 0x148, 0, 16, 13, 0⟩
def R.ETH_HTX_PTR_WR : Fld := ⟨.eth, 0x148, 0, 0, 13, 0⟩
def R.ETH_HRX_BASE_BASE : Fld := ⟨.eth, 0x150, 0, 0, 32, 0⟩
def R.ETH_HRX_SIZE_SIZE : Fld := ⟨.eth, 0x154, 0, 0, 4, 0⟩
def R.ETH_HRX_PTR_WR : Fld := ⟨.eth, 0x158, 0, 16, 13, 0⟩
def R.ETH_HRX_PTR_RD : Fld := ⟨.eth, 0x158, 0, 0, 13, 0⟩

/-- Registers of the common header (R407). -/
def regsHdr (p : Page) : List RSpec :=
  [⟨0x0, 0, 1, false, [⟨R.HDR_PAGE_ID_VERSION p, .ro, 0, 255, true, false⟩,
     ⟨R.HDR_PAGE_ID_TYPE p, .ro, 0, 255, true, true⟩,
     ⟨R.HDR_PAGE_ID_INSTANCE p, .ro, 0, 255, true, true⟩]⟩,
   ⟨0x4, 0, 1, false, [⟨R.HDR_PAGE_READY_DOMAIN p, .ro, 0, 63, true, true⟩,
     ⟨R.HDR_PAGE_READY_DOMAIN_ON p, .ro, 0, 1, true, false⟩,
     ⟨R.HDR_PAGE_READY_READY p, .ro, 0, 1, true, false⟩]⟩,
   ⟨0x8, 0, 1, false, [⟨R.HDR_PAGE_CTL_LOCK p, .w1s, 0, 1, true, false⟩]⟩,
   ⟨0x10, 0, 1, false, [⟨R.HDR_EVT_STATUS_STATUS p, .w1c, 0, 0xffffffff, true, false⟩]⟩,
   ⟨0x14, 0, 1, false, [⟨R.HDR_EVT_RAW_RAW p, .ro, 0, 0xffffffff, true, false⟩]⟩,
   ⟨0x18, 0, 1, false, [⟨R.HDR_EVT_MASK_MASK p, .rws, 0, 0xffffffff, true, false⟩]⟩,
   ⟨0x40, 0, 1, true, [⟨R.HDR_CYCLES_CYCLES p, .ro, 0, 0xffffffffffffffff, true, false⟩]⟩,
   ⟨0x48, 8, 8, true, [⟨R.HDR_CNT_COUNT p, .rw, 0, 0xffffffffffff, true, false⟩]⟩,
   ⟨0xa0, 4, 8, false, [⟨R.HDR_CNT_SEL_WRAP p, .w1c, 0, 1, true, false⟩,
     ⟨R.HDR_CNT_SEL_MODE p, .rws, 0, 2, true, false⟩,
     ⟨R.HDR_CNT_SEL_N p, .rws, 0, 0xffff, true, false⟩,
     ⟨R.HDR_CNT_SEL_CODE p, .rws, 0, 255, true, false⟩]⟩]

/-- Registers of page GLOBAL. -/
def regsGlobal : List RSpec :=
  [⟨0x100, 0, 1, false, [⟨R.GLOBAL_ID_ISSUE, .ro, 0, 255, true, false⟩]⟩,
   ⟨0x104, 0, 1, false, [⟨R.GLOBAL_DEVICE_CODE, .ro, 0, 0xffff, true, false⟩]⟩,
   ⟨0x108, 0, 1, true, [⟨R.GLOBAL_UID_SERIAL, .ro, 0, 0xffffffffffffffff, true, true⟩]⟩,
   ⟨0x110, 0, 1, false, [⟨R.GLOBAL_STRAP_MATE_PRESENT, .ro, 0, 1, true, true⟩,
     ⟨R.GLOBAL_STRAP_SIDE, .ro, 0, 1, true, true⟩,
     ⟨R.GLOBAL_STRAP_STRAP, .ro, 0, 15, true, true⟩]⟩,
   ⟨0x114, 0, 1, false, [⟨R.GLOBAL_PRIV_PERF_USER, .rwl, 0, 1, true, false⟩]⟩,
   ⟨0x120, 0, 1, false, [⟨R.GLOBAL_MODE_REQ, .wo, 0, 7, false, false⟩]⟩,
   ⟨0x124, 0, 1, false, [⟨R.GLOBAL_MODE_STAT_REFUSED, .w1c, 0, 1, false, false⟩,
     ⟨R.GLOBAL_MODE_STAT_PENDING, .ro, 0, 1, false, false⟩,
     ⟨R.GLOBAL_MODE_STAT_PREV, .ro, 0, 7, true, false⟩,
     ⟨R.GLOBAL_MODE_STAT_CUR, .ro, 0, 7, true, false⟩]⟩,
   ⟨0x130, 0, 1, false, [⟨R.GLOBAL_READY_QUAD, .ro, 0, 0xffff, true, false⟩,
     ⟨R.GLOBAL_READY_HOLDUP, .ro, 0, 1, true, false⟩,
     ⟨R.GLOBAL_READY_PW1, .ro, 0, 1, true, false⟩,
     ⟨R.GLOBAL_READY_PW0, .ro, 0, 1, true, false⟩,
     ⟨R.GLOBAL_READY_ETH1, .ro, 0, 1, true, false⟩,
     ⟨R.GLOBAL_READY_ETH0, .ro, 0, 1, true, false⟩,
     ⟨R.GLOBAL_READY_EQ, .ro, 0, 1, true, false⟩,
     ⟨R.GLOBAL_READY_DRAM, .ro, 0, 1, true, false⟩,
     ⟨R.GLOBAL_READY_SFAB, .ro, 0, 1, true, false⟩,
     ⟨R.GLOBAL_READY_MAPC, .ro, 0, 1, true, false⟩,
     ⟨R.GLOBAL_READY_DFAB, .ro, 0, 1, true, false⟩,
     ⟨R.GLOBAL_READY_MATE, .ro, 0, 1, true, false⟩,
     ⟨R.GLOBAL_READY_TIMING, .ro, 0, 1, true, false⟩,
     ⟨R.GLOBAL_READY_MGMT, .ro, 0, 1, true, false⟩]⟩,
   ⟨0x140, 0, 1, false, [⟨R.GLOBAL_SFTRST_KEY, .wo, 0, 0xffffffff, false, false⟩]⟩,
   ⟨0x144, 0, 1, false, [⟨R.GLOBAL_RESET_STAT_KIND, .ro, 0, 3, false, false⟩]⟩,
   ⟨0x148, 0, 1, false, [⟨R.GLOBAL_RECOV_COUNT, .rc, 0, 0xffff, true, false⟩,
     ⟨R.GLOBAL_RECOV_CAUSE, .ro, 0, 15, true, false⟩]⟩,
   ⟨0x14c, 0, 1, false, [⟨R.GLOBAL_RECOV_INFO_WHERE, .ro, 0, 0xffff, true, false⟩]⟩]

/-- Registers of page POWER. -/
def regsPower : List RSpec :=
  [⟨0x100, 0, 1, false, [⟨R.POWER_SUPPLY_VIN_OK, .ro, 0, 1, true, false⟩,
     ⟨R.POWER_SUPPLY_ON_HOLD, .ro, 0, 1, true, false⟩,
     ⟨R.POWER_SUPPLY_HOLDUP_OK, .ro, 0, 1, true, false⟩,
     ⟨R.POWER_SUPPLY_XTAL_OK, .ro, 0, 1, true, false⟩,
     ⟨R.POWER_SUPPLY_VHOLD, .ro, 0, 1023, true, false⟩,
     ⟨R.POWER_SUPPLY_VIN, .ro, 0, 1023, true, false⟩]⟩,
   ⟨0x104, 0, 1, false, [⟨R.POWER_PWR_NOW_PIN, .ro, 0, 0xffff, true, false⟩]⟩,
   ⟨0x108, 0, 1, false, [⟨R.POWER_CTL_FIRST_QUAD, .rws, 0, 15, true, true⟩,
     ⟨R.POWER_CTL_WAKE_MODE, .rws, 0, 1, true, true⟩,
     ⟨R.POWER_CTL_CHG_EN, .rws, 0, 1, true, true⟩]⟩,
   ⟨0x110, 0, 1, false, [⟨R.POWER_DOM_EN0_EN, .rws, 0, 0xfffffff, true, true⟩,
     ⟨R.POWER_DOM_EN0_FIXED, .ro, 0, 15, true, false⟩]⟩,
   ⟨0x114, 0, 1, false, [⟨R.POWER_DOM_EN1_EN, .rws, 0, 0xffffff, true, true⟩]⟩,
   ⟨0x118, 0, 1, false, [⟨R.POWER_DOM_ON0_ON, .ro, 0, 0xffffffff, true, false⟩]⟩,
   ⟨0x11c, 0, 1, false, [⟨R.POWER_DOM_ON1_ON, .ro, 0, 0xffffff, true, false⟩]⟩,
   ⟨0x120, 4, 6, false, [⟨R.POWER_SHED_STAGES, .rws, 0, 0x3fffffff, true, true⟩]⟩,
   ⟨0x140, 0, 1, false, [⟨R.POWER_SHED_T0_T4, .rws, 0, 255, true, true⟩,
     ⟨R.POWER_SHED_T0_T3, .rws, 0, 255, true, true⟩,
     ⟨R.POWER_SHED_T0_T2, .rws, 0, 255, true, true⟩,
     ⟨R.POWER_SHED_T0_T1, .rws, 0, 255, true, true⟩]⟩,
   ⟨0x144, 0, 1, false, [⟨R.POWER_SHED_T1_T7, .rws, 0, 255, true, true⟩,
     ⟨R.POWER_SHED_T1_T6, .rws, 0, 255, true, true⟩,
     ⟨R.POWER_SHED_T1_T5, .rws, 0, 255, true, true⟩]⟩,
   ⟨0x150, 0, 1, false, [⟨R.POWER_WAKE_TIMER_SECONDS, .rws, 0, 0xffffff, true, true⟩]⟩,
   ⟨0x154, 0, 1, false, [⟨R.POWER_STAT_DOM_REFUSED, .w1c, 0, 1, false, false⟩,
     ⟨R.POWER_STAT_WAKE_CAUSE, .ro, 0, 15, true, false⟩]⟩,
   ⟨0x158, 0, 1, false, [⟨R.POWER_VIN_FAIL_CNT_COUNT, .rc, 0, 0xffff, true, true⟩]⟩,
   ⟨0x15c, 0, 1, false, [⟨R.POWER_HOLD_LAST_TIME, .ro, 0, 0xffff, true, true⟩]⟩]

/-- Registers of page EVENT. -/
def regsEvent : List RSpec :=
  [⟨0x100, 4, 4, false, [⟨R.EVENT_TOP_PEND, .ro, 0, 0xffffffff, true, false⟩]⟩,
   ⟨0x110, 0, 1, false, [⟨R.EVENT_EQ_CTL_FLUSH, .wo, 0, 1, false, false⟩]⟩,
   ⟨0x114, 0, 1, false, [⟨R.EVENT_EQ_STAT_QERR, .w1c, 0, 1, true, false⟩,
     ⟨R.EVENT_EQ_STAT_OVERRUN, .w1c, 0, 1, true, false⟩,
     ⟨R.EVENT_EQ_STAT_FILL, .ro, 0, 1023, true, false⟩]⟩,
   ⟨0x118, 0, 1, true, [⟨R.EVENT_EQ_DATA_ITEM, .ro, 0, 0xffffffffffffffff, false, false⟩]⟩,
   ⟨0x120, 0, 1, false, [⟨R.EVENT_EQ_CNT_DROPPED, .rc, 0, 0xffff, true, false⟩,
     ⟨R.EVENT_EQ_CNT_QERR_N, .rc, 0, 0xffff, true, false⟩]⟩,
   ⟨0x130, 4, 4, false, [⟨R.EVENT_WM_CUR, .ro, 0, 1, true, false⟩,
     ⟨R.EVENT_WM_STICKY, .w1c, 0, 1, true, false⟩,
     ⟨R.EVENT_WM_MARK, .rws, 0, 1023, true, false⟩]⟩,
   ⟨0x200, 4, 128, false, [⟨R.EVENT_GRP_ROUTE_QUEUE_EN, .rws, 0, 1, true, false⟩,
     ⟨R.EVENT_GRP_ROUTE_NOTIFY_EN, .rws, 0, 1, true, false⟩,
     ⟨R.EVENT_GRP_ROUTE_PIN_EN, .rws, 0, 1, true, false⟩,
     ⟨R.EVENT_GRP_ROUTE_MSIX_EN, .rws, 0, 1, true, false⟩,
     ⟨R.EVENT_GRP_ROUTE_VECTOR, .rws, 0, 63, true, false⟩]⟩,
   ⟨0x400, 4, 128, false, [⟨R.EVENT_GRP_PEND_PEND, .ro, 0, 0xffffffff, true, false⟩]⟩,
   ⟨0x600, 4, 32, false, [⟨R.EVENT_SHELF_DRW_BITS, .ro, 0, 0xffffffff, true, false⟩]⟩,
   ⟨0x680, 4, 38, false, [⟨R.EVENT_SHELF_SEL_BITS, .ro, 0, 0xffffffff, true, false⟩]⟩,
   ⟨0x720, 0, 1, false, [⟨R.EVENT_CHG_IDX_KIND, .wo, 0, 1, false, false⟩,
     ⟨R.EVENT_CHG_IDX_PORT, .wo, 0, 127, false, false⟩,
     ⟨R.EVENT_CHG_IDX_SHELF, .wo, 0, 15, false, false⟩]⟩,
   ⟨0x740, 4, 16, false, [⟨R.EVENT_CHG_MAP_CHANGED, .ro, 0, 0xffffffff, false, false⟩]⟩]

/-- Registers of page PERF. -/
def regsPerf : List RSpec :=
  [⟨0x100, 0, 1, false, [⟨R.PERF_CTL_PIN_MODE, .rws, 0, 2, true, false⟩,
     ⟨R.PERF_CTL_VIEW, .rws, 0, 1, true, false⟩,
     ⟨R.PERF_CTL_SNAP, .wo, 0, 1, false, false⟩,
     ⟨R.PERF_CTL_FREEZE, .rws, 0, 1, true, false⟩]⟩,
   ⟨0x104, 0, 1, false, [⟨R.PERF_SNAP_STAT_SNAP_SEQ, .ro, 0, 0xffff, true, false⟩,
     ⟨R.PERF_SNAP_STAT_FROZEN, .ro, 0, 1, true, false⟩,
     ⟨R.PERF_SNAP_STAT_VALID, .ro, 0, 1, true, false⟩]⟩,
   ⟨0x108, 0, 1, true, [⟨R.PERF_SNAP_EPOCH_SOURCE, .ro, 0, 3, true, false⟩,
     ⟨R.PERF_SNAP_EPOCH_EPOCH, .ro, 0, 0xffffffffff, true, false⟩]⟩,
   ⟨0x110, 0, 1, false, [⟨R.PERF_SNAP_OFFSET_CYCLES, .ro, 0, 0x1ffff, true, false⟩]⟩,
   ⟨0x120, 4, 5, false, [⟨R.PERF_WRAP_PAGE_PAGES, .ro, 0, 0xffffffff, true, false⟩]⟩,
   ⟨0x140, 0, 1, false, [⟨R.PERF_TR_CTL_FILTER, .rw, 0, 127, false, false⟩,
     ⟨R.PERF_TR_CTL_DRAIN_EN, .rw, 0, 1, false, false⟩,
     ⟨R.PERF_TR_CTL_RATE, .rw, 0, 24, false, false⟩,
     ⟨R.PERF_TR_CTL_KIND, .rw, 0, 2, false, false⟩,
     ⟨R.PERF_TR_CTL_EN, .rw, 0, 1, false, false⟩]⟩,
   ⟨0x144, 0, 1, false, [⟨R.PERF_TR_SEED_SEED, .rw, 0, 0xffffffff, false, false⟩]⟩,
   ⟨0x148, 0, 1, false, [⟨R.PERF_TR_STAT_TQERR, .w1c, 0, 1, false, false⟩,
     ⟨R.PERF_TR_STAT_OVERRUN, .w1c, 0, 1, false, false⟩,
     ⟨R.PERF_TR_STAT_REFUSED, .w1c, 0, 1, false, false⟩,
     ⟨R.PERF_TR_STAT_DRAIN_ERR, .w1c, 0, 1, false, false⟩,
     ⟨R.PERF_TR_STAT_FILL, .ro, 0, 511, false, false⟩]⟩,
   ⟨0x150, 4, 4, false, [⟨R.PERF_TR_DATA_WORD, .ro, 0, 0xffffffff, false, false⟩]⟩,
   ⟨0x160, 0, 1, false, [⟨R.PERF_TR_RING_BASE_BASE, .rw, 0, 0xfffffff, false, false⟩]⟩,
   ⟨0x164, 0, 1, false, [⟨R.PERF_TR_RING_SIZE_SIZE, .rw, 4, 15, false, false⟩]⟩,
   ⟨0x168, 0, 1, false, [⟨R.PERF_TR_WIDX_WIDX, .ro, 0, 0x7fff, false, false⟩]⟩,
   ⟨0x16c, 0, 1, false, [⟨R.PERF_TR_LOST_COUNT, .rc, 0, 0xffffffff, false, false⟩]⟩]

/-- Registers of page TIMING. -/
def regsTiming : List RSpec :=
  [⟨0x100, 0, 1, false, [⟨R.TIMING_CTL_FORCE_REF, .rws, 0, 12, true, false⟩,
     ⟨R.TIMING_CTL_BW, .rws, 0, 10, true, false⟩,
     ⟨R.TIMING_CTL_REVERT, .rws, 0, 1, true, false⟩,
     ⟨R.TIMING_CTL_MODE, .rws, 0, 3, true, false⟩]⟩,
   ⟨0x104, 0, 1, false, [⟨R.TIMING_THRESH_PERSIST, .rws, 0, 255, true, false⟩,
     ⟨R.TIMING_THRESH_DISQ, .rws, 1, 1000, true, false⟩,
     ⟨R.TIMING_THRESH_SOFT, .rws, 1, 1000, true, false⟩]⟩,
   ⟨0x108, 0, 1, false, [⟨R.TIMING_HO_CFG_HO_SPEC, .rws, 1, 0x93a80, true, false⟩]⟩,
   ⟨0x10c, 0, 1, false, [⟨R.TIMING_HO_AVG_AVG, .rws, 1, 1000, true, false⟩]⟩,
   ⟨0x110, 0, 1, false, [⟨R.TIMING_LO_STAT_LO_FAIL, .ro, 0, 1, true, false⟩,
     ⟨R.TIMING_LO_STAT_VALID, .ro, 0, 1, true, false⟩,
     ⟨R.TIMING_LO_STAT_LO_VOTE, .ro, 0, 0xfffff, true, false⟩]⟩,
   ⟨0x120, 4, 13, false, [⟨R.TIMING_REF_CFG_HIT, .rws, 0, 100, true, false⟩,
     ⟨R.TIMING_REF_CFG_WTR, .rws, 0, 255, true, false⟩,
     ⟨R.TIMING_REF_CFG_LANE, .rws, 0, 63, true, false⟩,
     ⟨R.TIMING_REF_CFG_KIND, .rws, 0, 3, true, false⟩,
     ⟨R.TIMING_REF_CFG_PRIO, .rws, 0, 15, true, false⟩,
     ⟨R.TIMING_REF_CFG_EN, .rws, 0, 1, true, false⟩]⟩,
   ⟨0x160, 4, 13, false, [⟨R.TIMING_REF_STAT_CYCLES, .ro, 0, 15, true, false⟩,
     ⟨R.TIMING_REF_STAT_WITHDRAWN, .ro, 0, 1, true, false⟩,
     ⟨R.TIMING_REF_STAT_VOTE, .ro, 0, 1, true, false⟩,
     ⟨R.TIMING_REF_STAT_WTR_RUN, .ro, 0, 1, true, false⟩,
     ⟨R.TIMING_REF_STAT_LOCKOUT, .ro, 0, 1, true, false⟩,
     ⟨R.TIMING_REF_STAT_HIT, .w1c, 0, 1, false, false⟩,
     ⟨R.TIMING_REF_STAT_PERSIST_RUN, .ro, 0, 1, true, false⟩,
     ⟨R.TIMING_REF_STAT_OUT, .ro, 0, 1, true, false⟩,
     ⟨R.TIMING_REF_STAT_SOFT, .ro, 0, 1, true, false⟩,
     ⟨R.TIMING_REF_STAT_UNSTABLE, .ro, 0, 1, true, false⟩,
     ⟨R.TIMING_REF_STAT_ACTIVE, .ro, 0, 1, true, false⟩,
     ⟨R.TIMING_REF_STAT_QUAL, .ro, 0, 1, true, false⟩]⟩,
   ⟨0x1a0, 4, 13, false, [⟨R.TIMING_REF_FREQ_VALID, .ro, 0, 1, true, false⟩,
     ⟨R.TIMING_REF_FREQ_L_OFF, .ro, 0, 0xfffff, true, false⟩]⟩,
   ⟨0x1e0, 4, 13, false, [⟨R.TIMING_REF_VOTE_VALID, .ro, 0, 1, true, false⟩,
     ⟨R.TIMING_REF_VOTE_V_OFF, .ro, 0, 0xfffff, true, false⟩]⟩,
   ⟨0x220, 0, 1, false, [⟨R.TIMING_DPLL_STAT_LO_FAIL, .ro, 0, 1, true, false⟩,
     ⟨R.TIMING_DPLL_STAT_LIMIT, .ro, 0, 1, true, false⟩,
     ⟨R.TIMING_DPLL_STAT_HISTORY, .ro, 0, 1, true, false⟩,
     ⟨R.TIMING_DPLL_STAT_HO_OOS, .ro, 0, 1, true, false⟩,
     ⟨R.TIMING_DPLL_STAT_STEP, .ro, 0, 15, true, false⟩,
     ⟨R.TIMING_DPLL_STAT_TARGET, .ro, 0, 15, true, false⟩,
     ⟨R.TIMING_DPLL_STAT_SELECTED, .ro, 0, 15, true, false⟩,
     ⟨R.TIMING_DPLL_STAT_STATE, .ro, 0, 7, true, false⟩]⟩,
   ⟨0x224, 0, 1, false, [⟨R.TIMING_DPLL_FREQ_OFF, .ro, 0, 0xfffff, true, false⟩]⟩,
   ⟨0x228, 0, 1, false, [⟨R.TIMING_HO_ELAPSED_SECONDS, .ro, 0, 0xfffff, true, false⟩]⟩,
   ⟨0x240, 4, 4, false, [⟨R.TIMING_OUT_CFG_SQ_OOS, .rws, 0, 1, true, false⟩,
     ⟨R.TIMING_OUT_CFG_SQ_HO, .rws, 0, 1, true, false⟩,
     ⟨R.TIMING_OUT_CFG_SQ_FR, .rws, 0, 1, true, false⟩,
     ⟨R.TIMING_OUT_CFG_FREQ, .rws, 0, 3, true, false⟩,
     ⟨R.TIMING_OUT_CFG_EN, .rws, 0, 1, true, false⟩]⟩]

/-- Registers of page NTIME, part 1. -/
def regsNtimeA : List RSpec :=
  [⟨0x100, 0, 1, false, [⟨R.NTIME_CTL_SLEW_MAX, .rws, 1, 1000, true, false⟩]⟩,
   ⟨0x104, 0, 1, false, [⟨R.NTIME_LIMITS_MASTER_TMO, .rws, 1, 255, true, false⟩,
     ⟨R.NTIME_LIMITS_STEP_LIMIT, .rws, 1, 0xffff, true, false⟩]⟩,
   ⟨0x108, 0, 1, false, [⟨R.NTIME_SERVO_BW, .rws, 0, 7, true, false⟩,
     ⟨R.NTIME_SERVO_ACQ_N, .rws, 1, 15, true, false⟩,
     ⟨R.NTIME_SERVO_LOCK_N, .rws, 1, 15, true, false⟩,
     ⟨R.NTIME_SERVO_LOCK_NS, .rws, 0, 0xffff, true, false⟩]⟩,
   ⟨0x110, 0, 1, false, [⟨R.NTIME_TIME_SUB_SUB, .ro, 0, 0xffff, true, false⟩]⟩,
   ⟨0x114, 0, 1, false, [⟨R.NTIME_TIME_NS_NS, .ro, 0, 0x3fffffff, true, false⟩]⟩,
   ⟨0x118, 0, 1, false, [⟨R.NTIME_TIME_SEC_LO_SEC, .ro, 0, 0xffffffff, true, false⟩]⟩,
   ⟨0x11c, 0, 1, false, [⟨R.NTIME_TIME_SEC_HI_SEC, .ro, 0, 0xffff, true, false⟩]⟩,
   ⟨0x120, 0, 1, false, [⟨R.NTIME_STEP_SEC_LO_SEC, .rw, 0, 0xffffffff, false, false⟩]⟩,
   ⟨0x124, 0, 1, false, [⟨R.NTIME_STEP_SEC_HI_SEC, .rw, 0, 0xffff, false, false⟩]⟩,
   ⟨0x128, 0, 1, false, [⟨R.NTIME_STEP_NS_NS, .rw, 0, 0x3b9ac9ff, false, false⟩]⟩,
   ⟨0x12c, 0, 1, false, [⟨R.NTIME_STEP_CTL_REFUSED, .w1c, 0, 1, false, false⟩,
     ⟨R.NTIME_STEP_CTL_PENDING, .ro, 0, 1, true, false⟩,
     ⟨R.NTIME_STEP_CTL_ABS, .rw, 0, 1, false, false⟩,
     ⟨R.NTIME_STEP_CTL_NEG, .rw, 0, 1, false, false⟩,
     ⟨R.NTIME_STEP_CTL_GO, .wo, 0, 1, false, false⟩]⟩,
   ⟨0x130, 0, 1, false, [⟨R.NTIME_SAMP_LO_OFFSET, .wo, 0, 0xffffffff, false, false⟩]⟩,
   ⟨0x134, 0, 1, false, [⟨R.NTIME_SAMP_HI_OFFSET, .wo, 0, 0xffffffff, false, false⟩]⟩,
   ⟨0x138, 0, 1, false, [⟨R.NTIME_MASTER_ID_ID, .rw, 0, 0xffff, false, false⟩]⟩,
   ⟨0x140, 0, 1, false, [⟨R.NTIME_STAT_EPOCH_HOLD, .ro, 0, 1, true, false⟩,
     ⟨R.NTIME_STAT_STEP_PEND, .ro, 0, 1, true, false⟩,
     ⟨R.NTIME_STAT_JUMP, .ro, 0, 1, true, false⟩,
     ⟨R.NTIME_STAT_STATE, .ro, 0, 3, true, false⟩]⟩,
   ⟨0x144, 0, 1, false, [⟨R.NTIME_FREQ_F, .ro, 0, 0xfffff, true, false⟩]⟩,
   ⟨0x148, 0, 1, false, [⟨R.NTIME_OFFSET_OFFSET, .ro, 0, 0xffffffff, true, false⟩]⟩,
   ⟨0x150, 0, 1, true, [⟨R.NTIME_EPOCH_LABEL, .ro, 0, 0xffffffffff, true, false⟩]⟩,
   ⟨0x158, 0, 1, false, [⟨R.NTIME_EPOCH_PHASE_PHASE, .ro, 0, 0x3ffff, true, false⟩]⟩,
   ⟨0x15c, 0, 1, false, [⟨R.NTIME_SLIP_CNT_REPEATS, .rc, 0, 0xffff, true, false⟩,
     ⟨R.NTIME_SLIP_CNT_SKIPS, .rc, 0, 0xffff, true, false⟩]⟩,
   ⟨0x160, 0, 1, false, [⟨R.NTIME_PPS_WIDTH, .rws, 1, 127, true, false⟩,
     ⟨R.NTIME_PPS_EN, .rws, 0, 1, true, false⟩]⟩,
   ⟨0x164, 0, 1, false, [⟨R.NTIME_PPS_IN_SEC_SEC, .ro, 0, 0xffffffff, true, false⟩]⟩,
   ⟨0x168, 0, 1, false, [⟨R.NTIME_PPS_IN_NS_VALID, .ro, 0, 1, true, false⟩,
     ⟨R.NTIME_PPS_IN_NS_NS, .ro, 0, 0x3fffffff, true, false⟩]⟩,
   ⟨0x180, 4, 8, false, [⟨R.NTIME_PORT_ADJ_ADJ, .rws, 0, 0xffff, true, false⟩]⟩,
   ⟨0x1a0, 0, 1, false, [⟨R.NTIME_ONESTEP_EN, .rws, 0, 255, true, false⟩]⟩]

/-- Registers of page NTIME, part 2. -/
def regsNtimeB : List RSpec :=
  [⟨0x200, 16, 16, false, [⟨R.NTIME_ACT_EPOCH_LO_EPOCH, .rws, 0, 0xffffffff, true, false⟩]⟩,
   ⟨0x204, 16, 16, false, [⟨R.NTIME_ACT_EPOCH_HI_EPOCH, .rws, 0, 255, true, false⟩]⟩,
   ⟨0x208, 16, 16, false, [⟨R.NTIME_ACT_CTL_ERR, .w1c, 0, 1, true, false⟩,
     ⟨R.NTIME_ACT_CTL_DROPPED, .w1c, 0, 1, true, false⟩,
     ⟨R.NTIME_ACT_CTL_LATE, .w1c, 0, 1, true, false⟩,
     ⟨R.NTIME_ACT_CTL_DONE, .w1c, 0, 1, true, false⟩,
     ⟨R.NTIME_ACT_CTL_PENDING, .ro, 0, 1, true, false⟩,
     ⟨R.NTIME_ACT_CTL_CANCEL, .wo, 0, 1, false, false⟩,
     ⟨R.NTIME_ACT_CTL_ARM, .wo, 0, 1, false, false⟩,
     ⟨R.NTIME_ACT_CTL_DROP_LATE, .rws, 0, 1, true, false⟩,
     ⟨R.NTIME_ACT_CTL_ACTION, .rws, 0, 15, true, false⟩]⟩]

/-- Registers of page MATE. -/
def regsMate : List RSpec :=
  [⟨0x100, 0, 1, false, [⟨R.MATE_CTL_MIR_LAG, .rws, 2, 8, true, false⟩,
     ⟨R.MATE_CTL_HB_MISS, .rws, 1, 15, true, false⟩,
     ⟨R.MATE_CTL_AUTO_RESYNC, .rws, 0, 1, true, false⟩,
     ⟨R.MATE_CTL_DX_EN, .rws, 0, 1, true, false⟩,
     ⟨R.MATE_CTL_FAULT, .rws, 0, 1, true, false⟩,
     ⟨R.MATE_CTL_JOIN, .wo, 0, 1, false, false⟩,
     ⟨R.MATE_CTL_SWAP, .wo, 0, 1, false, false⟩,
     ⟨R.MATE_CTL_PULL, .wo, 0, 1, false, false⟩]⟩,
   ⟨0x104, 0, 1, false, [⟨R.MATE_QUORUM_QUORUM, .rws, 1, 64, true, false⟩]⟩,
   ⟨0x108, 0, 1, true, [⟨R.MATE_QMASK_LANES, .rws, 0, 0xffffffffffffffff, true, false⟩]⟩,
   ⟨0x110, 0, 1, false, [⟨R.MATE_FAULT_EN_EN, .rws, 0, 7, true, false⟩]⟩,
   ⟨0x120, 0, 1, false, [⟨R.MATE_STAT_RTS_CAUSE, .ro, 0, 15, true, false⟩,
     ⟨R.MATE_STAT_RTS_STEP, .ro, 0, 15, true, false⟩,
     ⟨R.MATE_STAT_SWAP_REFUSED, .w1c, 0, 1, false, false⟩,
     ⟨R.MATE_STAT_DX_REFUSED, .w1c, 0, 1, false, false⟩,
     ⟨R.MATE_STAT_SIDE, .ro, 0, 1, true, false⟩,
     ⟨R.MATE_STAT_MATE_PRESENT, .ro, 0, 1, true, false⟩,
     ⟨R.MATE_STAT_CLAIM_OWN, .ro, 0, 1, true, false⟩,
     ⟨R.MATE_STAT_CLAIM_MATE, .ro, 0, 1, true, true⟩,
     ⟨R.MATE_STAT_GASP_IN, .ro, 0, 1, true, true⟩,
     ⟨R.MATE_STAT_HB_LOST, .ro, 0, 1, true, false⟩,
     ⟨R.MATE_STAT_DISOWNED, .ro, 0, 1, true, false⟩,
     ⟨R.MATE_STAT_MATE_DISOWNED, .ro, 0, 1, true, false⟩,
     ⟨R.MATE_STAT_MIR_CUR, .ro, 0, 1, true, false⟩,
     ⟨R.MATE_STAT_READY, .ro, 0, 1, true, false⟩,
     ⟨R.MATE_STAT_ORPHAN, .ro, 0, 1, true, false⟩,
     ⟨R.MATE_STAT_PULL_BUSY, .ro, 0, 1, true, false⟩,
     ⟨R.MATE_STAT_SUM_MM, .w1c, 0, 1, false, false⟩]⟩,
   ⟨0x124, 0, 1, false, [⟨R.MATE_MATE_HB_UNIT, .ro, 0, 255, true, false⟩,
     ⟨R.MATE_MATE_HB_HB_SEQ, .ro, 0, 255, true, false⟩,
     ⟨R.MATE_MATE_HB_FLAGS, .ro, 0, 255, true, false⟩]⟩,
   ⟨0x128, 0, 1, false, [⟨R.MATE_PHASE_DELTA, .ro, 0, 0xffff, true, false⟩]⟩,
   ⟨0x12c, 0, 1, false, [⟨R.MATE_LINK_DELAY_NS, .ro, 0, 0xfffff, true, false⟩]⟩,
   ⟨0x130, 0, 1, false, [⟨R.MATE_QCOUNT_MATE, .ro, 0, 127, true, false⟩,
     ⟨R.MATE_QCOUNT_OWN, .ro, 0, 127, true, false⟩]⟩,
   ⟨0x180, 4, 8, false, [⟨R.MATE_DXEQ_BYTES, .rws, 0, 0xffffffff, true, false⟩]⟩]

/-- Registers of page MATRIX. -/
def regsMatrix : List RSpec :=
  [⟨0x100, 0, 1, false, [⟨R.MATRIX_QOS_M5, .rw, 0, 15, false, false⟩,
     ⟨R.MATRIX_QOS_M4, .rw, 0, 15, false, false⟩,
     ⟨R.MATRIX_QOS_M3, .rw, 0, 15, false, false⟩,
     ⟨R.MATRIX_QOS_M2, .rw, 0, 15, false, false⟩,
     ⟨R.MATRIX_QOS_M1, .rw, 0, 15, false, false⟩,
     ⟨R.MATRIX_QOS_M0, .rw, 0, 15, false, false⟩]⟩,
   ⟨0x104, 0, 1, false, [⟨R.MATRIX_TMO_TMO_LOG2, .rw, 10, 16, false, false⟩]⟩,
   ⟨0x108, 0, 1, false, [⟨R.MATRIX_APER_APER, .rw, 8, 31, false, false⟩]⟩,
   ⟨0x110, 0, 1, false, [⟨R.MATRIX_ERR_ADDR_ADDR, .ro, 0, 0xffffffff, false, false⟩]⟩,
   ⟨0x114, 0, 1, false, [⟨R.MATRIX_ERR_INFO_CAUSE, .ro, 0, 15, false, false⟩,
     ⟨R.MATRIX_ERR_INFO_MASTER, .ro, 0, 7, false, false⟩,
     ⟨R.MATRIX_ERR_INFO_TARGET, .ro, 0, 7, false, false⟩,
     ⟨R.MATRIX_ERR_INFO_VALID, .w1c, 0, 1, false, false⟩]⟩,
   ⟨0x118, 0, 1, false, [⟨R.MATRIX_ABORT_VALID, .w1c, 0, 1, false, false⟩,
     ⟨R.MATRIX_ABORT_MASTER, .ro, 0, 7, false, false⟩,
     ⟨R.MATRIX_ABORT_TARGET, .ro, 0, 7, false, false⟩,
     ⟨R.MATRIX_ABORT_WRITE, .ro, 0, 1, false, false⟩]⟩,
   ⟨0x11c, 0, 1, false, [⟨R.MATRIX_ABORT_ADDR_ADDR, .ro, 0, 0xffffffff, false, false⟩]⟩,
   ⟨0x120, 0, 1, false, [⟨R.MATRIX_LOCK_STAT_LOCKED, .ro, 0, 15, false, false⟩]⟩]

/-- Registers of page SEQ. -/
def regsSeq : List RSpec :=
  [⟨0x100, 0, 1, false, [⟨R.SEQ_CTL_WD_EN, .rw, 0, 1, false, false⟩,
     ⟨R.SEQ_CTL_REMAP, .rw, 0, 1, false, false⟩]⟩,
   ⟨0x104, 0, 1, false, [⟨R.SEQ_WD_PERIOD_PERIOD, .rw, 10, 0xffff, false, false⟩]⟩,
   ⟨0x108, 0, 1, false, [⟨R.SEQ_WD_KICK_KEY, .wo, 0, 0xffffffff, false, false⟩]⟩,
   ⟨0x10c, 0, 1, false, [⟨R.SEQ_STAT_WD_CNT, .ro, 0, 255, false, false⟩,
     ⟨R.SEQ_STAT_WD_FIRED, .w1c, 0, 1, false, false⟩,
     ⟨R.SEQ_STAT_RUNNING, .ro, 0, 1, true, false⟩]⟩,
   ⟨0x120, 0, 1, false, [⟨R.SEQ_CHN_ADDR_ADDR, .ro, 0, 63, true, true⟩]⟩,
   ⟨0x124, 0, 1, false, [⟨R.SEQ_CHN_STAT_ARM, .ro, 0, 1, true, false⟩,
     ⟨R.SEQ_CHN_STAT_TOK_IN, .ro, 0, 1, true, false⟩,
     ⟨R.SEQ_CHN_STAT_TOK_OUT, .ro, 0, 1, true, false⟩,
     ⟨R.SEQ_CHN_STAT_QFILL, .ro, 0, 31, true, false⟩]⟩,
   ⟨0x128, 0, 1, false, [⟨R.SEQ_CHN_CFG_NOTIFY_GAP, .rw, 1, 255, false, false⟩,
     ⟨R.SEQ_CHN_CFG_NOTIFY_EN, .rw, 0, 1, false, false⟩]⟩]

/-- Registers of page SECURE. -/
def regsSecure : List RSpec :=
  [⟨0x100, 0, 1, false, [⟨R.SECURE_SP_CTL_ROTATE, .rw, 0, 1, false, false⟩]⟩,
   ⟨0x104, 0, 1, false, [⟨R.SECURE_SP_STAT_COLLIDE, .w1c, 0, 1, false, false⟩,
     ⟨R.SECURE_SP_STAT_DET, .w1c, 0, 1, false, false⟩,
     ⟨R.SECURE_SP_STAT_ST_FAIL, .w1c, 0, 1, false, false⟩,
     ⟨R.SECURE_SP_STAT_RESTORE_ERR, .w1c, 0, 1, false, false⟩,
     ⟨R.SECURE_SP_STAT_INIT_DONE, .ro, 0, 1, true, true⟩]⟩,
   ⟨0x108, 0, 1, false, [⟨R.SECURE_COLL_ADDR_WORD, .ro, 0, 0x1ffff, false, false⟩]⟩,
   ⟨0x10c, 0, 1, false, [⟨R.SECURE_COLL_CNT_COUNT, .rc, 0, 0xffffffff, false, false⟩]⟩,
   ⟨0x110, 0, 1, false, [⟨R.SECURE_SP_DET_ADDR_PORT, .ro, 0, 1, false, false⟩,
     ⟨R.SECURE_SP_DET_ADDR_OFFSET, .ro, 0, 0x7ffff, false, false⟩]⟩,
   ⟨0x114, 0, 1, false, [⟨R.SECURE_SP_DET_CNT_COUNT, .rc, 0, 0xffffffff, false, false⟩]⟩,
   ⟨0x120, 0, 1, false, [⟨R.SECURE_ST_CTL_GAP, .rw, 1, 255, false, false⟩,
     ⟨R.SECURE_ST_CTL_EN, .rw, 0, 1, false, false⟩]⟩,
   ⟨0x124, 0, 1, false, [⟨R.SECURE_ST_STAT_LINE, .ro, 0, 0x1fff, false, false⟩,
     ⟨R.SECURE_ST_STAT_PASSES, .ro, 0, 0xffff, false, false⟩]⟩,
   ⟨0x128, 0, 1, false, [⟨R.SECURE_ST_FAIL_ADDR_OFFSET, .ro, 0, 0x7ffff, false, false⟩]⟩,
   ⟨0x200, 0, 1, false, [⟨R.SECURE_LC_WIPE_BUSY, .ro, 0, 1, true, true⟩,
     ⟨R.SECURE_LC_TAMPER_IN, .ro, 0, 1, true, true⟩,
     ⟨R.SECURE_LC_TAMPERED, .ro, 0, 1, true, true⟩,
     ⟨R.SECURE_LC_K_ID_HELD, .ro, 0, 1, true, true⟩,
     ⟨R.SECURE_LC_K_AUTH_HELD, .ro, 0, 1, true, true⟩,
     ⟨R.SECURE_LC_K_ID_USED, .ro, 0, 1, true, true⟩,
     ⟨R.SECURE_LC_K_AUTH_USED, .ro, 0, 1, true, true⟩,
     ⟨R.SECURE_LC_STATE, .ro, 0, 3, true, true⟩]⟩,
   ⟨0x204, 0, 1, false, [⟨R.SECURE_LC_KEY_KEY, .wo, 0, 0xffffffff, false, false⟩]⟩,
   ⟨0x208, 0, 1, false, [⟨R.SECURE_LC_CTL_LC_REFUSED, .w1c, 0, 1, false, false⟩,
     ⟨R.SECURE_LC_CTL_GO, .wo, 0, 1, false, false⟩,
     ⟨R.SECURE_LC_CTL_TARGET, .wo, 0, 3, false, false⟩]⟩,
   ⟨0x210, 4, 4, false, [⟨R.SECURE_LC_TAG_TAG, .wo, 0, 0xffffffff, false, false⟩]⟩,
   ⟨0x220, 0, 1, false, [⟨R.SECURE_CTL_ENFORCE, .rw, 0, 1, true, true⟩]⟩,
   ⟨0x224, 0, 1, false, [⟨R.SECURE_AUTH_STAT_FAIL, .w1c, 0, 1, false, false⟩,
     ⟨R.SECURE_AUTH_STAT_KEY_REFUSED, .w1c, 0, 1, false, false⟩]⟩,
   ⟨0x228, 0, 1, false, [⟨R.SECURE_AUTH_FAIL_CNT_COUNT, .rc, 0, 0xffffffff, false, false⟩]⟩,
   ⟨0x230, 0, 1, true, [⟨R.SECURE_AUTH_SEQ_SEQ, .ro, 0, 0xffffffffffffffff, true, true⟩]⟩,
   ⟨0x240, 4, 8, false, [⟨R.SECURE_KEY_IN_KEY, .wo, 0, 0xffffffff, false, false⟩]⟩,
   ⟨0x260, 0, 1, false, [⟨R.SECURE_KEY_CMD_LOAD_ID, .wo, 0, 1, false, false⟩,
     ⟨R.SECURE_KEY_CMD_LOAD_AUTH, .wo, 0, 1, false, false⟩]⟩,
   ⟨0x264, 0, 1, false, [⟨R.SECURE_KEY_ID_ID_FP, .ro, 0, 0xffff, true, true⟩,
     ⟨R.SECURE_KEY_ID_AUTH_FP, .ro, 0, 0xffff, true, true⟩]⟩,
   ⟨0x280, 4, 8, false, [⟨R.SECURE_CHAL_CHAL, .wo, 0, 0xffffffff, false, false⟩]⟩,
   ⟨0x2a0, 0, 1, false, [⟨R.SECURE_ID_CMD_BUSY, .ro, 0, 1, false, false⟩,
     ⟨R.SECURE_ID_CMD_RESPOND, .wo, 0, 1, false, false⟩]⟩,
   ⟨0x2b0, 4, 4, false, [⟨R.SECURE_RESP_RESP, .ro, 0, 0xffffffff, false, false⟩]⟩]

/-- Registers of page DRAMC. -/
def regsDramc : List RSpec :=
  [⟨0x100, 0, 1, false, [⟨R.DRAMC_CFG_SPEED, .rws, 0, 3, true, true⟩,
     ⟨R.DRAMC_CFG_WIDTH, .rws, 0, 1, true, true⟩,
     ⟨R.DRAMC_CFG_DENSITY, .rws, 0, 3, true, true⟩,
     ⟨R.DRAMC_CFG_RANKS, .rws, 0, 1, true, true⟩,
     ⟨R.DRAMC_CFG_VALID, .rws, 0, 1, true, true⟩]⟩,
   ⟨0x104, 0, 1, false, [⟨R.DRAMC_STAT_READY, .ro, 0, 1, true, false⟩,
     ⟨R.DRAMC_STAT_HOT, .ro, 0, 1, true, false⟩,
     ⟨R.DRAMC_STAT_CFG_REFUSED, .w1c, 0, 1, false, false⟩,
     ⟨R.DRAMC_STAT_CFG_ERR, .ro, 0, 1, true, false⟩,
     ⟨R.DRAMC_STAT_MISMATCH, .ro, 0, 1, true, false⟩,
     ⟨R.DRAMC_STAT_FAIL_STEP, .ro, 0, 15, true, false⟩,
     ⟨R.DRAMC_STAT_TRAIN_FAIL, .ro, 0, 1, true, false⟩,
     ⟨R.DRAMC_STAT_TRAIN_BUSY, .ro, 0, 1, true, false⟩,
     ⟨R.DRAMC_STAT_TRAINED, .ro, 0, 1, true, false⟩]⟩,
   ⟨0x108, 0, 1, true, [⟨R.DRAMC_DET_ADDR_CAUSE, .ro, 0, 3, false, false⟩,
     ⟨R.DRAMC_DET_ADDR_REGION, .ro, 0, 255, false, false⟩,
     ⟨R.DRAMC_DET_ADDR_BURST, .ro, 0, 0x3fffffff, false, false⟩]⟩,
   ⟨0x110, 0, 1, false, [⟨R.DRAMC_DET_CNT_COUNT, .rc, 0, 0xffffffff, false, false⟩]⟩,
   ⟨0x180, 4, 8, false, [⟨R.DRAMC_WIN_EN, .rws, 0, 1, true, false⟩,
     ⟨R.DRAMC_WIN_RO, .rws, 0, 1, true, false⟩,
     ⟨R.DRAMC_WIN_TARGET, .rws, 0, 0x7ff, true, false⟩]⟩]

/-- Registers of page BENCH. -/
def regsBench : List RSpec :=
  [⟨0x100, 0, 1, false, [⟨R.BENCH_B_IDX_DRAWER, .rw, 0, 0x1fff, false, false⟩]⟩,
   ⟨0x104, 0, 1, false, [⟨R.BENCH_B_CMD_BUSY, .ro, 0, 1, false, false⟩,
     ⟨R.BENCH_B_CMD_CLR, .wo, 0, 1, false, false⟩,
     ⟨R.BENCH_B_CMD_WRITE, .wo, 0, 1, false, false⟩,
     ⟨R.BENCH_B_CMD_READ, .wo, 0, 1, false, false⟩]⟩,
   ⟨0x108, 0, 1, false, [⟨R.BENCH_B_CFG_FIXED, .rw, 0, 255, false, false⟩,
     ⟨R.BENCH_B_CFG_PATTERN, .rw, 0, 2, false, false⟩,
     ⟨R.BENCH_B_CFG_ANA_EN, .rw, 0, 1, false, false⟩,
     ⟨R.BENCH_B_CFG_GEN_EN, .rw, 0, 1, false, false⟩]⟩,
   ⟨0x10c, 0, 1, false, [⟨R.BENCH_B_STAT_DELAY, .ro, 0, 0x1fffff, false, false⟩,
     ⟨R.BENCH_B_STAT_TAG_SYNC, .ro, 0, 1, false, false⟩,
     ⟨R.BENCH_B_STAT_PAT_SYNC, .ro, 0, 1, false, false⟩,
     ⟨R.BENCH_B_STAT_PSTATE_OK, .ro, 0, 1, false, false⟩]⟩,
   ⟨0x110, 0, 1, false, [⟨R.BENCH_B_CNT_SYNC_LOSS, .ro, 0, 255, false, false⟩,
     ⟨R.BENCH_B_CNT_BIT_ERR, .ro, 0, 0xffffff, false, false⟩]⟩,
   ⟨0x114, 0, 1, false, [⟨R.BENCH_B_CNT2_BIP_ERR, .ro, 0, 0xffff, false, false⟩]⟩]

/-- Registers of page LANEP. -/
def regsLanep : List RSpec :=
  [⟨0x100, 0, 1, false, [⟨R.LANEP_CTL_LOOP, .rw, 0, 3, false, false⟩,
     ⟨R.LANEP_CTL_RATE, .rws, 0, 3, true, false⟩,
     ⟨R.LANEP_CTL_EN, .rws, 0, 1, true, false⟩]⟩,
   ⟨0x104, 0, 1, false, [⟨R.LANEP_STAT_LOOP_REFUSED, .w1c, 0, 1, false, false⟩,
     ⟨R.LANEP_STAT_EN_REFUSED, .w1c, 0, 1, false, false⟩,
     ⟨R.LANEP_STAT_RATE_REFUSED, .w1c, 0, 1, false, false⟩,
     ⟨R.LANEP_STAT_LOOP_ACTIVE, .ro, 0, 3, false, false⟩,
     ⟨R.LANEP_STAT_RATE_ACTIVE, .ro, 0, 3, true, false⟩,
     ⟨R.LANEP_STAT_RUNNING, .ro, 0, 1, true, false⟩,
     ⟨R.LANEP_STAT_SIG_DET, .ro, 0, 1, true, false⟩,
     ⟨R.LANEP_STAT_CDR_LOCK, .ro, 0, 1, true, false⟩,
     ⟨R.LANEP_STAT_PLL_LOCK, .ro, 0, 1, true, false⟩]⟩,
   ⟨0x108, 0, 1, false, [⟨R.LANEP_REF_OFFSET_REF_RANGE, .ro, 0, 1, true, false⟩,
     ⟨R.LANEP_REF_OFFSET_OFFSET, .ro, 0, 0xfffff, true, false⟩]⟩,
   ⟨0x110, 0, 1, false, [⟨R.LANEP_EQ_CTL_LOAD, .wo, 0, 1, false, false⟩]⟩,
   ⟨0x114, 0, 1, false, [⟨R.LANEP_EQ_STAT_BUSY, .ro, 0, 1, false, false⟩,
     ⟨R.LANEP_EQ_STAT_VALID_RATES, .ro, 0, 15, true, false⟩,
     ⟨R.LANEP_EQ_STAT_RANGE_ERR, .ro, 0, 1, true, false⟩,
     ⟨R.LANEP_EQ_STAT_CRC_ERR, .ro, 0, 1, true, false⟩,
     ⟨R.LANEP_EQ_STAT_FMT_ERR, .ro, 0, 1, true, false⟩,
     ⟨R.LANEP_EQ_STAT_LOADED, .ro, 0, 1, true, false⟩]⟩,
   ⟨0x118, 0, 1, false, [⟨R.LANEP_EQ_TX_FLAGS, .ro, 0, 255, true, false⟩,
     ⟨R.LANEP_EQ_TX_TX_POST, .ro, 0, 255, true, false⟩,
     ⟨R.LANEP_EQ_TX_TX_MAIN, .ro, 0, 255, true, false⟩,
     ⟨R.LANEP_EQ_TX_TX_PRE, .ro, 0, 255, true, false⟩]⟩,
   ⟨0x11c, 0, 1, false, [⟨R.LANEP_EQ_RX0_DFE2, .ro, 0, 255, true, false⟩,
     ⟨R.LANEP_EQ_RX0_DFE1, .ro, 0, 255, true, false⟩,
     ⟨R.LANEP_EQ_RX0_CTLE_PEAK, .ro, 0, 255, true, false⟩]⟩,
   ⟨0x120, 0, 1, false, [⟨R.LANEP_EQ_RX1_DFE5, .ro, 0, 255, true, false⟩,
     ⟨R.LANEP_EQ_RX1_DFE4, .ro, 0, 255, true, false⟩,
     ⟨R.LANEP_EQ_RX1_DFE3, .ro, 0, 255, true, false⟩]⟩,
   ⟨0x130, 0, 1, false, [⟨R.LANEP_EYE_CTL_DWELL_LOG2, .rw, 10, 40, false, false⟩,
     ⟨R.LANEP_EYE_CTL_ABORT, .wo, 0, 1, false, false⟩,
     ⟨R.LANEP_EYE_CTL_START, .wo, 0, 1, false, false⟩]⟩,
   ⟨0x134, 0, 1, false, [⟨R.LANEP_EYE_DEST_BLOCK, .rw, 0, 31, false, false⟩]⟩,
   ⟨0x138, 0, 1, false, [⟨R.LANEP_EYE_STAT_POINT, .ro, 0, 0x3fff, false, false⟩,
     ⟨R.LANEP_EYE_STAT_REFUSED, .w1c, 0, 1, false, false⟩,
     ⟨R.LANEP_EYE_STAT_ABORTED, .w1c, 0, 1, false, false⟩,
     ⟨R.LANEP_EYE_STAT_DONE, .w1c, 0, 1, false, false⟩,
     ⟨R.LANEP_EYE_STAT_BUSY, .ro, 0, 1, false, false⟩]⟩,
   ⟨0x140, 0, 1, false, [⟨R.LANEP_FILL_RX_COUNT, .ro, 0, 0x3ffff, true, false⟩]⟩,
   ⟨0x144, 0, 1, false, [⟨R.LANEP_STUFF_RX_COUNT, .ro, 0, 0x3ffff, true, false⟩]⟩,
   ⟨0x148, 0, 1, false, [⟨R.LANEP_FILL_TX_COUNT, .ro, 0, 0x3ffff, true, false⟩]⟩,
   ⟨0x14c, 0, 1, false, [⟨R.LANEP_STUFF_TX_COUNT, .ro, 0, 0x3ffff, true, false⟩]⟩]

/-- Registers of page LANEF, part 1. -/
def regsLanefA : List RSpec :=
  [⟨0x100, 0, 1, false, [⟨R.LANEF_CTL_SD_EXP, .rws, 5, 9, true, false⟩,
     ⟨R.LANEF_CTL_LOSS_M, .rws, 2, 15, true, false⟩,
     ⟨R.LANEF_CTL_CONF_N, .rws, 2, 8, true, false⟩,
     ⟨R.LANEF_CTL_EXC_AIS, .rws, 0, 1, true, false⟩,
     ⟨R.LANEF_CTL_TIM_AIS, .rws, 0, 1, true, false⟩,
     ⟨R.LANEF_CTL_TIM_EN, .rws, 0, 1, true, false⟩,
     ⟨R.LANEF_CTL_FORCE_AIS, .rws, 0, 1, true, false⟩,
     ⟨R.LANEF_CTL_FORCE_RDI, .rws, 0, 1, true, false⟩]⟩,
   ⟨0x104, 0, 1, false, [⟨R.LANEF_STATE_CONF_COUNT, .ro, 0, 15, true, false⟩,
     ⟨R.LANEF_STATE_SYNC, .ro, 0, 1, true, false⟩,
     ⟨R.LANEF_STATE_CAND, .ro, 0, 7, true, false⟩]⟩,
   ⟨0x108, 0, 1, false, [⟨R.LANEF_DEF_RAW_DEFECTS, .ro, 0, 0x7ff, true, false⟩]⟩,
   ⟨0x10c, 0, 1, false, [⟨R.LANEF_DEF_DEFECTS, .ro, 0, 0x7ff, true, false⟩]⟩,
   ⟨0x110, 4, 11, false, [⟨R.LANEF_INTEG_CLEAR, .rws, 0, 255, true, false⟩,
     ⟨R.LANEF_INTEG_SET, .rws, 0, 255, true, false⟩]⟩,
   ⟨0x140, 0, 1, false, [⟨R.LANEF_RX_UNIT_UNIT, .ro, 0, 255, false, false⟩]⟩,
   ⟨0x144, 0, 1, false, [⟨R.LANEF_RX_APS_APS, .ro, 0, 0xffff, false, false⟩]⟩,
   ⟨0x148, 0, 1, false, [⟨R.LANEF_RX_FB_FB, .ro, 0, 0xffffffff, false, false⟩]⟩,
   ⟨0x14c, 0, 1, false, [⟨R.LANEF_RX_LABEL_LABEL, .ro, 0, 0xffff, false, false⟩]⟩,
   ⟨0x150, 0, 1, true, [⟨R.LANEF_RX_EPOCH_EPOCH, .ro, 0, 0xffffffffff, false, false⟩]⟩,
   ⟨0x160, 0, 1, false, [⟨R.LANEF_FB_TX_PORT_ID, .rws, 0, 0xffff, true, false⟩,
     ⟨R.LANEF_FB_TX_EN, .rws, 0, 1, true, false⟩,
     ⟨R.LANEF_FB_TX_SEL, .rws, 0, 2, true, false⟩,
     ⟨R.LANEF_FB_TX_FAR_SIDE, .rws, 0, 1, true, false⟩,
     ⟨R.LANEF_FB_TX_PARTNER_EN, .rws, 0, 1, true, false⟩,
     ⟨R.LANEF_FB_TX_PARTNER, .rws, 0, 63, true, false⟩]⟩,
   ⟨0x170, 0, 1, false, [⟨R.LANEF_FAR_OFFSET_OFFSET, .ro, 0, 0xfffff, false, false⟩]⟩,
   ⟨0x174, 0, 1, false, [⟨R.LANEF_OSC_DIFF_DIFF, .ro, 0, 0xfffff, false, false⟩]⟩,
   ⟨0x178, 0, 1, false, [⟨R.LANEF_BIP_LAST_COUNT, .ro, 0, 31, false, false⟩]⟩,
   ⟨0x180, 0, 1, false, [⟨R.LANEF_MSG_CTL_BLOCK, .rws, 0, 1023, true, false⟩,
     ⟨R.LANEF_MSG_CTL_RX_EN, .rws, 0, 1, true, false⟩,
     ⟨R.LANEF_MSG_CTL_TX_EN, .rws, 0, 1, true, false⟩]⟩,
   ⟨0x184, 0, 1, false, [⟨R.LANEF_MSG_PTR_TX_WR, .rws, 0, 31, true, false⟩,
     ⟨R.LANEF_MSG_PTR_TX_RD, .ro, 0, 31, true, false⟩,
     ⟨R.LANEF_MSG_PTR_RX_WR, .ro, 0, 31, true, false⟩,
     ⟨R.LANEF_MSG_PTR_RX_RD, .rws, 0, 31, true, false⟩]⟩,
   ⟨0x200, 4, 16, false, [⟨R.LANEF_TRACE_TX_BYTES, .rws, 0, 0xffffffff, true, false⟩]⟩,
   ⟨0x240, 4, 16, false, [⟨R.LANEF_TRACE_EXP_BYTES, .rws, 0, 0xffffffff, true, false⟩]⟩,
   ⟨0x280, 4, 16, false, [⟨R.LANEF_TRACE_ACC_BYTES, .ro, 0, 0xffffffff, true, false⟩]⟩,
   ⟨0x2c0, 0, 1, false, [⟨R.LANEF_SKEW_ROW_SKEW, .ro, 0, 63, true, false⟩]⟩,
   ⟨0x300, 0, 1, false, [⟨R.LANEF_DRW_IDX_COLUMN, .rw, 0, 0x1fff, false, false⟩]⟩,
   ⟨0x304, 0, 1, false, [⟨R.LANEF_DRW_CMD_ERR, .w1c, 0, 1, false, false⟩,
     ⟨R.LANEF_DRW_CMD_BUSY, .ro, 0, 1, false, false⟩,
     ⟨R.LANEF_DRW_CMD_CLR, .wo, 0, 1, false, false⟩,
     ⟨R.LANEF_DRW_CMD_WRITE, .wo, 0, 1, false, false⟩,
     ⟨R.LANEF_DRW_CMD_READ, .wo, 0, 1, false, false⟩]⟩,
   ⟨0x308, 0, 1, false, [⟨R.LANEF_DRW_CFG_SD_EXP, .rw, 5, 8, false, false⟩,
     ⟨R.LANEF_DRW_CFG_MON_EN, .rw, 0, 1, false, false⟩,
     ⟨R.LANEF_DRW_CFG_JCE_EN, .rw, 0, 1, false, false⟩,
     ⟨R.LANEF_DRW_CFG_TAG_EN, .rw, 0, 1, false, false⟩,
     ⟨R.LANEF_DRW_CFG_PLM_AIS, .rw, 0, 1, false, false⟩,
     ⟨R.LANEF_DRW_CFG_PLM_EN, .rw, 0, 1, false, false⟩,
     ⟨R.LANEF_DRW_CFG_EXP_LABEL, .rw, 1, 3, false, false⟩]⟩,
   ⟨0x30c, 0, 1, false, [⟨R.LANEF_DRW_STAT_TAG_SYNC, .ro, 0, 1, false, false⟩,
     ⟨R.LANEF_DRW_STAT_FILL, .ro, 0, 7, false, false⟩,
     ⟨R.LANEF_DRW_STAT_LABEL_ACC, .ro, 0, 7, false, false⟩,
     ⟨R.LANEF_DRW_STAT_PTR_CORE, .ro, 0, 63, false, false⟩,
     ⟨R.LANEF_DRW_STAT_PTR_RX, .ro, 0, 63, false, false⟩,
     ⟨R.LANEF_DRW_STAT_PSTATE, .ro, 0, 3, false, false⟩,
     ⟨R.LANEF_DRW_STAT_DEF, .ro, 0, 511, false, false⟩]⟩,
   ⟨0x310, 0, 1, false, [⟨R.LANEF_DRW_CNT_JUST_CORE, .ro, 0, 255, false, false⟩,
     ⟨R.LANEF_DRW_CNT_JUST_RX, .ro, 0, 255, false, false⟩,
     ⟨R.LANEF_DRW_CNT_BIP_ERR, .ro, 0, 0xffff, false, false⟩]⟩]

/-- Registers of page LANEF, part 2. -/
def regsLanefB : List RSpec :=
  [⟨0x314, 0, 1, false, [⟨R.LANEF_DRW_TAG_TAG, .ro, 0, 0xffff, false, false⟩]⟩,
   ⟨0x320, 4, 9, false, [⟨R.LANEF_DINTEG_CLEAR, .rws, 0, 255, true, false⟩,
     ⟨R.LANEF_DINTEG_SET, .rws, 0, 255, true, false⟩]⟩]

/-- Registers of page DFAB. -/
def regsDfab : List RSpec :=
  [⟨0x100, 0, 1, false, [⟨R.DFAB_CTL_IDLE_BYTE, .rws, 0, 255, true, false⟩]⟩,
   ⟨0x104, 0, 1, false, [⟨R.DFAB_STAT_GROUP_ON, .ro, 0, 255, true, false⟩]⟩,
   ⟨0x108, 0, 1, false, [⟨R.DFAB_CMDET_ADDR_BANK, .ro, 0, 1, false, false⟩,
     ⟨R.DFAB_CMDET_ADDR_OFFSET, .ro, 0, 0xffffff, false, false⟩]⟩,
   ⟨0x10c, 0, 1, false, [⟨R.DFAB_PAR_ADDR_PORT, .ro, 0, 63, false, false⟩,
     ⟨R.DFAB_PAR_ADDR_PORT_HI, .ro, 0, 1, false, false⟩,
     ⟨R.DFAB_PAR_ADDR_ROW, .ro, 0, 63, false, false⟩,
     ⟨R.DFAB_PAR_ADDR_COLUMN, .ro, 0, 0x1fff, false, false⟩]⟩]

/-- Registers of page MAPC, part 1. -/
def regsMapcA : List RSpec :=
  [⟨0x100, 0, 1, false, [⟨R.MAPC_CTL_PLANE_EN, .rw, 0, 255, false, false⟩]⟩,
   ⟨0x104, 0, 1, false, [⟨R.MAPC_STAT_GROUP_EMPTY, .ro, 0, 255, true, false⟩,
     ⟨R.MAPC_STAT_QFREE, .ro, 0, 511, true, false⟩,
     ⟨R.MAPC_STAT_LIST_BUSY, .ro, 0, 1, false, false⟩,
     ⟨R.MAPC_STAT_BUSY, .ro, 0, 1, false, false⟩,
     ⟨R.MAPC_STAT_READY, .ro, 0, 1, false, false⟩]⟩,
   ⟨0x108, 0, 1, false, [⟨R.MAPC_REQ_LO_WORD, .wo, 0, 0xffffffff, false, false⟩]⟩,
   ⟨0x10c, 0, 1, false, [⟨R.MAPC_REQ_HI_WORD, .wo, 0, 0xffffffff, false, false⟩]⟩,
   ⟨0x110, 0, 1, false, [⟨R.MAPC_LIST_ADDR_ADDR, .rw, 0, 0x1fffffff, false, false⟩]⟩,
   ⟨0x114, 0, 1, false, [⟨R.MAPC_LIST_LEN_LEN, .rw, 1, 0xfffff, false, false⟩]⟩,
   ⟨0x118, 0, 1, false, [⟨R.MAPC_LIST_CTL_ABORT, .wo, 0, 1, false, false⟩,
     ⟨R.MAPC_LIST_CTL_START, .wo, 0, 1, false, false⟩]⟩,
   ⟨0x11c, 0, 1, false, [⟨R.MAPC_LIST_DONE_DONE, .ro, 0, 0xfffff, false, false⟩]⟩,
   ⟨0x120, 0, 1, false, [⟨R.MAPC_REJ_LO_WORD, .ro, 0, 0xffffffff, false, false⟩]⟩,
   ⟨0x124, 0, 1, false, [⟨R.MAPC_REJ_HI_WORD, .ro, 0, 0xffffffff, false, false⟩]⟩,
   ⟨0x128, 0, 1, false, [⟨R.MAPC_REJ_INFO_REFUSED, .w1c, 0, 1, false, false⟩,
     ⟨R.MAPC_REJ_INFO_OVERRUN, .w1c, 0, 1, false, false⟩,
     ⟨R.MAPC_REJ_INFO_REASON, .ro, 0, 15, false, false⟩]⟩,
   ⟨0x130, 0, 1, false, [⟨R.MAPC_LOAD_IDX_PORT, .rw, 0, 74, false, false⟩]⟩,
   ⟨0x134, 0, 1, false, [⟨R.MAPC_LOAD_R_OUT, .ro, 0, 0x7fff, true, false⟩,
     ⟨R.MAPC_LOAD_R_IN, .ro, 0, 0x7fff, true, false⟩]⟩,
   ⟨0x138, 0, 1, false, [⟨R.MAPC_PURGE_CNT_COUNT, .rc, 0, 0xffffffff, false, false⟩]⟩,
   ⟨0x140, 0, 1, false, [⟨R.MAPC_COMMIT_CTL_SUM_ACT, .wo, 0, 1, false, false⟩,
     ⟨R.MAPC_COMMIT_CTL_SUM_EDIT, .wo, 0, 1, false, false⟩,
     ⟨R.MAPC_COMMIT_CTL_DROP_LATE, .rw, 0, 1, false, false⟩,
     ⟨R.MAPC_COMMIT_CTL_CANCEL, .wo, 0, 1, false, false⟩,
     ⟨R.MAPC_COMMIT_CTL_ARM, .wo, 0, 1, false, false⟩,
     ⟨R.MAPC_COMMIT_CTL_NOW, .wo, 0, 1, false, false⟩]⟩,
   ⟨0x144, 0, 1, false, [⟨R.MAPC_COMMIT_STAT_AUTH_FAIL, .w1c, 0, 1, false, false⟩,
     ⟨R.MAPC_COMMIT_STAT_CANCELLED, .w1c, 0, 1, false, false⟩,
     ⟨R.MAPC_COMMIT_STAT_REFUSED, .w1c, 0, 1, false, false⟩,
     ⟨R.MAPC_COMMIT_STAT_DROPPED, .w1c, 0, 1, false, false⟩,
     ⟨R.MAPC_COMMIT_STAT_LATE, .w1c, 0, 1, false, false⟩,
     ⟨R.MAPC_COMMIT_STAT_EDIT_SUM_VALID, .ro, 0, 1, false, false⟩,
     ⟨R.MAPC_COMMIT_STAT_SUM_BUSY, .ro, 0, 1, false, false⟩,
     ⟨R.MAPC_COMMIT_STAT_SUM_VALID, .ro, 0, 1, false, false⟩,
     ⟨R.MAPC_COMMIT_STAT_CATCHUP, .ro, 0, 1, true, false⟩,
     ⟨R.MAPC_COMMIT_STAT_CUT, .ro, 0, 1, false, false⟩,
     ⟨R.MAPC_COMMIT_STAT_PENDING, .ro, 0, 1, false, false⟩]⟩,
   ⟨0x148, 0, 1, true, [⟨R.MAPC_COMMIT_EPOCH_EPOCH, .rw, 0, 0xffffffffff, false, false⟩]⟩,
   ⟨0x150, 0, 1, true, [⟨R.MAPC_LAST_EPOCH_ARMED, .ro, 0, 1, false, false⟩,
     ⟨R.MAPC_LAST_EPOCH_LATE, .ro, 0, 1, false, false⟩,
     ⟨R.MAPC_LAST_EPOCH_EPOCH, .ro, 0, 0xffffffffff, false, false⟩]⟩,
   ⟨0x158, 0, 1, false, [⟨R.MAPC_COMMIT_CNT_COUNT, .ro, 0, 0xffffffff, false, false⟩]⟩,
   ⟨0x160, 0, 1, false, [⟨R.MAPC_ACT_DSUM_SUM, .ro, 0, 0xffffffff, false, false⟩]⟩,
   ⟨0x164, 0, 1, false, [⟨R.MAPC_ACT_SSUM_SUM, .ro, 0, 0xffffffff, false, false⟩]⟩,
   ⟨0x168, 0, 1, false, [⟨R.MAPC_EDIT_DSUM_SUM, .ro, 0, 0xffffffff, false, false⟩]⟩,
   ⟨0x16c, 0, 1, false, [⟨R.MAPC_EDIT_SSUM_SUM, .ro, 0, 0xffffffff, false, false⟩]⟩,
   ⟨0x170, 0, 1, false, [⟨R.MAPC_MAPLOST_ADDR_FABRIC, .ro, 0, 1, false, false⟩,
     ⟨R.MAPC_MAPLOST_ADDR_BANK, .ro, 0, 1, false, false⟩,
     ⟨R.MAPC_MAPLOST_ADDR_OFFSET, .ro, 0, 0xffffff, false, false⟩]⟩,
   ⟨0x174, 0, 1, false, [⟨R.MAPC_MAPLOST_CNT_COUNT, .rc, 0, 0xffffffff, false, false⟩]⟩]

/-- Registers of page MAPC, part 2. -/
def regsMapcB : List RSpec :=
  [⟨0x180, 4, 4, false, [⟨R.MAPC_COMMIT_TAG_TAG, .wo, 0, 0xffffffff, false, false⟩]⟩]

/-- Registers of page SFAB. -/
def regsSfab : List RSpec :=
  [⟨0x100, 0, 1, false, [⟨R.SFAB_CTL_IDLE1, .rws, 0, 255, true, false⟩,
     ⟨R.SFAB_CTL_IDLE0, .rws, 0, 255, true, false⟩]⟩,
   ⟨0x104, 0, 1, false, [⟨R.SFAB_STAT_READY, .ro, 0, 1, true, false⟩,
     ⟨R.SFAB_STAT_QUARTER_ON, .ro, 0, 15, true, false⟩]⟩,
   ⟨0x108, 0, 1, false, [⟨R.SFAB_DET_ADDR_BANK, .ro, 0, 1, false, false⟩,
     ⟨R.SFAB_DET_ADDR_OFFSET, .ro, 0, 0xffffff, false, false⟩]⟩,
   ⟨0x10c, 0, 1, false, [⟨R.SFAB_PAR_ADDR_SLOT, .ro, 0, 0x1fffff, false, false⟩]⟩,
   ⟨0x110, 0, 1, false, [⟨R.SFAB_G_IDX_DRAWER, .rw, 0, 0xffff, false, false⟩]⟩,
   ⟨0x114, 0, 1, false, [⟨R.SFAB_G_CMD_BUSY, .ro, 0, 1, false, false⟩,
     ⟨R.SFAB_G_CMD_CLR, .wo, 0, 1, false, false⟩,
     ⟨R.SFAB_G_CMD_READ, .wo, 0, 1, false, false⟩]⟩,
   ⟨0x118, 0, 1, false, [⟨R.SFAB_G_STAT_LIVE, .ro, 0, 1, false, false⟩,
     ⟨R.SFAB_G_STAT_PTR_CORE, .ro, 0, 63, false, false⟩,
     ⟨R.SFAB_G_STAT_LABEL_ACC, .ro, 0, 7, false, false⟩,
     ⟨R.SFAB_G_STAT_PSTATE, .ro, 0, 3, false, false⟩,
     ⟨R.SFAB_G_STAT_CLASS, .ro, 0, 3, false, false⟩]⟩,
   ⟨0x11c, 0, 1, false, [⟨R.SFAB_G_CNT_JUST, .ro, 0, 255, false, false⟩,
     ⟨R.SFAB_G_CNT_BIP_ERR, .ro, 0, 0xffff, false, false⟩]⟩]

/-- Registers of page CONF. -/
def regsConf : List RSpec :=
  [⟨0x100, 0, 1, false, [⟨R.CONF_PUSED0_Q1, .ro, 0, 0x7fff, true, false⟩,
     ⟨R.CONF_PUSED0_Q0, .ro, 0, 0x7fff, true, false⟩]⟩,
   ⟨0x104, 0, 1, false, [⟨R.CONF_PUSED1_Q3, .ro, 0, 0x7fff, true, false⟩,
     ⟨R.CONF_PUSED1_Q2, .ro, 0, 0x7fff, true, false⟩]⟩,
   ⟨0x110, 0, 1, false, [⟨R.CONF_B_IDX_BRIDGE, .rw, 0, 0x1fff, false, false⟩]⟩,
   ⟨0x114, 0, 1, false, [⟨R.CONF_B_CMD_BUSY, .ro, 0, 1, false, false⟩,
     ⟨R.CONF_B_CMD_CLR, .wo, 0, 1, false, false⟩,
     ⟨R.CONF_B_CMD_READ, .wo, 0, 1, false, false⟩]⟩,
   ⟨0x118, 0, 1, false, [⟨R.CONF_B_STAT_SILENT, .ro, 0, 127, false, false⟩,
     ⟨R.CONF_B_STAT_PARTIES, .ro, 0, 127, false, false⟩]⟩,
   ⟨0x11c, 0, 1, false, [⟨R.CONF_B_CNT_SAT, .ro, 0, 0xffffff, false, false⟩]⟩]

/-- Registers of page PROT. -/
def regsProt : List RSpec :=
  [⟨0x100, 0, 1, false, [⟨R.PROT_S_IDX_OUT, .rws, 0, 0xfffff, true, false⟩]⟩,
   ⟨0x104, 0, 1, false, [⟨R.PROT_S_CMD_ERR, .w1c, 0, 1, false, false⟩,
     ⟨R.PROT_S_CMD_BUSY, .ro, 0, 1, false, false⟩,
     ⟨R.PROT_S_CMD_COMMAND, .wo, 0, 7, false, false⟩,
     ⟨R.PROT_S_CMD_EXEC, .wo, 0, 1, false, false⟩,
     ⟨R.PROT_S_CMD_CLR, .wo, 0, 1, false, false⟩,
     ⟨R.PROT_S_CMD_WRITE, .wo, 0, 1, false, false⟩,
     ⟨R.PROT_S_CMD_READ, .wo, 0, 1, false, false⟩]⟩,
   ⟨0x108, 0, 1, false, [⟨R.PROT_S_CFG_WTR, .rws, 0, 720, true, false⟩,
     ⟨R.PROT_S_CFG_HOLDOFF, .rws, 0, 100, true, false⟩,
     ⟨R.PROT_S_CFG_REVERT, .rws, 0, 1, true, false⟩,
     ⟨R.PROT_S_CFG_EN, .rws, 0, 1, true, false⟩]⟩,
   ⟨0x10c, 0, 1, false, [⟨R.PROT_S_STAT_SWITCHES, .ro, 0, 0xffff, true, false⟩,
     ⟨R.PROT_S_STAT_CMD_HELD, .ro, 0, 7, true, false⟩,
     ⟨R.PROT_S_STAT_REQUEST, .ro, 0, 15, true, false⟩,
     ⟨R.PROT_S_STAT_WTR_RUN, .ro, 0, 1, true, false⟩,
     ⟨R.PROT_S_STAT_HOLD_RUN, .ro, 0, 1, true, false⟩,
     ⟨R.PROT_S_STAT_COND, .ro, 0, 15, true, false⟩,
     ⟨R.PROT_S_STAT_SELECTED, .ro, 0, 1, true, false⟩]⟩,
   ⟨0x200, 16, 32, false, [⟨R.PROT_G_CFG_WTR, .rws, 0, 720, true, false⟩,
     ⟨R.PROT_G_CFG_HOLDOFF, .rws, 0, 100, true, false⟩,
     ⟨R.PROT_G_CFG_P_LANE, .rws, 0, 63, true, false⟩,
     ⟨R.PROT_G_CFG_W_LANE, .rws, 0, 63, true, false⟩,
     ⟨R.PROT_G_CFG_REVERT, .rws, 0, 1, true, false⟩,
     ⟨R.PROT_G_CFG_DUAL, .rws, 0, 1, true, false⟩,
     ⟨R.PROT_G_CFG_EN, .rws, 0, 1, true, false⟩]⟩,
   ⟨0x204, 16, 32, false, [⟨R.PROT_G_CMD_COMMAND, .wo, 0, 7, false, false⟩]⟩,
   ⟨0x208, 16, 32, false, [⟨R.PROT_G_STAT_SWITCHES, .ro, 0, 0xffff, true, false⟩,
     ⟨R.PROT_G_STAT_FAR_REQ, .ro, 0, 15, true, false⟩,
     ⟨R.PROT_G_STAT_REQUEST, .ro, 0, 15, true, false⟩,
     ⟨R.PROT_G_STAT_CMD_HELD, .ro, 0, 7, true, false⟩,
     ⟨R.PROT_G_STAT_CMD_ERR, .w1c, 0, 1, true, false⟩,
     ⟨R.PROT_G_STAT_CFG_ERR, .w1c, 0, 1, true, false⟩,
     ⟨R.PROT_G_STAT_APS_MM, .ro, 0, 1, true, false⟩,
     ⟨R.PROT_G_STAT_WTR_RUN, .ro, 0, 1, true, false⟩,
     ⟨R.PROT_G_STAT_SELECTED, .ro, 0, 1, true, false⟩]⟩]

/-- Registers of page EQ. -/
def regsEq : List RSpec :=
  [⟨0x104, 0, 1, false, [⟨R.EQ_STAT_CAP, .ro, 0, 0x1ffff, true, false⟩]⟩,
   ⟨0x110, 0, 1, false, [⟨R.EQ_Q_IDX_GROUP, .rw, 0, 0xffff, false, false⟩]⟩,
   ⟨0x114, 0, 1, false, [⟨R.EQ_Q_CMD_ERR, .w1c, 0, 1, false, false⟩,
     ⟨R.EQ_Q_CMD_BUSY, .ro, 0, 1, false, false⟩,
     ⟨R.EQ_Q_CMD_CLR, .wo, 0, 1, false, false⟩,
     ⟨R.EQ_Q_CMD_WRITE, .wo, 0, 1, false, false⟩,
     ⟨R.EQ_Q_CMD_READ, .wo, 0, 1, false, false⟩]⟩,
   ⟨0x118, 0, 1, false, [⟨R.EQ_Q_CFG_EN, .rws, 0, 1, true, false⟩,
     ⟨R.EQ_Q_CFG_WIN_M1, .rws, 0, 255, true, false⟩,
     ⟨R.EQ_Q_CFG_OUT, .rws, 0, 0xfffff, true, false⟩]⟩,
   ⟨0x11c, 0, 1, false, [⟨R.EQ_Q_STAT_DELAY, .ro, 0, 511, false, false⟩,
     ⟨R.EQ_Q_STAT_HELD, .ro, 0, 511, false, false⟩,
     ⟨R.EQ_Q_STAT_TAG_P, .ro, 0, 1, false, false⟩,
     ⟨R.EQ_Q_STAT_TAG_W, .ro, 0, 1, false, false⟩,
     ⟨R.EQ_Q_STAT_LATER, .ro, 0, 1, false, false⟩,
     ⟨R.EQ_Q_STAT_OTHER, .ro, 0, 1, false, false⟩,
     ⟨R.EQ_Q_STAT_CAUSE, .ro, 0, 7, false, false⟩,
     ⟨R.EQ_Q_STAT_STATE, .ro, 0, 3, false, false⟩]⟩,
   ⟨0x120, 0, 1, false, [⟨R.EQ_Q_CNT_SUBST, .ro, 0, 0xffff, false, false⟩,
     ⟨R.EQ_Q_CNT_MEM_DET, .ro, 0, 255, false, false⟩,
     ⟨R.EQ_Q_CNT_REANCHOR, .ro, 0, 255, false, false⟩]⟩]

/-- Registers of page PW. -/
def regsPw : List RSpec :=
  [⟨0x100, 0, 1, false, [⟨R.PW_CTL_RTP_PT, .rws, 0, 127, true, false⟩,
     ⟨R.PW_CTL_LOPS_CLR, .rws, 1, 15, true, false⟩]⟩,
   ⟨0x104, 0, 1, false, [⟨R.PW_LOPS_CFG_LOPS_SET, .rws, 1, 255, true, false⟩]⟩,
   ⟨0x110, 0, 1, false, [⟨R.PW_C_IDX_CTX, .rw, 0, 0x3fff, false, false⟩]⟩,
   ⟨0x114, 0, 1, false, [⟨R.PW_C_CMD_ERR_CODE, .ro, 0, 15, false, false⟩,
     ⟨R.PW_C_CMD_ERR, .w1c, 0, 1, false, false⟩,
     ⟨R.PW_C_CMD_BUSY, .ro, 0, 1, false, false⟩,
     ⟨R.PW_C_CMD_CLR, .wo, 0, 1, false, false⟩,
     ⟨R.PW_C_CMD_WRITE, .wo, 0, 1, false, false⟩,
     ⟨R.PW_C_CMD_READ, .wo, 0, 1, false, false⟩]⟩,
   ⟨0x118, 0, 1, false, [⟨R.PW_C_CFG0_EN, .rws, 0, 1, true, false⟩,
     ⟨R.PW_C_CFG0_MODE, .rws, 0, 1, true, false⟩,
     ⟨R.PW_C_CFG0_ETH_PORT, .rws, 0, 7, true, false⟩,
     ⟨R.PW_C_CFG0_ENC, .rws, 0, 3, true, false⟩,
     ⟨R.PW_C_CFG0_RTP_EN, .rws, 0, 1, true, false⟩,
     ⟨R.PW_C_CFG0_CR, .rws, 0, 2, true, false⟩,
     ⟨R.PW_C_CFG0_LOSS_MODE, .rws, 0, 1, true, false⟩,
     ⟨R.PW_C_CFG0_JB_FRAMES, .rws, 0, 0x7ff, true, false⟩,
     ⟨R.PW_C_CFG0_PKT_M1, .rws, 0, 63, true, false⟩]⟩,
   ⟨0x11c, 0, 1, false, [⟨R.PW_C_CFG1_SLOT_MASK, .rws, 0, 0xffffffff, true, false⟩]⟩,
   ⟨0x120, 0, 1, false, [⟨R.PW_C_CFG2_TEMPLATE, .rws, 0, 1023, true, false⟩,
     ⟨R.PW_C_CFG2_TX_KEY, .rws, 0, 0xfffff, true, false⟩]⟩,
   ⟨0x124, 0, 1, false, [⟨R.PW_C_CFG3_PHASE, .rws, 0, 124, true, false⟩,
     ⟨R.PW_C_CFG3_RX_KEY, .rws, 0, 0xfffff, true, false⟩]⟩,
   ⟨0x128, 0, 1, false, [⟨R.PW_C_CFG4_IDLE, .rws, 0, 255, true, false⟩]⟩,
   ⟨0x130, 0, 1, false, [⟨R.PW_C_STAT_CR_OFFSET, .ro, 0, 0xfffff, false, false⟩,
     ⟨R.PW_C_STAT_FILL, .ro, 0, 0x7ff, false, false⟩]⟩,
   ⟨0x134, 0, 1, false, [⟨R.PW_C_STAT2_R_RX, .ro, 0, 1, false, false⟩,
     ⟨R.PW_C_STAT2_L_RX, .ro, 0, 1, false, false⟩,
     ⟨R.PW_C_STAT2_CLASS, .ro, 0, 3, false, false⟩,
     ⟨R.PW_C_STAT2_FAILED, .ro, 0, 1, false, false⟩,
     ⟨R.PW_C_STAT2_STATE, .ro, 0, 3, false, false⟩]⟩,
   ⟨0x138, 0, 1, false, [⟨R.PW_C_CNT_RX_PKTS, .ro, 0, 0xffffffff, false, false⟩]⟩,
   ⟨0x13c, 0, 1, false, [⟨R.PW_C_CNT2_CONCEAL, .ro, 0, 0xffff, false, false⟩,
     ⟨R.PW_C_CNT2_LATE, .ro, 0, 255, false, false⟩,
     ⟨R.PW_C_CNT2_RESTART, .ro, 0, 255, false, false⟩]⟩,
   ⟨0x140, 0, 1, false, [⟨R.PW_T_IDX_TEMPLATE, .rw, 0, 1023, false, false⟩]⟩,
   ⟨0x144, 0, 1, false, [⟨R.PW_T_CMD_ERR, .w1c, 0, 1, false, false⟩,
     ⟨R.PW_T_CMD_BUSY, .ro, 0, 1, false, false⟩,
     ⟨R.PW_T_CMD_INVAL, .wo, 0, 1, false, false⟩,
     ⟨R.PW_T_CMD_WRITE, .wo, 0, 1, false, false⟩,
     ⟨R.PW_T_CMD_READ, .wo, 0, 1, false, false⟩]⟩,
   ⟨0x148, 0, 1, false, [⟨R.PW_T_CTL_VALID, .ro, 0, 1, false, false⟩,
     ⟨R.PW_T_CTL_LABELS, .rw, 0, 3, false, false⟩,
     ⟨R.PW_T_CTL_VLANS, .rw, 0, 2, false, false⟩,
     ⟨R.PW_T_CTL_ENC, .rw, 0, 3, false, false⟩]⟩,
   ⟨0x200, 4, 24, false, [⟨R.PW_T_DATA_BYTES, .rw, 0, 0xffffffff, false, false⟩]⟩]

/-- Registers of page ETH. -/
def regsEth : List RSpec :=
  [⟨0x100, 0, 1, false, [⟨R.ETH_CTL_MAX_LEN, .rws, 64, 0x898, true, false⟩,
     ⟨R.ETH_CTL_MCAST, .rws, 0, 1, true, false⟩,
     ⟨R.ETH_CTL_PAUSE_RX, .rws, 0, 1, true, false⟩,
     ⟨R.ETH_CTL_FEC, .rws, 0, 1, true, false⟩,
     ⟨R.ETH_CTL_SPEED, .rws, 0, 1, true, false⟩]⟩,
   ⟨0x104, 0, 1, false, [⟨R.ETH_EN_HRX_EN, .rws, 0, 1, true, false⟩,
     ⟨R.ETH_EN_HTX_EN, .rws, 0, 1, true, false⟩,
     ⟨R.ETH_EN_PORT_EN, .rws, 0, 1, true, false⟩]⟩,
   ⟨0x108, 0, 1, false, [⟨R.ETH_STAT_PAUSED, .ro, 0, 1, true, false⟩,
     ⟨R.ETH_STAT_HI_BER, .ro, 0, 1, true, false⟩,
     ⟨R.ETH_STAT_FEC_LOCK, .ro, 0, 1, true, false⟩,
     ⟨R.ETH_STAT_BLOCK_LOCK, .ro, 0, 1, true, false⟩,
     ⟨R.ETH_STAT_LINK, .ro, 0, 1, true, false⟩]⟩,
   ⟨0x110, 0, 1, false, [⟨R.ETH_MAC_LO_MAC, .rws, 0, 0xffffffff, true, false⟩]⟩,
   ⟨0x114, 0, 1, false, [⟨R.ETH_MAC_HI_MAC, .rws, 0, 0xffff, true, false⟩]⟩,
   ⟨0x118, 0, 1, false, [⟨R.ETH_IP4_ADDR, .rws, 0, 0xffffffff, true, false⟩]⟩,
   ⟨0x120, 4, 4, false, [⟨R.ETH_IP6_ADDR, .rws, 0, 0xffffffff, true, false⟩]⟩,
   ⟨0x140, 0, 1, false, [⟨R.ETH_HTX_BASE_BASE, .rws, 0, 0xffffffff, true, false⟩]⟩,
   ⟨0x144, 0, 1, false, [⟨R.ETH_HTX_SIZE_SIZE, .rws, 4, 12, true, false⟩]⟩,
   ⟨0x148, 0, 1, false, [⟨R.ETH_HTX_PTR_RD, .ro, 0, 0x1fff, true, false⟩,
     ⟨R.ETH_HTX_PTR_WR, .rw, 0, 0x1fff, true, false⟩]⟩,
   ⟨0x150, 0, 1, false, [⟨R.ETH_HRX_BASE_BASE, .rws, 0, 0xffffffff, true, false⟩]⟩,
   ⟨0x154, 0, 1, false, [⟨R.ETH_HRX_SIZE_SIZE, .rws, 4, 12, true, false⟩]⟩,
   ⟨0x158, 0, 1, false, [⟨R.ETH_HRX_PTR_WR, .ro, 0, 0x1fff, true, false⟩,
     ⟨R.ETH_HRX_PTR_RD, .rw, 0, 0x1fff, true, false⟩]⟩]

/-- The block registers of page `p`. -/
def pageRegs (p : Page) : List RSpec :=
  match p with
  | .global => regsGlobal
  | .power => regsPower
  | .event => regsEvent
  | .perf => regsPerf
  | .timing => regsTiming
  | .ntime => regsNtimeA ++ regsNtimeB
  | .mate => regsMate
  | .matrix => regsMatrix
  | .seq => regsSeq
  | .secure => regsSecure
  | .dramc => regsDramc
  | .bench => regsBench
  | .lanep => regsLanep
  | .lanef => regsLanefA ++ regsLanefB
  | .dfab => regsDfab
  | .mapc => regsMapcA ++ regsMapcB
  | .sfab => regsSfab
  | .conf => regsConf
  | .prot => regsProt
  | .eq => regsEq
  | .pw => regsPw
  | .eth => regsEth

/-- Whether register `r` covers byte offset `o` of its page, and with which index. -/
def regIndexAt (r : RSpec) (o : Nat) : Option Nat :=
  if o < r.off then none
  else if r.stride = 0 then (if o < r.off + (if r.w64 then 8 else 4) then some 0 else none)
  else
    let j := (o - r.off) / r.stride
    if j < r.count ∧ (o - r.off) % r.stride < (if r.w64 then 8 else 4) then some j else none

/-- The register at offset `o` of a page's table, with its array index. -/
def findReg (rs : List RSpec) (o : Nat) : Option (RSpec × Nat) :=
  match rs with
  | [] => none
  | r :: rs =>
    match regIndexAt r o with
    | some j => some (r, j)
    | none => findReg rs o

/-- The register at offset `o` of page `p`: of the header below 0x100, of the block above it (R407). -/
def regAt (p : Page) (o : Nat) : Option (RSpec × Nat) :=
  if o < 0x100 then findReg (regsHdr p) o else findReg (pageRegs p) o

/-- Bus address of the register that holds field `f`: page instance `i`, array index `j`. -/
def Fld.addr (f : Fld) (i j : Nat) : Nat := pageBase f.page i + f.off + f.stride * j

/-- Key of field `f` in the register store. -/
def Fld.key (f : Fld) (i j : Nat) : Nat := f.addr i j * 64 + f.lsb

/-- The table entry of the field whose key is `k`. -/
def keySpec (k : Nat) : Option FSpec :=
  match pageAt (k / 64) with
  | none => none
  | some (p, _, o) =>
    match regAt p o with
    | none => none
    | some (r, _) => r.fields.find? (fun x => x.fld.lsb == k % 64)

/-- Whether a soft reset keeps the field whose key is `k` (R17). -/
def keptSoft (k : Nat) : Bool :=
  match keySpec k with
  | some x => x.keepS
  | none => false

/-- Whether RESET_N keeps the field whose key is `k` (R17, R394). -/
def keptResetN (k : Nat) : Bool :=
  match keySpec k with
  | some x => x.keepN
  | none => false

end Sys2Proof.Machine
end

