-- ==== Sys2Proof/Machine/SMap.lean ====
section
/-! DEFINITION. Sparse maps: lists of (key, value) pairs with strictly rising keys, in one canonical form. Every sparse store
of the block (registers, connection words, scratchpad, DRAM, per-drawer records) is one of these. -/
namespace Sys2Proof.Machine

/-- A sparse map from `Nat` keys. Canonical: keys strictly rising. -/
abbrev SMap (α : Type) := List (Nat × α)

/-- The value listed at `k`. -/
def mget? {α : Type} (m : SMap α) (k : Nat) : Option α :=
  match m with
  | [] => none
  | (k', v) :: r => if k' = k then some v else mget? r k

/-- `m` with `v` listed at `k`. -/
def mput {α : Type} (m : SMap α) (k : Nat) (v : α) : SMap α :=
  match m with
  | [] => [(k, v)]
  | (k', v') :: r =>
    if k < k' then (k, v) :: (k', v') :: r
    else if k = k' then (k, v) :: r
    else (k', v') :: mput r k v

/-- `m` with nothing listed at `k`. -/
def mdel {α : Type} (m : SMap α) (k : Nat) : SMap α :=
  match m with
  | [] => []
  | (k', v') :: r => if k' = k then mdel r k else (k', v') :: mdel r k

/-- The value at `k` of a map whose unlisted keys hold `d`. -/
def mapGet {α : Type} (d : α) (m : SMap α) (k : Nat) : α :=
  match mget? m k with
  | some v => v
  | none => d

/-- `m` with the value at `k` set to `v`, in a map whose unlisted keys hold `d`: setting `d` removes the entry. -/
def mapSet {α : Type} [DecidableEq α] (d : α) (m : SMap α) (k : Nat) (v : α) : SMap α :=
  if v = d then mdel m k else mput m k v

/-- `m` with the value at `k` changed by `f`. -/
def mapUpd {α : Type} [DecidableEq α] (d : α) (m : SMap α) (k : Nat) (f : α → α) : SMap α :=
  mapSet d m k (f (mapGet d m k))

/-- Whether the keys of `m` are strictly rising and all above `lo` (exclusive, when given). -/
def keysRise {α : Type} (lo : Option Nat) (m : SMap α) : Bool :=
  match m with
  | [] => true
  | (k, _) :: r =>
    (match lo with
     | none => true
     | some l => decide (l < k)) && keysRise (some k) r

/-- The canonical form of a map whose unlisted keys hold `d`: keys strictly rising, no entry equal to `d`. -/
def mapWf {α : Type} [DecidableEq α] (d : α) (m : SMap α) : Bool :=
  keysRise none m && m.all (fun e => decide (e.2 ≠ d))

/-- The values of `m` mapped by `f` with their keys, entries that become `d` dropped. -/
def mapMapVals {α : Type} [DecidableEq α] (d : α) (f : Nat → α → α) (m : SMap α) : SMap α :=
  match m with
  | [] => []
  | (k, v) :: r => if f k v = d then mapMapVals d f r else (k, f k v) :: mapMapVals d f r

/-- `m` restricted to the keys that satisfy `p`. -/
def mapKeep {α : Type} (p : Nat → Bool) (m : SMap α) : SMap α := m.filter (fun e => p e.1)

end Sys2Proof.Machine
end

