-- ==== Sys2Proof/Machine/State.lean ====
section
/-! DEFINITION. The state of the block, as plain data: the registers in one store, and beside it every queue, store, engine
state, mode and pin the spec gives the block. -/
namespace Sys2Proof.Machine

/-- The reasons a step can stop with a fault. -/
inductive Fault where
  /-- A command whose operands are of no form the spec gives (a byte list of the wrong length). Raised by a meaning that
  takes such a list. Safe: the hardware meets no such command. -/
  | illFormed
  deriving DecidableEq, Repr

/-- The reasons a step can be refused. -/
inductive Refusal where
  /-- A command the model gives no meaning to yet. Raised by an arm of `exec`. Safe. -/
  | notModelled (mnemonic : String)
  deriving DecidableEq, Repr

/-- Which reset, if any, is in progress (R394 to R397). -/
inductive ResetPhase where
  /-- No reset: the unit runs. -/
  | running
  /-- Every domain is without power (R380); the next start is a power-on. -/
  | unpowered
  /-- RESET_N is asserted (R395). -/
  | resetN
  /-- A soft reset is running (R397). -/
  | soft
  deriving DecidableEq, Repr

/-- What the pins of a lane transmitter do (R65, R404). -/
inductive Drive where
  /-- No differential output. -/
  | undriven
  /-- Common mode, zero differential. -/
  | common
  /-- Filler alone. -/
  | filler
  /-- Frames. -/
  | frames
  deriving DecidableEq, Repr

/-- What leaves the block during one command (log entry 7). -/
inductive Out where
  /-- What a register read returned. -/
  | read (addr : Nat) (v : Nat)
  /-- A register read or write answered with an error response (R333), with its ERR_INFO cause. -/
  | busError (addr : Nat) (cause : Nat)
  /-- An MSI-X message: vector, address and data of its table entry (R324, R339). -/
  | msix (v addr data : Nat)
  /-- A frame sent on the Icusk chain out of one side (R311). -/
  | chain (side : ChainSide) (f : BitVec 96)
  /-- A PCI Express completion: tag, status (0 success, 1 unsupported request, 4 completer abort) and data (R325). -/
  | completion (tag status : Nat) (data : List Byte)
  /-- The 64 FAS bits, the stuffed and scrambled region and the filler length of a transmitted lane frame (R45 to R50, R68); with
  `inv` the pins carry every bit of it inverted (TX_INV, R55). -/
  | lane (l : LaneId) (fas : Nat) (region : List Bool) (fill : Nat) (inv : Bool)
  /-- A lane transmitter that sends no frame, and what its pins do (R65, R404). -/
  | laneIdle (l : LaneId) (d : Drive)
  /-- A frame sent from an Ethernet port (R228). -/
  | eth (p : Nat) (bytes : List Byte)
  /-- Bytes written to memory through the matrix by the block itself. -/
  | memWrite (addr : Nat) (bytes : List Byte)
  deriving DecidableEq, Repr

/-- Power, modes and resets (R373 to R405). -/
structure Power where
  /-- The reset in progress. -/
  phase : ResetPhase := .running
  /-- Domains powered: bit d of DOM_ON (R382). -/
  on : BitVec 56 := 0b111
  /-- Domains usable (R384): powered and started up; their PAGE_READY reads 1 (R408). -/
  up : BitVec 56 := 0b111
  /-- Domains shed since t_f that have not come back (R378). -/
  shed : BitVec 56 := 0
  /-- Domains whose DOM_EN bit was cleared and that switch off at the next hinge (R385). -/
  offDue : BitVec 56 := 0
  /-- Shed stages that have acted since t_f (R378). -/
  stages : List Nat := []
  /-- PGOOD is asserted (R374). -/
  pgood : Bool := true
  /-- VIN_FAIL is declared and VIN_OK has not returned: the module runs from VHOLD (R377). -/
  vinFailed : Bool := false
  /-- GASP_OUT is asserted (R377, R302). -/
  gaspOut : Bool := false
  /-- Levels of the wires CLAIM of the mate and GASP_IN, asserted or not, which stand whatever this unit does (R302, R304). -/
  claimWire : Bool := false
  gaspWire : Bool := false
  /-- HOLDUP_OK (R376). -/
  holdupOk : Bool := false
  /-- The AON domain runs from the crystal (R386). -/
  xtalOk : Bool := false
  /-- Mode requested and pending (R390). -/
  modeReq : Option Nat := none
  /-- A wake that waits for the management and timing domains: the mode to enter and its WAKE_CAUSE (R387, R390). -/
  waking : Option (Nat × Nat) := none
  /-- Recoveries that fell while a soft reset was running, oldest first: cause and WHERE (R405). -/
  heldRec : List (Nat × Nat) := []
  /-- READY as it last stood, whose changes raise READY_CHG (R392). -/
  lastReady : Nat := 2
  deriving DecidableEq, Repr

/-- A matrix transaction that waits or is in flight (R326 to R335). -/
structure BusReq where
  /-- Master, address as issued, and its target with the address there: resolved when it was issued (R327). -/
  m      : Nat := 0
  addr   : Nat
  target : Nat
  loc    : Nat
  write  : Bool
  data   : List Byte := []
  len    : Nat := 0
  /-- It comes through BAR2 (R323). -/
  user   : Bool := false
  /-- Tag of the non-posted request that it serves, if any (R325). -/
  tag    : Option Nat := none
  /-- A later transaction serves the rest of the same request; data that earlier ones have read for it (R361). -/
  more   : Bool := false
  pre    : List Byte := []
  /-- Zeros that follow the data in the completion: what lies past the last slot of the user view (R323). -/
  pad    : Nat := 0
  /-- Ends of a locked sequence (R331). -/
  first  : Bool := false
  last   : Bool := false
  /-- Control cycle in which it was issued. -/
  issued : Nat := 0
  deriving DecidableEq, Repr

/-- A granted transaction that waits for its target's response: the request, the read data, and the error cause if any. -/
structure Inflight where
  req   : BusReq
  data  : List Byte
  cause : Nat
  deriving DecidableEq, Repr

/-- The bus matrix (R326 to R336). -/
structure Matrix where
  /-- Requests that wait, oldest first. -/
  waiting : List BusReq := []
  /-- Transactions granted and not answered, by target. -/
  inflight : SMap Inflight := []
  /-- Master granted last, by target; 6 stands for none (R328). -/
  last : SMap Nat := []
  /-- Locks: target ↦ master (R331). -/
  locks : SMap Nat := []
  /-- Locked sequences that were broken, by 8 × master + target: their next transaction gets an error response (R331). -/
  broken : List Nat := []
  /-- Control cycle from which the drain's next record waits, and that of the last kick of the watchdog (R328, R336). -/
  drainAt : Nat := 0
  kickAt : Nat := 0
  deriving DecidableEq, Repr

/-- The PCI Express endpoint (R321 to R325). -/
structure Pcie where
  /-- PERST_N is released. -/
  released : Bool := false
  /-- The link is up. -/
  link : Bool := false
  /-- Bus Master Enable. -/
  bme : Bool := false
  /-- MSI-X table: vector ↦ (address, data, masked). -/
  table : SMap (Nat × Nat × Bool) := []
  /-- Pending-bit array. -/
  pba : Nat := 0
  /-- Tags of the non-posted requests not yet completed (R325). -/
  owed : List Nat := []
  deriving DecidableEq, Repr

/-- The Icusk chain port (R309 to R320). -/
structure Chain where
  /-- Command queue: side the command came from, and the frame (R315); the control cycle from which its head waits for the matrix. -/
  queue : List (ChainSide × BitVec 96) := []
  headAt : Nat := 0
  /-- The forwarding buffer: side the frame goes out of, and the frame (R314). -/
  fwd : List (ChainSide × BitVec 96) := []
  /-- Responses and notifications that wait to be sent (R314). -/
  own : List (ChainSide × BitVec 96) := []
  /-- Control cycle from which the outputs are free; the last frame sent was a forwarded one. -/
  txFree : Nat := 0
  lastFwd : Bool := false
  /-- Arm mode: the host side (R320). -/
  hostSide : Option ChainSide := none
  /-- IC_TOK_I is asserted (R317). -/
  tokIn : Bool := false
  /-- Receivers that lost their clock, with the control cycle of the loss (R310). -/
  resync : List (ChainSide × Nat) := []
  /-- Control cycle of the last NOTIFY sent (R339). -/
  notifyAt : Option Nat := none
  /-- A NOTIFY waits for NOTIFY_GAP. -/
  notifyDue : Bool := false
  deriving DecidableEq, Repr

/-- Events, counters, snapshot and trace (R337 to R355). -/
structure Events where
  /-- The event queue, head first (R343). -/
  queue : List W64 := []
  /-- Change bits of the lane drawers: shelf number 16p + s ↦ its 512 bits (R341). -/
  chgDrw : SMap Nat := []
  /-- Change bits of the selector outputs, likewise. -/
  chgSel : SMap Nat := []
  /-- Counters that have wrapped and whose CNT_WRAP is still to follow: page slot × 8 + counter (R349). -/
  wraps : List Nat := []
  /-- Control cycles counted since power-up of the management domain, freezes left out (R347, R350). -/
  ran : Nat := 0
  /-- Value of `ran` at which each page's CYCLES started, by page slot (R347). -/
  base : SMap Nat := []
  /-- Level counters whose condition held in the last cycle (EDGE, R348): page slot × 8 + counter ↦ 1. -/
  above : SMap Nat := []
  /-- A freeze between a FREEZE and a RELEASE action (R350). -/
  actFreeze : Bool := false
  /-- The SNAP pin as last sampled for 4 control cycles (R351). -/
  snapPin : Bool := false
  /-- Shadows: page slot × 16 + (0 to 7 for CNT, 8 for CYCLES) (R351). -/
  shadow : SMap Nat := []
  /-- The control cycle of the last snapshot (R351). -/
  snapAt : Option Nat := none
  /-- EVENT_N as it stood when the soft reset that runs began (R400). -/
  pinHeld : Bool := false
  /-- The trace FIFO, head first (R355). -/
  trace : List (BitVec 128) := []
  /-- The tagging LFSR (R353). -/
  lfsr : W32 := 0
  /-- Number of the item tagged last (R354). -/
  tagId : BitVec 16 := 0
  deriving DecidableEq, Repr

/-- A run of equal values received: the value and how many times in a row (R71, R74, R99, R109). -/
structure Run where
  v : Nat := 0
  n : Nat := 0
  deriving DecidableEq, Repr

/-- What one lane's PMA and framer hold beside their registers (R40 to R92). -/
structure Lane where
  /-- The four equalisation records held, 16 bytes each; none while LOADED is clear (R56). -/
  recs : List (List Byte) := []
  /-- The record taken at the hinge at which EN = 1 took effect (R57). -/
  inUse : List Byte := []
  /-- The receive settings applied, CTLE_PEAK and DFE1 to DFE5: the record's, or those of the near-end serial loop (R62). -/
  rxUse : List Byte := []
  /-- EN has been written 0 since the last hinge, at which the lane is to stop (R43). -/
  stopDue : Bool := false
  /-- Open candidates in SEARCH: bit position and confirmation count (R82). -/
  cands : List (Nat × Nat) := []
  /-- Consecutive errored FAS in SYNC (R85). -/
  errFas : Nat := 0
  /-- Runs towards acceptance of LO9, LO10-11, LO12-15 and LO38-39 (R71). -/
  runUnit : Run := {}
  runAps : Run := {}
  runFb : Run := {}
  runLabel : Run := {}
  /-- What has been accepted since its register last stood at its reset value: bit 0 LO9, 1 LO10-11, 2 LO12-15, 3 LO38-39 (R71). -/
  accSeen : Nat := 0
  /-- The accepted LABEL and RATE stand as LABEL_MM reports them (R81). -/
  labelMm : Bool := false
  /-- Runs of LABEL = 0xFF and of LO8 bit 2 (R91). -/
  runAis : Run := {}
  runRdi : Run := {}
  /-- The trace message being assembled (R74). -/
  asm : Option (List Byte) := none
  /-- The last assembled message and how often in a row it came. -/
  lastMsg : List Byte := []
  msgN : Nat := 0
  /-- BIP-16 computed over the last received frame (R72). -/
  bipPrev : Option Nat := none
  /-- The cell of the last received frame, which waits for its BIP-16 (R80). -/
  cell : Option (List Byte) := none
  /-- Lengths of the last received and transmitted frames, newest first, at most 64 (R87). -/
  lrx : List Nat := []
  ltx : List Nat := []
  /-- FILL_RX is that of the frame just before, which PREV_FILL names (R88). -/
  fillSeen : Bool := false
  /-- SYNC was entered within the present 100 ms block, which is then no whole block of the window (R90). -/
  blkPart : Bool := false
  /-- Filler bits and differences of the 100 ms blocks since SYNC, newest first, at most 10,000 (R90). -/
  blocks : List (Nat × Nat) := []
  /-- Filler bits and differences in the present block, and its stuffing violations (R90, R91). -/
  fillNow : Nat := 0
  diffNow : Nat := 0
  violNow : Nat := 0
  /-- Defects to be declared and cleared at the next hinge, one bit each (R89). -/
  pendSet : Nat := 0
  pendClr : Nat := 0
  /-- The frame in which the integrator of each defect bit last started from zero (R89, R92). -/
  since : SMap Nat := []
  /-- Lane failure action (b) as it applied from the last hinge on (R91, R116). -/
  wasB : Bool := false
  /-- Violations found by the last BIP-16 check, which the next REI is to carry (R73). -/
  reiNow : Nat := 0
  /-- RDI and REI as latched at the last hinge for the next frame sent (R73). -/
  rdiTx : Bool := false
  reiTx : Nat := 0
  /-- The overhead of the frame being sent; none while no frame is being sent. -/
  ohead : Option (List Byte) := none
  /-- BIP-16 of the last frame sent (R72). -/
  bipTx : Nat := 0
  /-- LO12 and LO13 as last sent (R77, R78). -/
  lo12 : Nat := 0
  fbSeq : Nat := 0
  /-- LO10-11 for the next frame, set by the lane's group at the hinge (R76, R198). -/
  apsTx : Nat := 0
  /-- An APS value has been accepted since the framer entered SYNC (R202). -/
  apsAt : Option Nat := none
  /-- The last accepted APS value that had nothing reserved in it: what the protection bank goes by (R76). -/
  apsGood : Nat := 0
  /-- The transmit side sends filler until the next hinge (R404). -/
  txHeld : Bool := false
  /-- The last frame sent: scrambled and stuffed region, and filler length; what a near-end loop returns (R61). -/
  lastTx : Option (List Bool × Nat) := none
  /-- Loop store of the far-end loop: the last received payload array, and whether it is still to be sent (R64). -/
  loopStore : List Byte := []
  loopNew : Bool := false
  deriving DecidableEq, Repr

/-- The states of a pointer interpreter (R99, R100), in the order of PSTATE. -/
inductive PState where
  | norm | ais | lop
  deriving DecidableEq, Repr

/-- A pointer interpreter (R99 to R101): state, current value, consecutive invalid frames, the run of equal new values, the
run of ais_ind, and the frames since a justification was accepted. -/
structure Interp where
  st : PState := .ais
  cur : Nat := 0
  inv : Nat := 0
  same : Run := {}
  ais : Nat := 0
  gap : Nat := 3
  deriving DecidableEq, Repr

/-- Tag alignment of a received drawer (R111): the last 64 TAG bits and how many have come, alignment, the container index in
the multiframe, the tag expected, consecutive failed multiframes, and the last accepted tag. -/
structure TagRx where
  sh : Nat := 0
  n : Nat := 0
  sync : Bool := false
  phase : Nat := 0
  exp : Nat := 0
  fails : Nat := 0
  tag : Nat := 0
  deriving DecidableEq, Repr

/-- Container monitor of a received drawer (R107 to R111): the parity of the container being received, whether it is whole so
far, the runs and accepted values of label and RDI, and the tag alignment. -/
structure Mon where
  par : Byte := 0
  whole : Bool := false
  lblRun : Run := {}
  label : Option Nat := none
  rdiRun : Run := {}
  rdi : Bool := false
  /-- The last container check failed (REI of a paired drawer, R107). -/
  lastErr : Bool := false
  tagrx : TagRx := {}
  deriving DecidableEq, Repr

/-- What reaches a column store in a core row (R102, R105): a container byte with its index (0 is the H byte), a restart at an
accepted new pointer, or the interpreter's entry into AIS or LOP. `row` counts core rows from reset. -/
inductive Arrival where
  | byte (row : Nat) (b : Byte) (idx : Nat)
  | restart (row : Nat)
  | down (row : Nat)
  deriving DecidableEq, Repr

/-- The pointer generator of a drawer (R103 to R105): no source; waiting for the first H byte; the next frame carries NDF;
running. -/
inductive Gen where
  | off | wait | ndf | run
  deriving DecidableEq, Repr

/-- One received drawer of a lane (R93 to R116). -/
structure Drawer where
  /-- Settings written through DRW_CFG (reset 0x601), and a write that waits for the next hinge (R115). -/
  cfg : Nat := 0x601
  cfgDue : Option Nat := none
  ip : Interp := {}
  mon : Mon := {}
  /-- The column store, oldest first: byte and index in the container (R102). -/
  store : List (Byte × Nat) := []
  /-- What has arrived and whose core row has not come. -/
  arr : List Arrival := []
  gen : Gen := .off
  /-- Index of the byte that leaves the store next. -/
  nextIdx : Nat := 0
  /-- Frames since the last core justification (R98). -/
  gap : Nat := 3
  /-- The byte that left the store last. -/
  sent : Byte := 0
  /-- Raw and declared defects, and those to be declared and cleared at the next hinge, one bit each (R115). -/
  raw : Nat := 0
  declared : Nat := 0
  pendSet : Nat := 0
  pendClr : Nat := 0
  /-- The frame in which the integrator of each defect bit last started from zero (R115, R116). -/
  since : SMap Nat := []
  /-- Counters captured by READ: errored containers, received and core justifications. -/
  bipErr : Nat := 0
  justRx : Nat := 0
  justCore : Nat := 0
  /-- Errored and inconsistent containers in the present 100 ms block, and errored containers of the blocks before it. -/
  errNow : Nat := 0
  jceNow : Nat := 0
  blocks : List Nat := []
  deriving DecidableEq, Repr

/-- The Dexgor lanes' PMA (R289, R42): PLL lock, REF_RANGE and reference offset in 0.01 ppm. -/
structure Dexgor where
  pll : Bool := false
  refRange : Bool := false
  refOff : Int := 0
  deriving DecidableEq, Repr

/-- A command in progress at an indirect port (R404): the bits written to its command register (READ, WRITE, CLR, and the
command field), the index latched with them, and the settings latched by WRITE. -/
structure PortCmd where
  op  : Nat
  idx : Nat
  cfg : List Nat
  deriving DecidableEq, Repr

/-- One column of a port in one core frame: its 36 bytes, the position of the H byte, and whether the frame is a
justification frame or drawer AIS (R93, R95, R106). -/
structure Col where
  b : List Byte
  h : Nat
  just : Bool
  ais : Bool
  deriving DecidableEq, Repr

/-- One bank of both fabrics (R162). Words are named by fabric × 2^22 + W, with W the word index of R133 and R153. -/
structure Bank where
  /-- Bits [25:0] of each connection word, exclusive-or what R134 and R161 write at start-up. -/
  words : SMap Nat := []
  /-- Words whose stored code fails (R139, R159), each listed with 1. -/
  bad : SMap Nat := []
  /-- Bursts of this bank's image that are written, by their place in the image, each listed with 1; the others are dirty (R211). -/
  clean : SMap Nat := []
  deriving DecidableEq, Repr

/-- A request that waits at the compiler (R129): its word, whether its tag has checked or none is needed (R370), and whether it
came from a list. -/
structure Req where
  word  : W64
  auth  : Bool
  list  : Bool
  deriving DecidableEq, Repr

/-- What a commit asks for: the next hinge, or the hinge labelled `epoch` (R168, R170). -/
inductive CommitKind where
  | now
  | arm (epoch : Nat) (dropLate : Bool)
  deriving DecidableEq, Repr

/-- The pending commit (R164 to R172). -/
structure Commit where
  kind : CommitKind
  /-- It waits for the RELEASE of its record (R296). -/
  held : Bool := false
  /-- Taken by the compiler. -/
  taken : Bool := false
  /-- Requests of the queue that come before it. -/
  ahead : Nat := 0
  /-- A list that was running when it was written comes before it. -/
  list : Bool := false
  /-- The frame it takes effect at, when that is settled: NOW, and a late one applied. -/
  due : Option Nat := none
  late : Bool := false
  deriving DecidableEq, Repr

/-- A write of COMMIT_CTL that asks for something (R164 to R172, R371): NOW, ARM, DROP_LATE and CANCEL in bits 0 to 3, COMMIT_EPOCH and
the tag as they stood. -/
structure Ask where
  ctl : Nat
  epoch : Nat
  tag : List Byte
  deriving DecidableEq, Repr

/-- The map compiler (R125 to R138, R162 to R183). -/
structure Compiler where
  act  : Bank := {}
  edit : Bank := {}
  /-- Both banks are initialised (R134, R161). -/
  inited : Bool := false
  /-- The register queue and the list request in progress, first to last. -/
  queue : List Req := []
  /-- The list's own buffer while commands are authenticated (R372). -/
  buf : List W64 := []
  /-- The tag copied with the list (R372). -/
  tag : List Byte := []
  /-- The copied list's tag is being checked. -/
  checking : Bool := false
  /-- The list's tag has checked (R372), or none is needed. -/
  listAuth : Bool := true
  /-- Requests of the running list fetched so far. -/
  fetched : Nat := 0
  /-- ABORT was written, or a fetch failed: no further request is fetched. -/
  stopping : Bool := false
  commit : Option Commit := none
  /-- Commit writes that wait for the end of a list's tag check, oldest first (R371). -/
  asks : List Ask := []
  /-- The compiler holds targets T1 and T2 for a swap (R173). -/
  swapLock : Bool := false
  /-- Lanes whose new rate took effect while a catch-up ran: the purge follows it (R175). -/
  purgeDue : List Nat := []
  /-- Groups disabled between a cut and the end of its catch-up, whose routes are re-placed then (R136, R167). -/
  placeDue : Nat := 0
  /-- Checksum scans in progress or waiting (R177). -/
  sumAct  : Bool := false
  sumEdit : Bool := false
  /-- The image that the active bank has (R178, R210). -/
  image : Nat := 0
  /-- Bursts that a change has made dirty since they were written, oldest first: image × 2^19 + burst (R211). -/
  dirty : List Nat := []
  /-- Centre slots whose loss is still to be swept: edit bank, slot (R180). -/
  sweeps : List (Bool × Nat) := []
  deriving DecidableEq, Repr

/-- The secure part (R365) and what runs on it: the keys (32 bytes; none held when empty), a life-cycle change in progress with
its target, and a response being prepared (R369). The record's other fields are LC and CTL of the SECURE page. -/
structure Secure where
  kId   : List Byte := []
  kAuth : List Byte := []
  wipe  : Option Nat := none
  resp  : Option (List Byte) := none
  deriving DecidableEq, Repr

/-- What a REQ or COMMIT record asks of the compiler at its RELEASE (R295, R296): a request, with whether it came from a list and
needs no tag; or a commit's NOW, ARM, DROP_LATE, CANCEL and epoch. -/
inductive HeldKind where
  | req (w : W64) (auth list : Bool)
  | commit (now arm drop cancel : Bool) (epoch : Nat)
  deriving DecidableEq, Repr

/-- A record that waits for its RELEASE: the core row from reset at whose start it is taken (R296), and whether this unit sent it. -/
structure Held where
  row  : Nat
  own  : Bool
  kind : HeldKind
  deriving DecidableEq, Repr

/-- The receiver of a Dexgor lane (R82 to R85, R289): signal amplitude, CDR lock, SYNC, the open candidates with their confirmation
counts, and errored FAS in a row. -/
structure DxRx where
  sig : Bool := false
  cdr : Bool := false
  sync : Bool := false
  cands : List (Nat × Nat) := []
  errFas : Nat := 0
  deriving DecidableEq, Repr

/-- What the decisions of R304 go by: the heartbeat counts as lost, the mate's CLAIM, and the two disownments. -/
structure MateSeen where
  lost : Bool
  claim : Bool
  own : Bool
  far : Bool
  deriving DecidableEq, Repr

/-- The mate unit (R286 to R308). -/
structure Mate where
  /-- REQ and COMMIT records that wait for their RELEASE, in order. -/
  held : List Held := []
  /-- Records to be sent on the Dexgor lanes, oldest first, and the RSEQ of the next. -/
  txq : List (List Byte) := []
  txSeq : Nat := 0
  /-- The place after that of the record that leaves last, counted from reset in 512 to a core row (R296). -/
  txSlot : Nat := 0
  /-- A pull that this unit serves: the item that goes next; its number (R306). Number of the next pull that this unit asks for. -/
  serve : Option Nat := none
  serveNo : Nat := 0
  pullNo : Nat := 0
  /-- RSEQ expected next; none until a record has been received. -/
  rxSeq : Option Nat := none
  /-- State records that wait for the hinge they name (R297), oldest first: the frame it begins, and the record. -/
  due : List (Nat × List Byte) := []
  /-- HB_SEQ to be sent next. -/
  hbSeq : Nat := 0
  /-- Heartbeats received and missed in a row (R293), whether the present frame's has come, and the last one's overhead. -/
  hbRun : Nat := 0
  hbMiss : Nat := 0
  hbNow : Bool := false
  hb : List Byte := []
  /-- RX_LAG of this unit, ns (R292). -/
  lag : Nat := 0
  /-- Control cycle of the last change of the mate's CLAIM (R288), and hinges in a row with both CLAIMs asserted (R304). -/
  claimAt : Nat := 0
  bothClaim : Nat := 0
  /-- The inputs of R304 as they stood 512 control cycles before the hinge to come; none before that instant (R301). -/
  seen : Option MateSeen := none
  /-- SWAP is sent in the heartbeat (R301). -/
  swap : Bool := false
  /-- A role change decided: the mode it leads to, and the frame at whose hinge it falls due; and the core row from reset at or after which
  a gasp acts (R301, R302). -/
  role : Option (Nat × Nat) := none
  gaspRow : Option Nat := none
  /-- The frame at whose hinge the unit last became PRIMARY (R288). -/
  entered : Option Nat := none
  /-- The mate's sums as last compared matched (R307), and the epoch they were compared at (R299). -/
  sumOk : Bool := true
  sumEpoch : Option Nat := none
  /-- TIMING as mirrored last: selected reference (15 none), DPLL offset, holdover average, servo state, F and S (R295, R303). -/
  tim : Option (Nat × Int × Int × Nat × Int × Int) := none
  /-- Seconds of the first part of a TIME record, whose second part is still to come (R295). -/
  timSec : Nat := 0
  /-- Framers of the two Dexgor lanes (R289). -/
  rx0 : DxRx := {}
  rx1 : DxRx := {}
  /-- BIP-16 of the last frame sent on each Dexgor lane, and the overhead of the frame being sent. -/
  bipTx0 : Nat := 0
  bipTx1 : Nat := 0
  oh0 : Option (List Byte) := none
  oh1 : Option (List Byte) := none
  deriving DecidableEq, Repr

/-- A side's condition as a selector follows it (R185, R186): 0 none, 1 signal degrade, 2 signal fail; the hold-off has been
served; it has ended and counts from the next hinge on; the frames for which it has run. -/
structure SideCond where
  cond : Nat := 0
  done : Bool := false
  due  : Bool := false
  ran  : Nat := 0
  deriving DecidableEq, Repr

/-- A selector or a lane-pair group (R184 to R203). `cfg` is the S_CFG or G_CFG word in effect. -/
structure Sel where
  cfg : Nat := 0
  cfgDue : Option Nat := none
  /-- Held command, and a command that is taken at the next hinge (R187, R191). -/
  cmd : Nat := 0
  cmdDue : Option Nat := none
  w : SideCond := {}
  p : SideCond := {}
  /-- Protect is selected. -/
  prot : Bool := false
  /-- Current request, in the codes of R76 (NR is 0). -/
  req : Nat := 0
  /-- Wait-to-restore: running, expired from the next hinge on, and the frames for which it has run. -/
  wtr : Bool := false
  wtrDue : Bool := false
  wtrRan : Nat := 0
  /-- A move decided during the frame, due at the next hinge (R191). -/
  move : Option Bool := none
  /-- Protect was last selected because of a fault of the working side (R190). -/
  fault : Bool := false
  switches : Nat := 0
  /-- Labels, modulo 256, of the hinges at which a running hold-off and a running wait-to-restore started (R295). -/
  holdAt : Nat := 0
  wtrAt : Nat := 0
  /-- Accepted far-end request (R199), and APS_MM (R202). -/
  far : Nat := 0
  mm : Bool := false
  deriving DecidableEq, Repr

/-- An input grooming drawer of the slot fabric (R144 to R148). -/
structure Groom where
  ip : Interp := {}
  mon : Mon := {}
  /-- Class of R144: 0 VALID, 1 FAIL, 2 UNEQ, 3 WRONG. -/
  cls : Nat := 1
  /-- Counters. -/
  bipErr : Nat := 0
  just : Nat := 0
  /-- Slot values stored: slot ↦ (core row of arrival, value, class at its arrival), newest first, at most 4 (R144, R147). -/
  vals : SMap (List (Nat × Byte × Nat)) := []
  /-- Exclusive or of the last container of output grooming drawer of the same number (R146). -/
  par : Byte := 0
  deriving DecidableEq, Repr

/-- A bench drawer (R141, R142): settings in effect and due at the next hinge, the generator's and the analyser's registers. -/
structure Bench where
  cfg : Nat := 0
  cfgDue : Option Nat := none
  /-- Pattern generator register; its phase is the model's choice (log entry 23). -/
  gen : Nat := 0x7FFFFF
  ip : Interp := {}
  mon : Mon := {}
  /-- Analyser: the pattern register, correct bits in a row, sync, and the last 64 results (1 an error). -/
  ana : Nat := 0x7FFFFF
  good : Nat := 0
  sync : Bool := false
  win : Nat := 0
  /-- Captured counters: sync losses, bit errors, errored containers, delay. -/
  loss : Nat := 0
  errs : Nat := 0
  bipErr : Nat := 0
  delay : Nat := 0
  /-- BIP-2 of the generator's last container. -/
  par : Byte := 0
  deriving DecidableEq, Repr

/-- A container byte of a copy: its value, its index in the container, the container's sequence number (R217), and whether the
lookahead store lost it (R220). -/
structure EqByte where
  b : Byte
  idx : Nat
  n : Nat
  bad : Bool := false
  deriving DecidableEq, Repr

/-- One copy of an equalised group as the equaliser receives it (R217 to R220). -/
structure EqCopy where
  ip : Interp := {}
  mon : Mon := {}
  /-- Index of the byte that comes next, and the sequence number of the container being received; both count on where nothing is
  received. -/
  idx : Nat := 0
  n : Nat := 0
  /-- That container has come in NORM and with alignment held so far. -/
  ok : Bool := false
  /-- Offset at the last container 0; none without alignment (R217). A container 0 has come since the last measurement. -/
  off : Option Nat := none
  mf : Bool := false
  /-- The copy has been aligned since the group began to measure. -/
  had : Bool := false
  /-- Containers whose check is known, newest first, at most 300: number, BIP-2 violations, whole (R220). -/
  done : List (Nat × Nat × Bool) := []
  /-- The newest bytes, oldest first, at most 36: what the lookahead store holds of the later copy (R219). -/
  last : List EqByte := []
  deriving DecidableEq, Repr

/-- The DRAM ring of a group (R218): the slab pointer, the number of the first container stored since the anchoring, the gather line
(burst of the slab, WTAG, 64 bytes) and the fetch line (burst of the ring, WTAG, its data when it was whole). -/
structure EqRing where
  slab : Nat := 0
  first : Option Nat := none
  gather : Option (Nat × Nat × List Byte) := none
  fetch : Option (Nat × Nat × Option (List Byte)) := none
  deriving DecidableEq, Repr

/-- The pointer generator of a group's output on the delayed path (R219, R224). -/
structure EqGen where
  gen : Gen := .off
  gap : Nat := 3
  /-- Bytes of the lookahead store not yet sent. -/
  fill : Nat := 0
  /-- It follows the earlier copy, out of DRAM: number and index of the next byte, and the bytes by which it lags that copy (R224). -/
  early : Bool := false
  n : Nat := 0
  idx : Nat := 0
  base : Int := 0
  /-- Bytes of the container being sent where it is taken from the earlier copy; none where it is the later copy's own. -/
  cur : Option (List Byte) := none
  /-- The container released last, with its bytes as above, until it is sent (R219). -/
  rel : Option (Nat × Option (List Byte)) := none
  deriving DecidableEq, Repr

/-- An equalised group (R215 to R227). `cfg` is its Q_CFG word; `st` 0 OFF, 1 ACQUIRE, 2 EQUALISED, 3 FALLBACK. -/
structure EqGroup where
  cfg : Nat := 0
  st : Nat := 0
  cause : Nat := 0
  delay : Nat := 0
  held : Nat := 0
  later : Bool := false
  other : Bool := false
  subst : Nat := 0
  memDet : Nat := 0
  reanchors : Nat := 0
  /-- Offsets of the last multiframe, working then protect; and how many multiframes in a row agreed on them (R223). -/
  offW : Nat := 0
  offP : Nat := 0
  agree : Nat := 0
  /-- Offset of the later copy in use. -/
  anchor : Nat := 0
  /-- Multiframes in a row aligned with d ≤ WIN, with d > WIN, and without the cause of FALLBACK (R216, R217, R225). -/
  inWin : Nat := 0
  outWin : Nat := 0
  absent : Nat := 0
  /-- A re-anchoring falls due at the next hinge. -/
  due : Bool := false
  /-- The output runs on the delayed path, entered with EQUALISED and kept in FALLBACK (R217, R224). -/
  path : Bool := false
  /-- The copies, working and protect. -/
  cw : EqCopy := {}
  cp : EqCopy := {}
  ring : EqRing := {}
  out : EqGen := {}
  deriving DecidableEq, Repr

/-- A pseudowire context (R231 to R244). `st`: 0 OFF, 1 FILL, 2 RUN, 3 LOPS. -/
structure Ctx where
  /-- C_CFG0 to C_CFG4. -/
  c0 : Nat := 0
  c1 : Nat := 0
  c2 : Nat := 0
  c3 : Nat := 0
  c4 : Nat := 0
  st : Nat := 0
  /-- The drawer received at output 0x9_0000 + n: interpreter, monitor, class (R234), last container check. -/
  ip : Interp := {}
  mon : Mon := {}
  cls : Nat := 1
  /-- The container being received: epoch of the frame of its H byte, and its bytes so far. -/
  cont : Option (Nat × List Byte) := none
  /-- Tributary bits extracted that do not fill a unit yet (R233). -/
  bits : List Bool := []
  /-- Complete units not yet sent: epoch, count of the 8.192 MHz clock at the last bit (R235), bytes. -/
  txUnits : List (Nat × Nat × List Byte) := []
  /-- SEQ and RTP time-stamp of the next packet. -/
  seq : Nat := 0
  ts : Nat := 0
  /-- Packet number expected next, and the playout unit number (R239, R241). -/
  expect : Option Nat := none
  play : Option Nat := none
  /-- Presence bits of the units, each with the L flag of its packet (R240). -/
  units : SMap Bool := []
  /-- Contents of present units whose burst is not written yet. -/
  line : SMap (List Byte) := []
  /-- Bursts written, by f / 2, each listed with 1. -/
  bursts : SMap Nat := []
  /-- Units that arrived after their burst was written and wait to be merged. -/
  late : SMap (List Byte × Bool) := []
  /-- The unit played last: content, L flag, and whether any was played. -/
  cur : List Byte := []
  curL : Bool := false
  had : Bool := false
  /-- Consecutive absent units; packets with consecutive SEQ in LOPS and the last SEQ; consecutive overruns. -/
  absent : Nat := 0
  lopsRun : Nat := 0
  lastSeq : Nat := 0
  overruns : Nat := 0
  /-- BODY of the last PWCTX record sent (R297). -/
  sent : Nat := 0
  rRx : Bool := false
  lRx : Bool := false
  rxPkts : Nat := 0
  conceal : Nat := 0
  lateCnt : Nat := 0
  restarts : Nat := 0
  /-- The rebuilt drawer: parity of its last container; tributary bits to be sent, the recovered offset in 0.01 ppm and its phase in
  1e-8 bits (R243). -/
  par : Byte := 0
  outBits : List Bool := []
  crOff : Int := 0
  phase : Int := 0
  /-- Differential clock recovery: number and time-stamp of the last packet counted, and the tributary bits and time-stamp ticks
  counted (R243). -/
  crLast : Option (Nat × Nat) := none
  crBits : Nat := 0
  crTicks : Nat := 0
  deriving DecidableEq, Repr

/-- A header template (R236): T_CTL's LABELS, VLANS and ENC, and 96 bytes. Only valid templates are listed. -/
structure Tpl where
  labels : Nat
  vlans : Nat
  enc : Nat
  data : List Byte
  deriving DecidableEq, Repr

/-- A frame in a transmit queue: its bytes; for a host frame the device address of its descriptor, and the descriptor's byte 7 with
LATE as it stands (R245, R246). -/
structure TxItem where
  bytes : List Byte
  desc : Option Nat := none
  ctl : Nat := 0
  deriving DecidableEq, Repr

/-- An Ethernet port (R228 to R246): transmit and receive queues, head first, a received frame with its time-stamp; the index of the next descriptor to be read; a host frame held for
its launch epoch and slot; SPEED and FEC as taken when PORT_EN was set; the pause time of the last PAUSE frame, in quanta of 512 bits. -/
structure EthPort where
  txq : List TxItem := []
  rxq : List (EthRx × Nat) := []
  next : Nat := 0
  hold : Option (TxItem × Nat × Nat) := none
  speed : Bool := false
  fec : Bool := false
  quanta : Nat := 0
  deriving DecidableEq, Repr

/-- The network-time unit (R269 to R285): time in 2^-48 ns at control cycle `mark`, F and S in 0.01 ppm, K, whether a hinge has
been labelled, the pending step, samples towards ACQ_N and LOCK_N, the last accepted master, late-armed slots, PPS_OUT and the control cycle of its last rise. -/
structure NTime where
  base : Nat := 0
  mark : Nat := 0
  f : Int := 0
  s : Int := 0
  k : Nat := 0
  labelled : Bool := false
  step : Option (Bool × Bool × Nat) := none
  acqRun : Nat := 0
  lockRun : Nat := 0
  master : Option Nat := none
  lateArmed : Nat := 0
  pps : Bool := false
  ppsAt : Nat := 0
  deriving DecidableEq, Repr

/-- What the timing unit holds about one reference beside its registers (R252 to R258): good, and the frame from which its
wait-to-restore counts; disqualified on frequency and not yet back below SOFT; frames in which its cycles of the last 10 s began, newest
first; last measured offset; updates since the one that found it beyond DISQ, all of which found it so. -/
structure Ref where
  good : Bool := false
  since : Nat := 0
  freqDis : Bool := false
  cycles : List Nat := []
  off : Option Int := none
  beyond : Nat := 0
  deriving DecidableEq, Repr

/-- The timing unit (R247 to R268): references, and those that the last update left qualified, one bit each; the origin of a
transition, a retarget waiting for its step boundary (15 holdover), phases measured in ns; the build-out; updates in a row in LOCKING with
equal frequencies and a phase error within ±100 ns; output offsets of the last updates in LOCKED, newest first; updates in the present
holdover; the frequency held; the cycles of each CLK_OUT output in this frame, 0 where it is held low (R267). -/
structure Timing where
  refs : SMap Ref := []
  quals : Nat := 0
  inPhase : Nat := 0
  origin : Option Nat := none
  retarget : Option Nat := none
  phases : List Int := []
  buildout : Int := 0
  hist : List Int := []
  hoTicks : Nat := 0
  held : Int := 0
  clkOut : List Nat := [0, 0, 0, 0]
  deriving DecidableEq, Repr

/-- Time: frames since reset, and the control cycle in the frame, 0 to 74,999 (R20). -/
structure Clock where
  frame : Nat := 0
  cyc : Nat := 0
  deriving DecidableEq, Repr

/-- The state of the block. -/
structure State where
  /-- Commands waiting, first in first out. -/
  pending : List Instr := []
  /-- What left the block during the last command (log entry 7). -/
  out : List Out := []
  /-- Register fields, by `Fld.key`, each stored exclusive-or its reset value, so that a field at its reset value is not listed. -/
  regs : SMap Nat := []
  /-- Upper words captured by a read of a lower word, by the register's address (R14). -/
  capHi : SMap Nat := []
  /-- Lower words written and held, by the register's address (R14). -/
  heldLo : SMap Nat := []
  /-- Frames since reset, and the control cycle in the frame. -/
  clk : Clock := {}
  /-- Free values taken so far: the argument of the free-value constants of Config. The model's own field. -/
  fresh : Nat := 0
  pow : Power := {}
  mx : Matrix := {}
  pcie : Pcie := {}
  chain : Chain := {}
  ev : Events := {}
  /-- Scratchpad contents, by offset; unlisted bytes hold 0 (R357). -/
  sp : List Host.Cell := []
  /-- Scratchpad bytes whose parity fails (R359, R364), each listed with 1. -/
  spBad : SMap Nat := []
  lanes : SMap Lane := []
  /-- Received drawers, by lane × 8192 + column. -/
  drawers : SMap Drawer := []
  /-- Output columns of the frame that ended at the last hinge, by port-space address; an unlisted one is unequipped. -/
  outCols : SMap Col := []
  dx : Dexgor := {}
  /-- DRAM bursts that have been written since the memory last came into service, by burst address A[35:6]: 64 data bytes and 16
  check bytes (R207, R210). An unlisted burst fails its check (R208; log entry 95). -/
  dram : SMap (List Byte) := []
  /-- The channels to whose CFG a reserved code was written last (R16, R206). -/
  dramRsv : BitVec 2 := 0
  mc : Compiler := {}
  sec : Secure := {}
  mate : Mate := {}
  /-- Selectors, by output address (R184). -/
  sels : SMap Sel := []
  /-- Lane-pair groups (R195). -/
  groups : SMap Sel := []
  /-- Input grooming drawers (R144). -/
  grooms : SMap Groom := []
  /-- The state that every input grooming drawer left out of `grooms` has, by quarter: fed with unequipped drawers only. -/
  groomDef : SMap Groom := []
  /-- Outputs whose source changed and that still owe a frame with NDF (R106), each listed with 1. -/
  ndf : SMap Nat := []
  /-- Saturated samples of each bridge (R157). -/
  bridgeSat : SMap Nat := []
  benches : SMap Bench := []
  eqs : SMap EqGroup := []
  ctxs : SMap Ctx := []
  tpls : SMap Tpl := []
  eths : SMap EthPort := []
  nt : NTime := {}
  tm : Timing := {}
  /-- Commands in progress at the indirect ports, by `portKey`. -/
  ports : SMap PortCmd := []
  /-- The control cycle at which each timer that has been started began to run, by `Timer.key` (R228, R258, R276, R320, R325, R331,
  R335, R362, R377, R387, R404). -/
  timers : SMap Nat := []
  deriving DecidableEq, Repr

/-- Frames since reset. -/
abbrev State.frame (s : State) : Nat := s.clk.frame

/-- The control cycle in the frame. -/
abbrev State.cyc (s : State) : Nat := s.clk.cyc

/-- The state right after reset. -/
def State.reset : State := {}

end Sys2Proof.Machine
end

