-- ==== Sys2Proof/Machine/Drawers.lean ====
section
/-! DEFINITION. Drawers: the P byte, the pointer interpreter, the container monitor, the column store and the pointer
generator (R93 to R116), as functions on one drawer. -/
namespace Sys2Proof.Machine

/-- The classes of a received P byte (R99). -/
inductive PClass where
  | aisInd | ndfNew (v : Nat) | normal | inc | dec | new (v : Nat) | invalid
  deriving DecidableEq, Repr

/-- Majority of the three I bits (5, 3, 1) or the three D bits (4, 2, 0) of a value's difference: how many are 1. -/
def iBits (x : Nat) : Nat := b2n (x.testBit 5) + b2n (x.testBit 3) + b2n (x.testBit 1)
def dBits (x : Nat) : Nat := b2n (x.testBit 4) + b2n (x.testBit 2) + b2n (x.testBit 0)

/-- Classification of P byte `pb` (the pseudocode before R99); `cur` counts only in NORM. -/
def classify (st : PState) (cur pb : Nat) : PClass :=
  let ndf := pb / 64
  let v := pb % 64
  let x := v ^^^ cur
  if pb = 0xFF then .aisInd
  else if ndf = 2 ∧ v ≤ 33 then .ndfNew v
  else if ndf ≠ 1 then .invalid
  else if st = .norm ∧ v = cur then .normal
  else if st = .norm ∧ 2 ≤ iBits x ∧ dBits x ≤ 1 then .inc
  else if st = .norm ∧ 2 ≤ dBits x ∧ iBits x ≤ 1 then .dec
  else if v ≤ 33 then .new v
  else .invalid

/-- How a frame of the column is read: no container byte is taken; at the current value; as an increment or decrement from a
value; from position v on, the bytes before it discarded (R97, R99). -/
inductive FrameRead where
  | none | plain (cur : Nat) | incFrom (p : Nat) | decFrom (p : Nat) | jump (v : Nat)
  deriving DecidableEq, Repr

/-- A run after one more value. -/
def runPush (r : Run) (v : Nat) : Run := if r.v = v ∧ r.n ≠ 0 then ⟨v, r.n + 1⟩ else ⟨v, 1⟩

/-- Frames since a justification, counted to 3 (R98, R99). -/
def gapNext (g : Nat) : Nat := min (g + 1) 3

/-- An interpreter that has entered state `st`, every count at 0: what was counted towards leaving one state does not count towards
leaving the next (R100; DESIGN CHOICE, log entry 94). -/
def interpAt (st : PState) (cur : Nat) : Interp := { st := st, cur := cur }

/-- An invalid frame in NORM: 8 in a row enter LOP (R99). -/
def interpInvalid (ip : Interp) (same : Run) : Interp × FrameRead :=
  if ip.inv + 1 ≥ 8 then (interpAt .lop ip.cur, .none)
  else ({ ip with inv := ip.inv + 1, same := same, ais := 0, gap := gapNext ip.gap }, .plain ip.cur)

/-- One frame's P byte in NORM (R99). -/
def interpNorm (ip : Interp) (c : PClass) : Interp × FrameRead :=
  match c with
  | .normal => ({ ip with inv := 0, same := {}, ais := 0, gap := gapNext ip.gap }, .plain ip.cur)
  | .inc =>
    if ip.gap ≥ 3 then ({ ip with cur := (ip.cur + 1) % 34, inv := 0, same := {}, ais := 0, gap := 0 }, .incFrom ip.cur)
    else interpInvalid ip {}
  | .dec =>
    if ip.gap ≥ 3 then ({ ip with cur := (ip.cur + 33) % 34, inv := 0, same := {}, ais := 0, gap := 0 }, .decFrom ip.cur)
    else interpInvalid ip {}
  | .ndfNew v => ({ ip with cur := v, inv := 0, same := {}, ais := 0, gap := gapNext ip.gap }, .jump v)
  | .new v =>
    let r := runPush ip.same v
    if r.n ≥ 3 then ({ ip with cur := v, inv := 0, same := {}, ais := 0, gap := gapNext ip.gap }, .jump v)
    else interpInvalid ip r
  | .aisInd =>
    if ip.ais + 1 ≥ 3 then (interpAt .ais ip.cur, .none)
    else ({ ip with same := {}, ais := ip.ais + 1, gap := gapNext ip.gap }, .plain ip.cur)
  | .invalid => interpInvalid ip {}

/-- One frame's P byte in AIS (R100). -/
def interpAis (ip : Interp) (c : PClass) : Interp × FrameRead :=
  match c with
  | .ndfNew v => (interpAt .norm v, .jump v)
  | .new v =>
    let r := runPush ip.same v
    if r.n ≥ 3 then (interpAt .norm v, .jump v) else ({ ip with inv := 0, same := r, ais := 0 }, .none)
  | .aisInd => ({ ip with inv := 0, same := {}, ais := 0 }, .none)
  | .invalid | .normal | .inc | .dec =>
    if ip.inv + 1 ≥ 8 then (interpAt .lop ip.cur, .none) else ({ ip with inv := ip.inv + 1, same := {}, ais := 0 }, .none)

/-- One frame's P byte in LOP (R100). -/
def interpLop (ip : Interp) (c : PClass) : Interp × FrameRead :=
  match c with
  | .ndfNew v | .new v =>
    let r := runPush ip.same v
    if r.n ≥ 3 then (interpAt .norm v, .jump v) else ({ ip with same := r, ais := 0 }, .none)
  | .aisInd =>
    if ip.ais + 1 ≥ 3 then (interpAt .ais ip.cur, .none) else ({ ip with same := {}, ais := ip.ais + 1 }, .none)
  | .invalid | .normal | .inc | .dec => ({ ip with same := {}, ais := 0 }, .none)

/-- The interpreter takes one frame's P byte (R99, R100). -/
def interpStep (ip : Interp) (pb : Nat) : Interp × FrameRead :=
  let c := classify ip.st ip.cur pb
  match ip.st with
  | .norm => interpNorm ip c
  | .ais => interpAis ip c
  | .lop => interpLop ip c

/-- The container bytes of a column read as `f`: (row in the frame, byte, index in the container), in order (R94, R97). -/
def frameBytes (f : FrameRead) (b : List Byte) : List (Nat × Byte × Nat) :=
  match f with
  | .none => []
  | .plain c => (List.range 34).map (fun q => (q + 2, b.getD (q + 2) 0, (q + 34 - c % 34) % 34))
  | .incFrom p => (List.range 33).map (fun q => (q + 3, b.getD (q + 3) 0, (q + 34 - p % 34) % 34))
  | .decFrom p => (List.range 35).map (fun q => (q + 1, b.getD (q + 1) 0, (q + 34 - p % 34) % 34))
  | .jump v => (List.range (34 - v)).map (fun q => (q + v + 2, b.getD (q + v + 2) 0, q))

/-! Containers. -/

/-- Whether 32 TAG bits make a multiframe with the pattern and the CRC correct (R110). -/
def tagWordOk (w : Nat) : Bool := w / 2 ^ 24 % 256 == 0xB4 && w % 256 == crc8 (beBits 16 (w / 256 % 65536))

/-- TAG[15:0] of a multiframe (R110). -/
def tagOf (w : Nat) : Nat := w / 256 % 65536

/-- One TAG bit received (R111). -/
def tagBit (t : TagRx) (b : Bool) : TagRx :=
  let sh := (2 * t.sh + b2n b) % 2 ^ 64
  let n := min (t.n + 1) 64
  let new := sh % 2 ^ 32
  let old := sh / 2 ^ 32
  if t.sync then
    if t.phase + 1 < 32 then { t with sh := sh, n := n, phase := t.phase + 1 }
    else if tagWordOk new && tagOf new == t.exp then
      { t with sh := sh, n := n, phase := 0, exp := (t.exp + 1) % 65536, fails := 0, tag := tagOf new }
    else if t.fails + 1 ≥ 2 then { t with sh := sh, n := n, phase := 0, fails := 0, sync := false }
    else { t with sh := sh, n := n, phase := 0, exp := (t.exp + 1) % 65536, fails := t.fails + 1 }
  else if n = 64 ∧ tagWordOk old ∧ tagWordOk new ∧ tagOf new = (tagOf old + 1) % 65536 then
    { sh := sh, n := n, sync := true, phase := 0, exp := (tagOf new + 1) % 65536, fails := 0, tag := tagOf new }
  else { t with sh := sh, n := n }

/-- The 32 TAG bits of the multiframe with tag `t`, first bit in bit 31 (R110). -/
def tagWord (t : Nat) : Nat := 0xB4 * 2 ^ 24 + (t % 65536) * 256 + crc8 (beBits 16 (t % 65536))

/-- The TAG bit that a Z6480 originator sends in the frame with epoch `e` (R110). -/
def tagTx (e : Nat) : Bool := (tagWord (e / 32 % 65536)).testBit (31 - e % 32)

/-- A K byte of a sealed drawer whose C bits are inconsistent (R114). -/
def kInconsistent (k : Byte) : Bool :=
  let c1 := k.toNat / 32
  let c2 := k.toNat / 4 % 8
  let v1 := decide (2 ≤ popCount 3 c1)
  let v2 := decide (2 ≤ popCount 3 c2)
  (c1 != 0 && c1 != 7) || (c2 != 0 && c2 != 7) || (v1 && v2)

/-- What a monitor found while it took some bytes: errored containers, their BIP-2 violations and inconsistent containers. -/
structure MonStat where
  err  : Nat := 0
  viol : Nat := 0
  jce  : Nat := 0
  deriving DecidableEq, Repr

/-- A run accepted after 3 (R109): the accepted value. -/
def accept3 {α : Type} (r : Run) (f : Nat → α) (old : α) : α := if r.n ≥ 3 then f r.v else old

/-- An H byte reaches the monitor: the check of the container before it, label, RDI and TAG (R107, R109, R111). The last check stands
until the next one. Without TAG_EN no alignment is held, and the last accepted tag stays. -/
def monH (m : Mon) (tagEn : Bool) (b : Byte) : Mon × MonStat :=
  let p := bip2 m.par
  let viol := if m.whole then b2n (p.1 != b.getLsbD 7) + b2n (p.2 != b.getLsbD 6) else 0
  let lr := runPush m.lblRun (b.toNat / 2 % 8)
  let rr := runPush m.rdiRun (b2n (b.getLsbD 4))
  ({ par := b, whole := true, lblRun := lr, label := accept3 lr some m.label, rdiRun := rr,
     rdi := accept3 rr (fun v => v != 0) m.rdi,
     lastErr := if m.whole then viol != 0 else m.lastErr,
     tagrx := if tagEn then tagBit m.tagrx (b.getLsbD 0) else { tag := m.tagrx.tag } },
   { err := min viol 1, viol := viol })

/-- One container byte reaches the monitor. -/
def monByte (m : Mon) (tagEn : Bool) (b : Byte) (idx : Nat) : Mon × MonStat :=
  if idx = 0 then monH m tagEn b
  else
    ({ m with par := m.par ^^^ b },
     { jce := b2n (idx == 1 && m.label == some 2 && kInconsistent b) })

/-- The container bytes of one frame reach the monitor. -/
def monBytes (m : Mon) (tagEn : Bool) (bs : List (Nat × Byte × Nat)) : Mon × MonStat :=
  match bs with
  | [] => (m, {})
  | (_, b, i) :: r =>
    let t := monByte m tagEn b i
    let u := monBytes t.1 tagEn r
    (u.1, { err := t.2.err + u.2.err, viol := t.2.viol + u.2.viol, jce := t.2.jce + u.2.jce })

/-! The drawer's settings (DRW_CFG). -/

def Drawer.monEn (d : Drawer) : Bool := d.cfg.testBit 7
def Drawer.jceEn (d : Drawer) : Bool := d.cfg.testBit 6
def Drawer.tagEn (d : Drawer) : Bool := d.cfg.testBit 5
def Drawer.plmAis (d : Drawer) : Bool := d.cfg.testBit 4
def Drawer.plmEn (d : Drawer) : Bool := d.cfg.testBit 3
def Drawer.expLabel (d : Drawer) : Nat := d.cfg % 8
def Drawer.sdExp (d : Drawer) : Nat := d.cfg / 256 % 16

/-- The core pointer (R102): the position at which the H byte leaves the store. -/
def Drawer.ptrCore (d : Drawer) : Nat := (34 - d.nextIdx % 34) % 34

/-- What one received frame did to a drawer: justifications accepted, invalid pointers, errored and inconsistent containers. -/
structure DrwStat where
  just : Nat := 0
  inval : Nat := 0
  err : Nat := 0
  jce : Nat := 0
  deriving DecidableEq, Repr

/-- The arrivals that a frame read as `f` brings to the column store, from core row `row` on (R102, R105). -/
def frameArrivals (was now : PState) (f : FrameRead) (row : Nat) (bs : List (Nat × Byte × Nat)) : List Arrival :=
  let ctl := match f with
    | .jump _ => [Arrival.restart row]
    | .none => if was = .norm ∧ now ≠ .norm then [.down row] else []
    | .plain _ | .incFrom _ | .decFrom _ => []
  ctl ++ bs.map (fun x => Arrival.byte (row + x.1) x.2.1 x.2.2)

/-- A received frame of a drawer: its 36 bytes, row 0 of which arrives in core row `row` (R99 to R114). -/
def rxDrawer (d : Drawer) (b : List Byte) (row : Nat) : Drawer × DrwStat :=
  let t := interpStep d.ip (b.getD 0 0).toNat
  let bs := frameBytes t.2 b
  let m0 := match t.2 with
    | .jump _ => { d.mon with whole := false }
    | .none | .plain _ | .incFrom _ | .decFrom _ => d.mon
  let m := monBytes m0 d.tagEn bs
  let just := match t.2 with
    | .incFrom _ | .decFrom _ => 1
    | .none | .plain _ | .jump _ => 0
  let inval := match classify d.ip.st d.ip.cur (b.getD 0 0).toNat with
    | .invalid => 1
    | .inc | .dec => 1 - just
    | .new v => if t.2 = .jump v then 0 else b2n (d.ip.st == .norm)
    | .aisInd | .ndfNew _ | .normal => 0
  ({ d with
      ip := t.1, mon := m.1,
      arr := d.arr ++ frameArrivals d.ip.st t.1.st t.2 row bs,
      bipErr := satAdd 16 d.bipErr m.2.err, justRx := satAdd 8 d.justRx just,
      errNow := d.errNow + m.2.err, jceNow := d.jceNow + m.2.jce },
   { just := just, inval := inval, err := m.2.err, jce := m.2.jce })

/-- A frame of a lane under lane failure action (a): the interpreter takes one ais_ind, whatever the framer delivers (R436). No
container byte is taken, and the generator starts again as it does on entry to NORM (R105), also where the action ends before the
third frame and the interpreter has stayed in NORM (DESIGN CHOICE, log entry 16). -/
def rxDrawerAis (d : Drawer) : Drawer :=
  let t := interpStep d.ip 0xFF
  { d with ip := t.1, mon := { d.mon with whole := false }, arr := [], store := [],
           gen := if t.1.st = .norm then .wait else .off, gap := gapNext d.gap }

/-! The column store and the pointer generator. -/

/-- Core row in which an arrival takes place. -/
def arrRow (a : Arrival) : Nat :=
  match a with
  | .byte r _ _ => r
  | .restart r => r
  | .down r => r

/-- An arrival at the column store: the drawer, and whether the store slipped (R102, R104, R105). While the first H byte is
awaited and until the NDF frame the store keeps the newest byte only, so that it holds 1 byte at the next hinge. A byte that finds the
store full is the one it is refilled with. -/
def arrive (d : Drawer) (a : Arrival) : Drawer × Bool :=
  match a with
  | .restart _ => ({ d with store := [], gen := .wait }, false)
  | .down _ => ({ d with store := [], gen := .off }, false)
  | .byte _ b idx =>
    match d.gen with
    | .off => (d, false)
    | .wait => (if idx = 0 then { d with store := [(b, 0)], gen := .ndf } else d, false)
    | .ndf => ({ d with store := [(b, idx)] }, false)
    | .run =>
      if d.store.length < 6 then ({ d with store := d.store ++ [(b, idx)] }, false)
      else ({ d with store := [(b, idx)], gen := .ndf }, true)

/-- Every arrival up to core row `row` takes place: the drawer and the slips counted. -/
def arriveAll (row : Nat) (as : List Arrival) (d : Drawer) : Drawer × Nat :=
  match as with
  | [] => ({ d with arr := [] }, 0)
  | a :: r =>
    if arrRow a ≤ row then
      let t := arrive d a
      let u := arriveAll row r t.1
      (u.1, b2n t.2 + u.2)
    else ({ d with arr := a :: r }, 0)

/-- What a core row carries: the P byte, nothing (0x00), or the next byte of the store. -/
inductive RowUse where
  | p (b : Byte) | pad | data
  deriving DecidableEq, Repr

/-- One core row of a running generator: arrivals first, then the byte that leaves (R102 to R104). Once the generator no longer
runs, the rest of the frame is drawer AIS. -/
def genRow (row : Nat) (u : RowUse) (d : Drawer) : Drawer × Byte × Nat :=
  let t := arriveAll row d.arr d
  let d := t.1
  if d.gen ≠ .run then (d, 0xFF, t.2)
  else
    match u with
    | .p b => (d, b, t.2)
    | .pad => (d, 0, t.2)
    | .data =>
      match d.store with
      | [] => ({ d with gen := .ndf }, 0xFF, t.2 + 1)
      | (b, i) :: r => ({ d with store := r, nextIdx := (i + 1) % 34, sent := b }, b, t.2)

/-- The rows of a frame in order, from core row `row` on. -/
def genRows (row : Nat) (us : List RowUse) (d : Drawer) : Drawer × List Byte × Nat :=
  match us with
  | [] => (d, [], 0)
  | u :: r =>
    let t := genRow row u d
    let v := genRows (row + 1) r t.1
    (v.1, t.2.1 :: v.2.1, t.2.2 + v.2.2)

/-- The column of drawer AIS (R95). -/
def aisCol : Col := { b := List.replicate 36 0xFF, h := 0, just := false, ais := true }

/-- The column of an unequipped drawer (R95). -/
def uneqCol : Col := { b := 0x40 :: List.replicate 35 0, h := 0, just := false, ais := false }

/-- The use of the rows of a frame (R97): increment, decrement or neither. -/
def frameUse (p : Byte) (inc dec : Bool) : List RowUse :=
  .p p :: (if dec then .data else .pad) :: (if inc then .pad else .data) :: List.replicate 33 .data

/-- The P byte of an increment or decrement from `p` (R97). -/
def incByte (p : Nat) : Byte := BitVec.ofNat 8 (0x40 ||| (p ^^^ 0b101010))
def decByte (p : Nat) : Byte := BitVec.ofNat 8 (0x40 ||| (p ^^^ 0b010101))

/-- The byte to which the store of a drawer that owes NDF is refilled at a hinge: the newest that has come, or the last one sent, which
is then repeated (R104, DEDUCED, log entry 94). -/
def Drawer.refill (d : Drawer) : Byte × Nat := d.store.getLastD (d.sent, (d.nextIdx + 33) % 34)

/-- The core frame that begins at a hinge, the `k`-th: the drawer after it, its column, whether it justified, and its column
slips (R103 to R105). -/
def genFrame (k : Nat) (d : Drawer) : Drawer × Col × Nat × Nat :=
  let f := d.store.length
  let p := d.ptrCore
  match d.gen with
  | .run =>
    let inc := decide (f = 0 ∧ 3 ≤ d.gap)
    let dec := decide (3 ≤ f ∧ 3 ≤ d.gap)
    let pb := if inc then incByte p else if dec then decByte p else BitVec.ofNat 8 (0x40 + p)
    let h := if inc then (p + 1) % 34 else if dec then (p + 33) % 34 else p
    let t := genRows (36 * k) (frameUse pb inc dec) d
    ({ t.1 with gap := if inc || dec then 0 else gapNext d.gap,
                justCore := satAdd 8 t.1.justCore (b2n (inc || dec)) },
     { b := t.2.1, h := h, just := inc || dec, ais := false }, b2n (inc || dec), t.2.2)
  | .ndf =>
    let e := d.refill
    let d := { d with store := [e], nextIdx := e.2, gen := .run }
    let t := genRows (36 * k) (frameUse (BitVec.ofNat 8 (0x80 + d.ptrCore)) false false) d
    ({ t.1 with gap := gapNext d.gap }, { b := t.2.1, h := d.ptrCore, just := false, ais := false }, 0, t.2.2)
  | .off | .wait =>
    let t := arriveAll (36 * k + 35) d.arr d
    ({ t.1 with gap := gapNext d.gap }, aisCol, 0, t.2)

/-! Drawer defects. -/

/-- Errored containers over the SD window of the drawer (R115): 10 blocks of 100 ms at SD_EXP = 5, ten times more a step. -/
def Drawer.sdCount (d : Drawer) : Nat := ((d.blocks.take (10 ^ (d.sdExp - 4))).foldl (· + ·) 0)

/-- The raw conditions of the drawer defects (R115). `block` says that a 100 ms block ends now; SD, EXC and JCE are judged then
and stand between blocks. -/
def rawDefects (d : Drawer) (block : Bool) : Nat :=
  let lbl (v : Nat) : Bool := d.mon.label == some v
  let keep (b : Nat) (v : Bool) : Bool := if block then v else d.raw.testBit b
  let plm := d.plmEn && d.mon.label.isSome && !lbl d.expLabel && !lbl 0 && !lbl 4
  b2n (d.ip.st == .lop) + 2 * b2n (d.ip.st == .ais || lbl 4) + 4 * b2n (lbl 0) + 8 * b2n plm +
  16 * b2n d.mon.rdi + 32 * b2n (keep 5 (decide (21 < d.sdCount))) + 64 * b2n (keep 6 (decide (190 ≤ d.blocks.headD 0))) +
  128 * b2n (d.tagEn && !d.mon.tagrx.sync) +
  256 * b2n (keep 8 (d.jceEn && lbl 2 && decide (4 ≤ d.jceNow)))

/-- The drawer defects that stand when the set `m` would be declared: those that a defect in `m` or lane failure action (b)
suppresses are left out (R116). -/
def drwUnsuppressed (m : Nat) (laneB : Bool) : Nat :=
  if laneB then 0
  else if m.testBit 0 then 1
  else if m.testBit 1 then 2
  else if m.testBit 2 then 4
  else
    let m := if m.testBit 3 then andNot 9 m 0b1100000 else m
    if m.testBit 6 then andNot 9 m 0b0100000 else m

/-- A drawer defect `b` that the declared set `d`, or lane failure action (b), suppresses (R116). -/
def drwSuppressed (d b : Nat) (laneB : Bool) : Bool := !(drwUnsuppressed (setBit d b) laneB).testBit b

/-! The integrators of a drawer (R89, R115). -/

/-- The drawer defects of a lane whose set time, and those whose clear time, is 0: their declaration or clearance is made in the frame in
which the condition appears or goes. -/
structure AtOnce where
  set : Nat
  clr : Nat
  deriving DecidableEq, Repr

/-- The integrators of the defect bits `bs` of a drawer start from zero in frame `k`. -/
def Drawer.starts (d : Drawer) (z : AtOnce) (k bs : Nat) : Drawer :=
  { d with since := (List.range 9).foldl (fun m b => if bs.testBit b then mput m b k else m) d.since,
           pendSet := d.pendSet ||| (bs &&& d.raw &&& z.set), pendClr := d.pendClr ||| (andNot 9 bs d.raw &&& z.clr) }

/-- A drawer of a running lane at the end of frame `k`: its raw conditions, and its 100 ms block when one ends (R115). Errored containers
of a drawer that is not monitored count in no window (DESIGN CHOICE, log entry 94). -/
def drawerBlock (z : AtOnce) (k : Nat) (d : Drawer) (block : Bool) : Drawer :=
  if !d.monEn then { d with raw := 0, blocks := [], errNow := 0, jceNow := 0 }
  else
    let d := if block then { d with blocks := (d.errNow :: d.blocks).take 10000 } else d
    let new := rawDefects d block
    let d := { d with raw := new }.starts z k (d.raw ^^^ new)
    if block then { d with errNow := 0, jceNow := 0 } else d

/-- What takes effect at a hinge of the declarations `set` and the clearances `clr` made since the last one, over the declared set
`old`: the declared set, and what is left for the next hinge. Where both were made of one defect the earlier one, which is the one
that changes it, takes effect now, and the later one at the next hinge if the raw condition `raw` still calls for it (R89;
DEDUCED, log entry 93). -/
def defectTurn (old set clr raw : Nat) : Nat × Nat × Nat :=
  let both := set &&& clr
  ((andNot 11 old clr) ||| (andNot 11 set (both &&& old)), both &&& old &&& raw, andNot 11 (andNot 11 both old) raw)

/-- The defect bits of a drawer that `old` and `wasB` suppressed and `new` and `laneB` do not (R116). -/
def drwFreed (old new : Nat) (wasB laneB : Bool) : Nat :=
  (List.range 9).foldl (fun a b => if drwSuppressed old b wasB && !drwSuppressed new b laneB then setBit a b else a) 0

/-- A drawer at the hinge that begins frame `k`: a change of MON_EN, then declarations and clearances (R115, R116); whether its declared
defects changed. `wasB` and `laneB` are lane failure action (b) before the hinge and from it on. A defect that is no longer suppressed
integrates from zero, and so does every defect when monitoring begins. -/
def drawerTurn (z : AtOnce) (k : Nat) (wasB laneB : Bool) (d : Drawer) : Drawer × Bool :=
  let was := d.monEn
  let d := match d.cfgDue with
    | none => d
    | some w => { d with cfg := w, cfgDue := none }
  if !d.monEn then ({ d with raw := 0, declared := 0, pendSet := 0, pendClr := 0, since := [] }, d.declared != 0)
  else if !was then
    (({ d with raw := rawDefects { d with raw := 0 } false, declared := 0, pendSet := 0, pendClr := 0 }.starts z k 0x1FF), false)
  else
    let t := defectTurn d.declared d.pendSet d.pendClr d.raw
    let new := drwUnsuppressed t.1 laneB
    ({ d with declared := new, pendSet := t.2.1, pendClr := t.2.2 }.starts z k (drwFreed d.declared new wasB laneB &&& d.raw),
     new != d.declared)

/-- Settings written by WRITE: one that changes MON_EN takes effect at the next hinge (R115), another as the command completes (DEDUCED,
log entry 18). -/
def Drawer.written (d : Drawer) (w : Nat) : Drawer :=
  if w.testBit 7 = d.monEn then { d with cfg := w, cfgDue := none } else { d with cfgDue := some w }

end Sys2Proof.Machine
end

