-- ==== Sys2Proof/Machine/Ops.lean ====
section
/-! DEFINITION. The named operations every meaning is built from: reading and writing a register field, raising an event
(R337 to R346), counting (R347 to R349), sending a message or a chain frame. -/
namespace Sys2Proof.Machine

/-- The value of field `f` (page instance `i`, array index `j`). -/
def State.rd (s : State) (f : Fld) (i : Nat := 0) (j : Nat := 0) : Nat :=
  mapGet 0 s.regs (f.key i j) ^^^ f.rst

/-- Field `f` set to `v`, cut to the field's width. -/
def State.wr (s : State) (f : Fld) (v : Nat) (i : Nat := 0) (j : Nat := 0) : State :=
  { s with regs := mapSet 0 s.regs (f.key i j) ((v % 2 ^ f.width) ^^^ f.rst) }

/-- Whether a one-bit field is 1. -/
def State.on (s : State) (f : Fld) (i : Nat := 0) (j : Nat := 0) : Bool := s.rd f i j != 0

/-- A one-bit field set to `b`. -/
def State.wrB (s : State) (f : Fld) (b : Bool) (i : Nat := 0) (j : Nat := 0) : State := s.wr f (b2n b) i j

/-- `f` advanced by `n`, saturating at its width. -/
def State.bump (s : State) (f : Fld) (n : Nat := 1) (i : Nat := 0) (j : Nat := 0) : State :=
  s.wr f (satAdd f.width (s.rd f i j) n) i j

/-- `f` advanced by `n`, wrapping at its width. -/
def State.bumpWrap (s : State) (f : Fld) (n : Nat := 1) (i : Nat := 0) (j : Nat := 0) : State :=
  s.wr f (s.rd f i j + n) i j

/-- `o` leaves the block. -/
def State.emit (s : State) (o : Out) : State := { s with out := s.out ++ [o] }

/-- Control cycles since reset (R20: 75,000 to a frame). -/
def State.now (s : State) : Nat := s.frame * 75000 + s.cyc

/-- The timers whose end is a command of the table: a grant and a lock of a target, a training of a DRAM channel, VIN_FAIL, SLEEP, the
line test, the samples of the servo, the frames of a lane, a command at an indirect port, a PCI Express tag, arm mode, the lockout of a
reference, a PAUSE. -/
inductive Timer where
  | grant (t : Nat)
  | lock (t : Nat)
  | train (c : Nat)
  | vin
  | sleep
  | line
  | sample
  | frame (n : Nat)
  | port (k : Nat)
  | tag (x : Nat)
  | arm
  | lockout (r : Nat)
  | pause (p : Nat)
  deriving DecidableEq, Repr

/-- Key of a timer in `State.timers`. -/
def Timer.key (t : Timer) : Nat :=
  match t with
  | .grant t => t % 8
  | .lock t => 8 + t % 8
  | .train c => 16 + c % 2
  | .vin => 18
  | .sleep => 19
  | .line => 20
  | .sample => 21
  | .frame n => 64 + n % 64
  | .port k => 128 + k % 128
  | .tag x => 256 + x
  | .arm => 22
  | .lockout r => 24 + r % 16
  | .pause p => 40 + p % 8

/-- A timer starts now. -/
def State.mark (s : State) (t : Timer) : State := { s with timers := mput s.timers t.key s.now }

/-- Control cycles since a timer started. -/
def State.since (s : State) (t : Timer) : Option Nat := (mget? s.timers t.key).map (fun k => s.now - k)

/-- A timer has run for `n` control cycles at least; one that was never started bounds nothing. -/
def State.ran (s : State) (t : Timer) (n : Nat) : Bool :=
  match s.since t with
  | none => true
  | some k => decide (n ≤ k)

/-- Domain `d` is powered and usable (R384). -/
def State.domUp (s : State) (d : Nat) : Bool := s.pow.up.getLsbD d

/-- The domain of page `p`, instance `i`, is usable. -/
def State.pageUp (s : State) (p : Page) (i : Nat) : Bool := s.domUp (pageDomain p i)

/-- The current mode, in the codes of R388. -/
def State.mode (s : State) : Nat := s.rd R.GLOBAL_MODE_STAT_CUR

/-- Codes of the modes (R388). -/
def mSLEEP : Nat := 0
def mWARM : Nat := 1
def mBRINGUP : Nat := 2
def mSOLO : Nat := 3
def mPRIMARY : Nat := 4
def mSTANDBY : Nat := 5
def mMAINT : Nat := 6
def mISOLATE : Nat := 7

/-- The mode carries traffic: BRINGUP, SOLO, PRIMARY, STANDBY, MAINT or ISOLATE (R388: every requested domain is on). -/
def trafficMode (m : Nat) : Bool := decide (2 ≤ m)

/-- The epoch label of the present frame (R26, R281). -/
def State.epoch (s : State) : Nat := s.rd R.NTIME_EPOCH_LABEL

/-! Performance counters. -/

/-- A freeze is in effect (R350). -/
def State.frozen (s : State) : Bool :=
  s.on R.PERF_CTL_FREEZE || (s.ev.snapPin && s.rd R.PERF_CTL_PIN_MODE == 2) || s.ev.actFreeze

/-- Counter `k` of a page advanced by `n`: it wraps at 2^48 and then sets WRAP (R349). -/
def State.cntAdd (s : State) (p : Page) (i k n : Nat) : State :=
  let v := s.rd (R.HDR_CNT_COUNT p) i k + n
  let s := s.wr (R.HDR_CNT_COUNT p) v i k
  if v < 2 ^ 48 then s
  else
    let s := s.wr (R.HDR_CNT_SEL_WRAP p) 1 i k
    { s with ev := { s.ev with wraps := s.ev.wraps ++ [pageSlot p i * 8 + k] } }

/-- `n` occurrences of counter code `code` of a page in one control cycle, seen by its counter `k` (R348). -/
def State.count1 (s : State) (p : Page) (i code n k : Nat) : State :=
  if s.rd (R.HDR_CNT_SEL_CODE p) i k = code then
    match s.rd (R.HDR_CNT_SEL_MODE p) i k with
    | 1 => s.cntAdd p i k n
    | 2 => s.cntAdd p i k (min n 1)
    | _ => s
  else s

/-- `n` occurrences of counter code `code` of a page in one control cycle (R347, R348, R350). -/
def State.count (s : State) (p : Page) (i code : Nat) (n : Nat := 1) : State :=
  if n = 0 ∨ s.frozen ∨ !s.pageUp p i then s
  else (List.range 8).foldl (fun s k => s.count1 p i code n k) s

/-! Events. -/

/-- Group of an event source (R338). -/
def eventGroup (p : Page) (i : Nat) : Nat :=
  match p with
  | .lanep | .lanef => i
  | .dfab | .mapc | .sfab | .conf | .prot | .eq | .pw | .eth => pageSlot p i - 64
  | .global | .power | .event | .perf | .timing | .ntime | .mate | .matrix | .seq | .secure | .dramc | .bench =>
    pageSlot p i + 64

/-- Bit of an event source in its group (R338). -/
def eventGroupBit (p : Page) (b : Nat) : Nat := if p = .lanep then 24 + b else b

/-- Status bits of a page that are set and not masked; none while its domain is off (R338). -/
def State.pagePend (s : State) (p : Page) (i : Nat) : Nat :=
  if s.pageUp p i then andNot 32 (s.rd (R.HDR_EVT_STATUS_STATUS p) i) (s.rd (R.HDR_EVT_MASK_MASK p) i) else 0

/-- GRP_PEND of group `g` (R338). -/
def State.grpPend (s : State) (g : Nat) : Nat :=
  if g < 64 then s.pagePend .lanef g % 2 ^ 22 ||| ((s.pagePend .lanep g % 2 ^ 8) <<< 24)
  else if g < 77 then
    match slotPage (g - 64) with
    | some (p, i) => s.pagePend p i
    | none => 0
  else if g < 92 then
    match slotPage (g + 64) with
    | some (p, i) => s.pagePend p i
    | none => 0
  else 0

/-- A watermark compares its level with its MARK (R346): STICKY sets when the level has reached it, raising WM. `r` raises. -/
def wmCheck (r : Page → Nat → Nat → State → State) (w level : Nat) (s : State) : State :=
  let mark := s.rd R.EVENT_WM_MARK 0 w
  if mark = 0 ∨ level < mark ∨ s.on R.EVENT_WM_STICKY 0 w then s
  else r .event 0 2 (s.wr R.EVENT_WM_STICKY 1 0 w)

/-- An item is written to the event queue, or ignored when the queue is full (R343, R344). -/
def queueItem (r : Page → Nat → Nat → State → State) (item : W64) (s : State) : State :=
  if s.ev.queue.length < 512 then
    let s := { s with ev := { s.ev with queue := s.ev.queue ++ [item] } }
    wmCheck r 0 s.ev.queue.length (s.count .event 0 1)
  else
    r .event 0 1 ((s.wr R.EVENT_EQ_STAT_OVERRUN 1).bump R.EVENT_EQ_CNT_DROPPED)

/-- MSI-X vector `v` fires: a message is sent, or its pending bit is set while it is masked or Bus Master Enable is clear
(R324, R339). Nothing happens while the link is down (R321). -/
def State.msixFire (s : State) (v : Nat) : State :=
  if !(s.pcie.released && s.pcie.link) then s
  else
    let e := mapGet (0, 0, true) s.pcie.table v
    if e.2.2 || !s.pcie.bme then { s with pcie := { s.pcie with pba := setBit s.pcie.pba v } }
    else s.emit (.msix v e.1 e.2.1)

/-- A chain frame with its CRC (R311). -/
def chainFrame (unit op tag : Nat) (taken arm : Bool) (addr data : Nat) : BitVec 96 :=
  let hd := (((((unit % 64) * 16 + op % 16) * 16 + tag % 16) * 2 + b2n taken) * 2 + b2n arm) * 2 ^ 32 + addr % 2 ^ 32
  let top := hd * 2 ^ 32 + data % 2 ^ 32
  BitVec.ofNat 96 (top * 2 ^ 16 + crc16 (beBits 80 top))

/-- The side out of which the unit sends its own frames: the host side in arm mode, the output pairs in ring mode (R314, R320). -/
def State.ownSide (s : State) : ChainSide := s.chain.hostSide.getD .outp

/-- Control cycles that a frame occupies an output: 97 bits and 4 idle bits at 250 Mbit/s (R310; log entry 31). -/
def chainBits : Nat := 243

/-- A frame goes out at cycle `at'`; `fwd` marks a forwarded one. -/
def State.chainSend (s : State) (side : ChainSide) (f : BitVec 96) (fwd : Bool) (at' : Nat) : State :=
  { s with chain := { s.chain with txFree := at' + chainBits, lastFwd := fwd } }.emit (.chain side f)

/-- The outputs send what waits, if they are free by cycle `upTo`: at most one of the unit's own frames after each forwarded one, and
its own freely while nothing waits to be forwarded (R314). -/
def State.chainPump (s : State) (upTo : Nat) : State :=
  if upTo < s.chain.txFree then s
  else
    match s.chain.fwd, s.chain.own with
    | [], [] => s
    | [], o :: r => { s with chain := { s.chain with own := r } }.chainSend o.1 o.2 false upTo
    | f :: r, [] => { s with chain := { s.chain with fwd := r } }.chainSend f.1 f.2 true upTo
    | f :: r, o :: q =>
      if s.chain.lastFwd then { s with chain := { s.chain with own := q } }.chainSend o.1 o.2 false upTo
      else { s with chain := { s.chain with fwd := r } }.chainSend f.1 f.2 true upTo

/-- One of the unit's own frames, a response or a NOTIFY. -/
def State.chainOwn (s : State) (side : ChainSide) (f : BitVec 96) : State :=
  { s with chain := { s.chain with own := s.chain.own ++ [(side, f)] } }.chainPump s.now

/-- The pending groups with NOTIFY_EN = 1, lowest first. -/
def State.notifyGroups (s : State) : List Nat :=
  (List.range 128).filter (fun g => s.on R.EVENT_GRP_ROUTE_NOTIFY_EN 0 g && s.grpPend g != 0)

/-- DATA of a NOTIFY frame (R340). -/
def notifyData (gs : List Nat) : Nat := gs.headD 0 % 128 + min gs.length 255 * 256

/-- A NOTIFY frame is sent, subject to CHN_CFG.NOTIFY_EN and to NOTIFY_GAP (10 µs = 6,000 control cycles a step); within the
gap it waits (R339). -/
def State.notify (s : State) : State :=
  let gs := s.notifyGroups
  if gs.isEmpty || !s.on R.SEQ_CHN_CFG_NOTIFY_EN then { s with chain := { s.chain with notifyDue := false } }
  else
    let ready := match s.chain.notifyAt with
      | none => true
      | some t => decide (t + s.rd R.SEQ_CHN_CFG_NOTIFY_GAP * 6000 ≤ s.now)
    if ready then
      let s := { s with chain := { s.chain with notifyAt := some s.now, notifyDue := false } }
      s.chainOwn s.ownSide (chainFrame (s.rd R.SEQ_CHN_ADDR_ADDR) 6 0 false s.chain.hostSide.isSome 0 (notifyData gs))
    else { s with chain := { s.chain with notifyDue := true } }

/-- A source becomes pending (R339): its message, its queue item, and the group's NOTIFY when the group was not pending before. -/
def becomePending (r : Page → Nat → Nat → State → State) (p : Page) (i b : Nat) (wasPend : Bool) (s : State) : State :=
  let g := eventGroup p i
  let s := if s.on R.EVENT_GRP_ROUTE_MSIX_EN 0 g then s.msixFire (s.rd R.EVENT_GRP_ROUTE_VECTOR 0 g) else s
  let s := if s.on R.EVENT_GRP_ROUTE_QUEUE_EN 0 g then
      queueItem r (BitVec.ofNat 64 (2 ^ 60 + (32 * g + eventGroupBit p b) * 2 ^ 48 + s.epoch % 2 ^ 40)) s
    else s
  if s.on R.EVENT_GRP_ROUTE_NOTIFY_EN 0 g && !wasPend then s.notify else s

/-- Event `b` of page `p`, instance `i`, is raised (R337); `n` bounds the events that the report itself raises (OVERRUN, WM). -/
def raiseN (n : Nat) (p : Page) (i b : Nat) (s : State) : State :=
  match n with
  | 0 => s
  | n + 1 =>
    let st := s.rd (R.HDR_EVT_STATUS_STATUS p) i
    if !s.pageUp p i || st.testBit b then s
    else
      let was := s.grpPend (eventGroup p i) != 0
      let s := s.wr (R.HDR_EVT_STATUS_STATUS p) (setBit st b) i
      if (s.rd (R.HDR_EVT_MASK_MASK p) i).testBit b then s else becomePending (raiseN n) p i b was s

/-- Event `b` of page `p`, instance `i`, is raised (R337). The report raises at most OVERRUN and WM on top, each once. -/
def State.raise (s : State) (p : Page) (i b : Nat) : State := raiseN 4 p i b s

/-- The present condition of source `b` (EVT_RAW, R337). -/
def State.setRaw (s : State) (p : Page) (i b : Nat) (v : Bool) : State :=
  s.wr (R.HDR_EVT_RAW_RAW p) (putBit (s.rd (R.HDR_EVT_RAW_RAW p) i) b v) i

/-- Level of watermark `w` (R346). -/
def State.wmLevel (s : State) (mapcFill : Nat) (w : Nat) : Nat :=
  match w with
  | 0 => s.ev.queue.length
  | 1 => s.ev.trace.length
  | 2 => s.chain.queue.length
  | _ => mapcFill

/-- Watermark `w` at `level` (R346). -/
def State.watermark (s : State) (w level : Nat) : State := wmCheck (raiseN 3) w level s

/-- A MAPLOST item (R343): FABRIC, BANK and window offset of the lost word. -/
def State.lostItem (s : State) (slotFabric edit : Bool) (offset : Nat) : State :=
  queueItem (raiseN 3) (BitVec.ofNat 64 (2 * 2 ^ 60 + b2n slotFabric * 2 ^ 59 + b2n edit * 2 ^ 58 + (offset % 2 ^ 24) * 2 ^ 32 +
    s.epoch % 2 ^ 32)) s

/-- A self-recovery is recorded in RECOV and RECOV_INFO and RECOVERED is raised (R404, R405). -/
def State.recordRecovery (s : State) (cause wh : Nat) : State :=
  let s := ((s.bump R.GLOBAL_RECOV_COUNT).wr R.GLOBAL_RECOV_CAUSE cause).wr R.GLOBAL_RECOV_INFO_WHERE wh
  (s.raise .global 0 3).count .global 0 3

/-- A self-recovery: recorded at once, or after the soft reset that is running (R404, R405). -/
def State.recover (s : State) (cause wh : Nat) : State :=
  if s.pow.phase = .soft then { s with pow := { s.pow with heldRec := s.pow.heldRec ++ [(cause, wh)] } }
  else s.recordRecovery cause wh

/-- The next state with effect `s`, the answer of every meaning that runs. -/
def ok (s : State) : Host.Outcome State Fault Refusal := .next s

/-- The state a command starts from: nothing has left the block in it yet. -/
def State.start (s : State) : State := { s with out := [] }

/-- A free value is taken: the counter that names it advances. -/
def State.takeFresh (s : State) : State := { s with fresh := s.fresh + 1 }

/-- Page `p`, instance `i`, serves every offset: its domain is usable and no soft reset runs (R397, R408). -/
def State.served (s : State) (p : Page) (i : Nat) : Bool := s.pow.phase == .running && s.pageUp p i

/-- A write of a register of a page: effect `f` where the page serves it, none where it does not (R334). -/
def State.onPage (s : State) (p : Page) (i : Nat) (f : State → State) : Host.Outcome State Fault Refusal :=
  if s.served p i then ok (f s.start) else ok s.start

/-! READY (R392). -/

/-- The domain number `d` is requested. -/
def State.requested (s : State) (d : Nat) : Bool :=
  if d < 4 then d < 3 || s.on R.GLOBAL_STRAP_MATE_PRESENT
  else if d < 32 then (s.rd R.POWER_DOM_EN0_EN).testBit (d - 4)
  else (s.rd R.POWER_DOM_EN1_EN).testBit (d - 32)

/-- Domain `d` is requested and usable. -/
def State.serves (s : State) (d : Nat) : Bool := s.requested d && s.domUp d

/-- Every requested plane group is usable, and one is requested. -/
def State.dfabReady (s : State) : Bool :=
  let gs := (List.range 8).filter (fun g => s.requested (36 + g))
  !gs.isEmpty && gs.all (fun g => s.domUp (36 + g))

/-- Quad `q` can be used: framer and PMA usable, PLL locked. -/
def State.quadReady (s : State) (q : Nat) : Bool := s.serves (4 + q) && s.serves (20 + q) && s.on R.LANEP_STAT_PLL_LOCK (4 * q)

/-- DRAM is ready: its domains are requested and both channels are trained (R206, R392). -/
def State.dramUp (s : State) : Bool :=
  (List.range 4).all (fun k => s.requested (48 + k)) && s.on R.DRAMC_STAT_TRAINED 0 && s.on R.DRAMC_STAT_TRAINED 1

/-- The word that READY shows. -/
def State.readyWord (s : State) : Nat :=
  (List.range 16).foldl (fun m q => m + b2n (s.quadReady q) * 2 ^ (16 + q)) 0 + b2n s.pow.holdupOk * 2 ^ 12 +
  b2n (s.serves 55) * 2 ^ 11 + b2n (s.serves 54) * 2 ^ 10 + b2n (s.serves 53) * 2 ^ 9 + b2n (s.serves 52) * 2 ^ 8 +
  b2n s.dramUp * 2 ^ 7 + b2n s.dramUp * 2 ^ 6 + b2n (s.on R.SFAB_STAT_READY) * 2 ^ 5 + b2n (s.on R.MAPC_STAT_READY) * 2 ^ 4 +
  b2n s.dfabReady * 2 ^ 3 + b2n (s.serves 3) * 2 ^ 2 + b2n (s.domUp 2) * 2 +
  b2n (s.domUp 1 && s.on R.SECURE_SP_STAT_INIT_DONE)

/-- A change of READY raises READY_CHG. -/
def State.readyChk (s : State) : State :=
  let w := s.readyWord
  if w = s.pow.lastReady then s else { s with pow := { s.pow with lastReady := w } }.raise .global 0 2

end Sys2Proof.Machine
end

