-- ==== Sys2Proof/Machine/Scratch.lean ====
section
/-! DEFINITION. The scratchpad as every reader and writer meets it (R356 to R359), and the indirect ports (R404). -/
namespace Sys2Proof.Machine

/-- The canonical form of an addressed memory: addresses strictly rising, no entry equal to what an unlisted byte reads as. -/
def Memory.wf (m : List Host.Cell) : Bool := mapWf 0 m

/-- The byte at offset `o` of the scratchpad. -/
def State.spByte (s : State) (o : Nat) : Byte := mapGet 0 s.sp o

/-- `n` bytes of the scratchpad from offset `o`. -/
def State.spBytes (s : State) (o n : Nat) : List Byte := (List.range n).map (fun i => s.spByte (o + i))

/-- Byte `b` written at offset `o`, with good parity. -/
def State.spPut (s : State) (o : Nat) (b : Byte) : State :=
  { s with sp := mapSet 0 s.sp o b, spBad := mdel s.spBad o }

/-- Bytes written from offset `o` on, with good parity. -/
def State.spWrite (s : State) (o : Nat) (bs : List Byte) : State :=
  match bs with
  | [] => s
  | b :: r => State.spWrite (s.spPut o b) (o + 1) r

/-- The first word of `n` bytes from offset `o` in which some byte's parity fails: its offset (R359 judges words). -/
def State.spDetect (s : State) (o n : Nat) : Option Nat :=
  match s.spBad.filter (fun e => decide (o / 4 ≤ e.1 / 4) && decide (e.1 / 4 ≤ (o + n - 1) / 4) && n != 0) with
  | [] => none
  | e :: _ => some (e.1 / 4 * 4)

/-- A parity detection is captured and DET is raised (R359): `b` when the reader is on port B. -/
def State.spDet (s : State) (o : Nat) (b : Bool) : State :=
  let s := ((s.wr R.SECURE_SP_DET_ADDR_OFFSET o).wrB R.SECURE_SP_DET_ADDR_PORT b).wr R.SECURE_SP_STAT_DET 1
  let s := (s.bump R.SECURE_SP_DET_CNT_COUNT).count .secure 0 2
  s.raise .secure 0 0

/-- Whether an engine access at offset `o` goes through port B: inside the dual-port region (R358). -/
def portB (o : Nat) : Bool := decide (0x70000 ≤ o)

/-- Key of an indirect port in `State.ports`. -/
def portKey (p : Port) : Nat :=
  match p with
  | .drw n => n.val
  | .bench => 64 | .sfab => 65 | .conf => 66 | .prot => 67 | .eq => 68 | .pwCtx => 69 | .pwTpl => 70

/-- The BUSY bit of an indirect port. -/
def portBusyFld (p : Port) : Fld × Nat :=
  match p with
  | .drw n => (R.LANEF_DRW_CMD_BUSY, n.val)
  | .bench => (R.BENCH_B_CMD_BUSY, 0)
  | .sfab => (R.SFAB_G_CMD_BUSY, 0)
  | .conf => (R.CONF_B_CMD_BUSY, 0)
  | .prot => (R.PROT_S_CMD_BUSY, 0)
  | .eq => (R.EQ_Q_CMD_BUSY, 0)
  | .pwCtx => (R.PW_C_CMD_BUSY, 0)
  | .pwTpl => (R.PW_T_CMD_BUSY, 0)

/-- A command is in progress at the port. -/
def State.portBusy (s : State) (p : Port) : Bool := (mget? s.ports (portKey p)).isSome

/-- A command is latched at the port and BUSY sets; while one is in progress a further one is ignored (R404). -/
def State.portLatch (s : State) (p : Port) (c : PortCmd) : State :=
  if s.portBusy p then s
  else
    let f := portBusyFld p
    ({ s with ports := mput s.ports (portKey p) c }.wr f.1 1 f.2).mark (.port (portKey p))

/-- The command at the port ends and BUSY clears. -/
def State.portFree (s : State) (p : Port) : State :=
  let f := portBusyFld p
  { s with ports := mdel s.ports (portKey p) }.wr f.1 0 f.2

end Sys2Proof.Machine
end

