-- ==== Sys2Proof/Machine/Lanes.lean ====
section
/-! DEFINITION. Lanes: signal and reference monitors, lane defects and their integration, settings, equalisation loads, eye
scans (R40 to R66, R89 to R92). -/
namespace Sys2Proof.Machine

/-- What lane `n` holds. -/
def State.lane (s : State) (n : Nat) : Lane := mapGet {} s.lanes n

/-- Lane `n` holding `l`. -/
def State.setLane (s : State) (n : Nat) (l : Lane) : State := { s with lanes := mapSet {} s.lanes n l }

/-- Lane `n` changed by `f`. -/
def State.updLane (s : State) (n : Nat) (f : Lane → Lane) : State := s.setLane n (f (s.lane n))

/-- The drawer in column `c` of lane `n`. -/
def State.drw (s : State) (n c : Nat) : Drawer := mapGet {} s.drawers (n * 8192 + c)

/-- That drawer set. -/
def State.setDrw (s : State) (n c : Nat) (d : Drawer) : State := { s with drawers := mapSet {} s.drawers (n * 8192 + c) d }

/-- Bit of a lane defect in DEF (R91). -/
def laneDefBit (d : LaneDefect) : Nat :=
  match d with
  | .los => 0 | .lol => 1 | .oof => 2 | .lof => 3 | .ais => 4 | .rdi => 5 | .tim => 6 | .sd => 7 | .exc => 8 | .frx => 9
  | .stv => 10

/-- Bit of a drawer defect in DRW_STAT.DEF (R115). -/
def drwDefBit (d : DrawerDefect) : Nat :=
  match d with
  | .lop => 0 | .dAis => 1 | .dUneq => 2 | .dPlm => 3 | .dRdi => 4 | .dSd => 5 | .dExc => 6 | .dTagx => 7 | .dJce => 8

/-- Lane `n` runs: it sends frames and its receiver is in use (R43, R65). -/
def State.running (s : State) (n : Nat) : Bool := s.on R.LANEP_STAT_RUNNING n

/-- The framer of lane `n` is in SYNC. -/
def State.inSync (s : State) (n : Nat) : Bool := s.on R.LANEF_STATE_SYNC n

/-- Rate in effect on lane `n`. -/
def State.rate (s : State) (n : Nat) : Nat := s.rd R.LANEP_STAT_RATE_ACTIVE n

/-- Raw and declared defects of lane `n`. -/
def State.laneRaw (s : State) (n : Nat) : Nat := s.rd R.LANEF_DEF_RAW_DEFECTS n
def State.laneDef (s : State) (n : Nat) : Nat := s.rd R.LANEF_DEF_DEFECTS n

/-- A near-end loop is in effect on lane `n` (R61). -/
def State.nearLoop (s : State) (n : Nat) : Bool :=
  s.rd R.LANEP_STAT_LOOP_ACTIVE n == 1 || s.rd R.LANEP_STAT_LOOP_ACTIVE n == 2

/-- Lane failure action (a) applies to lane `n` (R91): its drawers enter the drawer fabric as drawer AIS. -/
def State.actionA (s : State) (n : Nat) : Bool :=
  let raw := s.laneRaw n
  let d := s.laneDef n
  raw.testBit 0 || raw.testBit 1 || raw.testBit 2 || raw.testBit 4 ||
  (d.testBit 6 && s.on R.LANEF_CTL_TIM_AIS n) || (d.testBit 8 && s.on R.LANEF_CTL_EXC_AIS n)

/-- Lane failure action (b) applies for the declared set `d` (R91): LOS, LOL, LOF, lane AIS, or TIM with TIM_AIS = 1. -/
def State.actionBOf (s : State) (n d : Nat) : Bool :=
  d.testBit 0 || d.testBit 1 || d.testBit 3 || d.testBit 4 || (d.testBit 6 && s.on R.LANEF_CTL_TIM_AIS n)

/-- Lane failure action (b) applies to lane `n`. -/
def State.actionB (s : State) (n : Nat) : Bool := s.actionBOf n (s.laneDef n)

/-- A receive lane has failed (R77): LOS, LOL, LOF or lane AIS declared, or a near-end loop (R63). -/
def State.laneFailed (s : State) (n : Nat) : Bool :=
  let d := s.laneDef n
  d.testBit 0 || d.testBit 1 || d.testBit 3 || d.testBit 4 || s.nearLoop n

/-- The set `m` of lane defects without those that a defect in `m` ranked above suppresses (R92). -/
def laneUnsuppressed (m : Nat) : Nat :=
  if m.testBit 0 then m &&& 0b00000000101
  else if m.testBit 1 then m &&& 0b00000000110
  else if m.testBit 3 then m &&& 0b00000001100
  else if m.testBit 4 then m &&& 0b11000110100
  else if m.testBit 6 then m &&& 0b11001100100
  else if m.testBit 8 then m &&& 0b11100100100
  else m

/-- A lane defect `b` that the declared set `d` suppresses (R92). -/
def laneSuppressed (d b : Nat) : Bool := !(laneUnsuppressed (setBit d b)).testBit b

/-- Whole 100 ms steps that an integrator has run which started in frame `since`: the condition is evaluated at each frame (R89). -/
def State.integRun (s : State) (since : Nat) : Nat := (s.frame + 1 - since) / 800

/-- The time that the integrator of defect bit `b` of lane `n` has run. -/
def State.laneRun (s : State) (n b : Nat) : Nat := s.integRun (mapGet 0 (s.lane n).since b)

/-- Defect bit `b` of a lane is declared or cleared now: DEF, EVT_RAW and DEF_CHG (R89). -/
def State.setDef (s : State) (n b : Nat) (v : Bool) : State :=
  if (s.laneDef n).testBit b = v then s
  else ((s.wr R.LANEF_DEF_DEFECTS (putBit (s.laneDef n) b v) n).setRaw .lanef n b v).raise .lanef n b

/-- The integrator of defect bit `b` of lane `n` starts from zero: with a time of 0 the declaration (`v`) or the clearance is made in
this very frame (R89). -/
def State.integStart (s : State) (n b : Nat) (v : Bool) : State :=
  let s := s.updLane n (fun l => { l with since := mput l.since b s.frame })
  if v ∧ s.rd R.LANEF_INTEG_SET n b = 0 then s.updLane n (fun l => { l with pendSet := setBit l.pendSet b })
  else if !v ∧ s.rd R.LANEF_INTEG_CLEAR n b = 0 then s.updLane n (fun l => { l with pendClr := setBit l.pendClr b })
  else s

/-- The raw condition of defect bit `b` of a running lane becomes `v`: its integrator starts from zero. A declaration or clearance
already made stands, and takes effect at the next hinge (R89). -/
def State.setRawDef (s : State) (n b : Nat) (v : Bool) : State :=
  let was := (s.laneRaw n).testBit b
  if !s.running n then s
  else
    let s := s.wr R.LANEF_DEF_RAW_DEFECTS (putBit (s.laneRaw n) b v) n
    if was = v then s else s.integStart n b v

/-- The STATE register of lane `n` follows its candidates. -/
def State.showCands (s : State) (n : Nat) : State :=
  let c := (s.lane n).cands
  (s.wr R.LANEF_STATE_CAND c.length n).wr R.LANEF_STATE_CONF_COUNT (c.foldl (fun m x => max m x.2) 0) n

/-- A message cell is discarded and its discard counted (R80). -/
def State.cellDropped (s : State) (n : Nat) : State := (s.count .lanef n 7).raise .lanef n 17

/-- The framer of lane `n` enters SEARCH (R85, R91): OOF is declared, the raw condition of LOF holds, and nothing received is
accepted any more (R71). -/
def State.enterSearch (s : State) (n : Nat) : State :=
  if !s.running n then s
  else
    let s := if (s.lane n).cell.isSome then s.cellDropped n else s
    let s := s.updLane n (fun l => { l with
      cands := [], errFas := 0, runUnit := {}, runAps := {}, runFb := {}, runLabel := {}, runAis := {}, runRdi := {},
      asm := none, lastMsg := [], msgN := 0, bipPrev := none, cell := none, fillSeen := false, reiNow := 0, reiTx := 0 })
    let s := (s.wr R.LANEF_STATE_SYNC 0 n).showCands n
    let s := s.wr R.LANEF_DEF_RAW_DEFECTS (setBit (s.laneRaw n) 2) n
    (s.setDef n 2 true).setRawDef n 3 true

/-- The framer of lane `n` enters SYNC (R84): every candidate closes, OOF is cleared, and the error windows restart, so that SD and EXC
do not hold until they have filled (R90). -/
def State.enterSync (s : State) (n : Nat) : State :=
  let s := s.updLane n (fun l => { l with
    cands := [], errFas := 0, blocks := [], fillNow := 0, diffNow := 0, blkPart := true, fillSeen := false })
  let s := ((s.wr R.LANEF_STATE_SYNC 1 n).showCands n).mark (.frame n)
  let s := s.wr R.LANEF_DEF_RAW_DEFECTS (clrBit (s.laneRaw n) 2) n
  (((s.setDef n 2 false).setRawDef n 3 false).setRawDef n 7 false).setRawDef n 8 false

/-- A running eye scan aborts (R59). -/
def State.eyeStop (s : State) (n : Nat) : State :=
  if !s.on R.LANEP_EYE_STAT_BUSY n then s
  else ((s.wr R.LANEP_EYE_STAT_BUSY 0 n).wr R.LANEP_EYE_STAT_ABORTED 1 n).raise .lanep n 5

/-- Lane `n` receives no signal (R91). A near-end loop ignores the receive pins (R61; log entry 91). -/
def State.losCond (s : State) (n : Nat) : Bool := !s.nearLoop n && !s.on R.LANEP_STAT_SIG_DET n

/-- The receive clock of lane `n` is not usable: no CDR lock, which a near-end loop does not take from the pins, no PLL lock, or the
quad in REF_RANGE (R42, R61, R91). -/
def State.lolCond (s : State) (n : Nat) : Bool :=
  (!s.nearLoop n && !s.on R.LANEP_STAT_CDR_LOCK n) || !s.on R.LANEP_STAT_PLL_LOCK n || s.on R.LANEP_REF_OFFSET_REF_RANGE n

/-- The LOL condition of lane `n` is judged again: its loss sends the framer to SEARCH and stops an eye scan. -/
def State.judgeLol (s : State) (n : Nat) : State :=
  if s.lolCond n then ((s.eyeStop n).setRawDef n 1 true).enterSearch n else s.setRawDef n 1 false

/-- The lanes of quad `q`. -/
def quadLanes (q : Nat) : List Nat := [4 * q, 4 * q + 1, 4 * q + 2, 4 * q + 3]

/-- The raw LOS condition is judged; while it holds the framer is in SEARCH (R91). A near-end loop ignores the pins (R61; log entry 91). -/
def State.judgeLos (s : State) (n : Nat) : State :=
  if s.losCond n then (s.setRawDef n 0 true).enterSearch n else s.setRawDef n 0 false

/-- The framer of Dexgor lane `l`. -/
def State.dxRx (s : State) (l : Nat) : DxRx := if l = 0 then s.mate.rx0 else s.mate.rx1

/-- That framer set. -/
def State.setDxRx (s : State) (l : Nat) (r : DxRx) : State :=
  if l = 0 then { s with mate := { s.mate with rx0 := r } } else { s with mate := { s.mate with rx1 := r } }

/-- A Dexgor lane has signal and clock: amplitude, CDR lock, and its reference in range with the PLL locked (R42, R289). -/
def State.dxSound (s : State) (l : Nat) : Bool := (s.dxRx l).sig && (s.dxRx l).cdr && s.dx.pll && !s.dx.refRange

/-- A Dexgor framer without signal or clock enters SEARCH at once, and its candidates close (R82, R289). -/
def State.dxJudge (s : State) (l : Nat) : State :=
  if s.dxSound l then s else s.setDxRx l { s.dxRx l with sync := false, cands := [], errFas := 0 }

/-- The amplitude at the receiver of a lane appears or disappears (R91, R289). -/
def State.sigDet (s : State) (l : LaneId) (present : Bool) : State :=
  match l with
  | .horale n => if !s.domUp (20 + n.val / 4) then s else (s.wrB R.LANEP_STAT_SIG_DET present n).judgeLos n
  | .dexgor l => if !s.domUp 3 then s else (s.setDxRx l { s.dxRx l with sig := present }).dxJudge l

/-- SIG_DET_CHANGE. -/
def execSigDetChange (l : LaneId) (present : Bool) (s : State) : Host.Outcome State Fault Refusal := ok (s.start.sigDet l present)

/-- The receiver of a lane gains or loses CDR lock. Its loss aborts an eye scan whatever the lane's loop (R59, R91, R289). -/
def State.cdrLock (s : State) (l : LaneId) (locked : Bool) : State :=
  match l with
  | .horale n =>
    if !s.domUp (20 + n.val / 4) then s
    else
      let lost := s.on R.LANEP_STAT_CDR_LOCK n && !locked
      let s := s.wrB R.LANEP_STAT_CDR_LOCK locked n
      let s := if lost then (s.eyeStop n).raise .lanep n 2 else s
      s.judgeLol n
  | .dexgor l => if !s.domUp 3 then s else (s.setDxRx l { s.dxRx l with cdr := locked }).dxJudge l

/-- CDR_LOCK_CHANGE. -/
def execCdrLockChange (l : LaneId) (locked : Bool) (s : State) : Host.Outcome State Fault Refusal := ok (s.start.cdrLock l locked)

/-- REF_RANGE is declared on one lane of a quad: the quad-wide event and LOL (R42). -/
def State.refRangeLane (s : State) (n : Nat) : State :=
  let s := if s.on R.LANEP_REF_OFFSET_REF_RANGE n then s
    else ((s.wr R.LANEP_REF_OFFSET_REF_RANGE 1 n).setRaw .lanep n 0 true).raise .lanep n 0
  s.judgeLol n

/-- One lane's view of its quad PLL gaining or losing lock (R42). -/
def State.pllLane (locked : Bool) (s : State) (n : Nat) : State :=
  let s := s.wrB R.LANEP_STAT_PLL_LOCK locked n
  if locked then (s.setRaw .lanep n 1 false).judgeLol n
  else ((s.setRaw .lanep n 1 true).raise .lanep n 1).refRangeLane n

/-- REF_OFFSET of one lane of a quad (R42), in 0.01 ppm; REF_RANGE is declared outside ±1,000 ppm. An offset outside OFFSET's 20 bits
shows as the nearest value of it (DESIGN CHOICE, log entry 92). -/
def State.refOffsetLane (off : Int) (s : State) (n : Nat) : State :=
  let s := s.wr R.LANEP_REF_OFFSET_OFFSET (ofSigned 20 (clampInt (-524288) 524287 off)) n
  if off < -100000 ∨ 100000 < off then s.refRangeLane n else s

/-- REF_RANGE of one lane clears, when the PLL is locked and the offset lies within ±950 ppm (R42). -/
def State.refRangeClearLane (s : State) (n : Nat) : State :=
  let off := toSigned 20 (s.rd R.LANEP_REF_OFFSET_OFFSET n)
  if s.on R.LANEP_STAT_PLL_LOCK n ∧ -95000 ≤ off ∧ off ≤ 95000 then
    ((s.wr R.LANEP_REF_OFFSET_REF_RANGE 0 n).setRaw .lanep n 0 false).judgeLol n
  else s

/-- QUAD_PLL_LOCK_CHANGE (R42). The Dexgor PLL has no register; its lock is kept beside the Dexgor lanes. -/
def execQuadPllLockChange (q : RefClk) (locked : Bool) (s : State) : Host.Outcome State Fault Refusal :=
  let s := s.start
  match q with
  | .quad q => if !s.domUp (20 + q.val) then ok s else ok ((quadLanes q.val).foldl (State.pllLane locked) s).readyChk
  | .dexgor => ok (({ s with dx := { s.dx with pll := locked, refRange := s.dx.refRange || !locked } }.dxJudge 0).dxJudge 1)

/-- REF_OFFSET_UPDATE (R42). -/
def execRefOffsetUpdate (q : RefClk) (off : Int) (s : State) : Host.Outcome State Fault Refusal :=
  let s := s.start
  match q with
  | .quad q => if !s.domUp (20 + q.val) then ok s else ok ((quadLanes q.val).foldl (State.refOffsetLane off) s)
  | .dexgor =>
    ok (({ s with dx := { s.dx with refOff := off, refRange := s.dx.refRange || decide (off < -100000 ∨ 100000 < off) } }.dxJudge 0).dxJudge 1)

/-- REF_RANGE_CLEAR (R42). -/
def execRefRangeClear (q : RefClk) (s : State) : Host.Outcome State Fault Refusal :=
  let s := s.start
  match q with
  | .quad q => if !s.domUp (20 + q.val) then ok s else ok ((quadLanes q.val).foldl State.refRangeClearLane s)
  | .dexgor =>
    if s.dx.pll ∧ -95000 ≤ s.dx.refOff ∧ s.dx.refOff ≤ 95000 then ok { s with dx := { s.dx with refRange := false } } else ok s

/-- A lane defect may be declared: its raw condition holds, it is not declared, and no declared defect suppresses it (R89, R92). -/
def State.mayDeclare (s : State) (n b : Nat) : Bool :=
  s.running n && b != 2 && (s.laneRaw n).testBit b && !(s.laneDef n).testBit b && !laneSuppressed (s.laneDef n) b

/-- A declared lane defect may clear: its raw condition is absent (R89). -/
def State.mayClear (s : State) (n b : Nat) : Bool := b != 2 && (s.laneDef n).testBit b && !(s.laneRaw n).testBit b

/-- The integrator of defect bit `b` is compared with SET and CLEAR: one that has reached its time makes the declaration or the
clearance, for the next hinge (R89). -/
def State.integJudge (s : State) (n b : Nat) : State :=
  if s.mayDeclare n b ∧ s.rd R.LANEF_INTEG_SET n b ≤ s.laneRun n b then
    s.updLane n (fun l => { l with pendSet := setBit l.pendSet b })
  else if s.mayClear n b ∧ s.rd R.LANEF_INTEG_CLEAR n b ≤ s.laneRun n b then
    s.updLane n (fun l => { l with pendClr := setBit l.pendClr b })
  else s

/-- LANE_DEFECT_DECLARE: the raw condition has held for SET × 100 ms; the defect is declared at the next hinge (R89). The event names what
the integrator shows (DESIGN CHOICE, log entry 69). -/
def execLaneDefectDeclare (n : Fin 64) (d : LaneDefect) (run : Nat) (s : State) : Host.Outcome State Fault Refusal :=
  let s := s.start
  if s.mayDeclare n (laneDefBit d) ∧ run = s.laneRun n (laneDefBit d) then ok (s.integJudge n (laneDefBit d)) else ok s

/-- LANE_DEFECT_CLEAR: the raw condition has been absent for CLEAR × 100 ms; the defect clears at the next hinge (R89). -/
def execLaneDefectClear (n : Fin 64) (d : LaneDefect) (run : Nat) (s : State) : Host.Outcome State Fault Refusal :=
  let s := s.start
  if s.mayClear n (laneDefBit d) ∧ run = s.laneRun n (laneDefBit d) then ok (s.integJudge n (laneDefBit d)) else ok s

/-- Blocks of 100 ms in the SD window (R90). -/
def sdBlocks (e : Nat) : Nat := 10 ^ (e - 5)

/-- The error estimate of a window of blocks exceeds 10^-e: the differences, times 10^e, exceed the filler bits (R90). No
condition is set until the window has filled. -/
def overThreshold (blocks : List (Nat × Nat)) (w e : Nat) : Bool :=
  let b := blocks.take w
  decide (w ≤ blocks.length) &&
  decide ((b.foldl (fun a x => a + x.1) 0) < (b.foldl (fun a x => a + x.2) 0) * 10 ^ e)

/-- FILLER_BER_CHECK: a 100 ms block ends and SD, EXC and STV are judged (R90, R91). A block within which SYNC was entered is no part of
the window, which then starts with the next. -/
def execFillerBerCheck (n : Fin 64) (s : State) : Host.Outcome State Fault Refusal :=
  let s := s.start
  if !s.running n then ok s
  else
    let l := s.lane n
    let bl := if l.blkPart then [] else ((l.fillNow, l.diffNow) :: l.blocks).take 10000
    let e := s.rd R.LANEF_CTL_SD_EXP n
    let s := s.setLane n { l with blocks := bl, fillNow := 0, diffNow := 0, violNow := 0, blkPart := false }
    let s := s.setRawDef n 7 (overThreshold bl (sdBlocks e) e)
    let s := s.setRawDef n 8 (overThreshold bl 1 3)
    ok (s.setRawDef n 10 (decide (16 ≤ l.violNow)))

/-! Drawer defects (R115): declared at the next hinge. -/

/-- The drawer defects of lane `n` with a set time, and with a clear time, of 0. -/
def State.drwAtOnce (s : State) (n : Nat) : AtOnce :=
  let zeros (f : Fld) : Nat := (List.range 9).foldl (fun a b => if s.rd f n b = 0 then setBit a b else a) 0
  { set := zeros R.LANEF_DINTEG_SET, clr := zeros R.LANEF_DINTEG_CLEAR }

/-- A drawer defect may be declared: monitored, raw, not declared, not suppressed (R115, R116). -/
def State.mayDeclareDrw (s : State) (n c b : Nat) : Bool :=
  let d := s.drw n c
  s.running n && d.monEn && d.raw.testBit b && !d.declared.testBit b && !drwSuppressed d.declared b (s.actionB n)

/-- A declared drawer defect may clear. -/
def State.mayClearDrw (s : State) (n c b : Nat) : Bool := (s.drw n c).declared.testBit b && !(s.drw n c).raw.testBit b

/-- 100 ms steps for which the condition of a drawer defect has stood as it stands. -/
def State.drwRun (s : State) (n c b : Nat) : Nat := s.integRun (mapGet 0 (s.drw n c).since b)

/-- The integrator of a drawer defect is compared with SET and CLEAR (R89, R115). -/
def State.integJudgeDrw (s : State) (n c b : Nat) : State :=
  let d := s.drw n c
  if s.mayDeclareDrw n c b ∧ s.rd R.LANEF_DINTEG_SET n b ≤ s.drwRun n c b then s.setDrw n c { d with pendSet := setBit d.pendSet b }
  else if s.mayClearDrw n c b ∧ s.rd R.LANEF_DINTEG_CLEAR n b ≤ s.drwRun n c b then s.setDrw n c { d with pendClr := setBit d.pendClr b }
  else s

/-- DRAWER_DEFECT_DECLARE (R115). -/
def execDrawerDefectDeclare (n : Fin 64) (c : BitVec 13) (d : DrawerDefect) (run : Nat) (s : State) : Host.Outcome State Fault Refusal :=
  let s := s.start
  if s.mayDeclareDrw n c.toNat (drwDefBit d) ∧ run = s.drwRun n c.toNat (drwDefBit d) then ok (s.integJudgeDrw n c.toNat (drwDefBit d))
  else ok s

/-- DRAWER_DEFECT_CLEAR (R115). -/
def execDrawerDefectClear (n : Fin 64) (c : BitVec 13) (d : DrawerDefect) (run : Nat) (s : State) : Host.Outcome State Fault Refusal :=
  let s := s.start
  if s.mayClearDrw n c.toNat (drwDefBit d) ∧ run = s.drwRun n c.toNat (drwDefBit d) then ok (s.integJudgeDrw n c.toNat (drwDefBit d))
  else ok s

/-- A write of INTEG[d] or DINTEG[d]: the new times apply at once to running integrations, which keep the time they have run
(R89). INTEG[2] is reserved. -/
def State.integWrite (s : State) (n : Nat) (r : IntegReg) (set clr : Nat) : State :=
  match r with
  | .lane d =>
    let b := laneDefBit d
    if b = 2 then s else ((s.wr R.LANEF_INTEG_SET set n b).wr R.LANEF_INTEG_CLEAR clr n b).integJudge n b
  | .drawer d =>
    let b := drwDefBit d
    let s := (s.wr R.LANEF_DINTEG_SET set n b).wr R.LANEF_DINTEG_CLEAR clr n b
    (s.drawers.filter (fun e => e.1 / 8192 == n)).foldl (fun (s : State) e => s.integJudgeDrw n (e.1 % 8192) b) s

/-- INTEG_WRITE (R89). -/
def execIntegWrite (n : Fin 64) (r : IntegReg) (set clear : Byte) (s : State) : Host.Outcome State Fault Refusal :=
  s.onPage .lanef n (fun s => s.integWrite n r set.toNat clear.toNat)

/-! Equalisation (R52 to R57). -/

/-- Byte `i` of a record, and its signed reading. -/
def recByte (r : List Byte) (i : Nat) : Nat := (r.getD i 0).toNat
def recInt (r : List Byte) (i : Nat) : Int := toSigned 8 (recByte r i)

/-- Whether a record is in range (R55). -/
def recordOk (r : List Byte) : Bool :=
  let within (i : Nat) (lo hi : Int) : Bool := decide (lo ≤ recInt r i) && decide (recInt r i ≤ hi)
  let rsv := recByte r 0 / 4 % 32 == 0 && ((r.drop 10).take 6).all (fun b => b == 0)
  let vals := within 1 (-20) 0 && within 2 23 63 && within 3 (-31) 0 && within 4 0 15 && within 5 (-63) 63 &&
    within 6 (-31) 31 && within 7 (-15) 15 && within 8 (-15) 15 && within 9 (-15) 15 &&
    decide (-(recInt r 1) + recInt r 2 + -(recInt r 3) ≤ 63)
  rsv && (recByte r 0 / 128 == 0 || vals)

/-- VALID of a record. -/
def recordValid (r : List Byte) : Bool := recByte r 0 / 128 == 1

/-- EQ_TX, EQ_RX0 and EQ_RX1 show record `r` (R57). -/
def State.eqShowRec (s : State) (n : Nat) (r : List Byte) : State :=
  let s := (((s.wr R.LANEP_EQ_TX_FLAGS (recByte r 0) n).wr R.LANEP_EQ_TX_TX_PRE (recByte r 1) n).wr
    R.LANEP_EQ_TX_TX_MAIN (recByte r 2) n).wr R.LANEP_EQ_TX_TX_POST (recByte r 3) n
  let s := ((s.wr R.LANEP_EQ_RX0_CTLE_PEAK (recByte r 4) n).wr R.LANEP_EQ_RX0_DFE1 (recByte r 5) n).wr
    R.LANEP_EQ_RX0_DFE2 (recByte r 6) n
  ((s.wr R.LANEP_EQ_RX1_DFE3 (recByte r 7) n).wr R.LANEP_EQ_RX1_DFE4 (recByte r 8) n).wr R.LANEP_EQ_RX1_DFE5 (recByte r 9) n

/-- What the EQ registers show (R57): while EN = 1 the settings taken at the hinge at which it took effect, else the held record for
RATE, or 0 without records. Between the write of EN = 1 and that hinge nothing has been taken yet, and the held record is shown
(DESIGN CHOICE, log entry 92). -/
def State.eqShow (s : State) (n : Nat) : State :=
  let l := s.lane n
  if s.on R.LANEP_CTL_EN n && s.running n && !l.stopDue then s.eqShowRec n l.inUse
  else s.eqShowRec n (l.recs.getD (s.rd R.LANEP_CTL_RATE n) [])

/-- Offset of the table image in the scratchpad (R53). -/
def eqImage : Nat := 0x6E000

/-- A load of lane `n` ends with an error bit: no records are held (R56). -/
def State.eqFail (s : State) (n : Nat) (f : Fld) : State :=
  let s := ((s.wr f 1 n).wr R.LANEP_EQ_STAT_LOADED 0 n).wr R.LANEP_EQ_STAT_VALID_RATES 0 n
  ((s.updLane n (fun l => { l with recs := [] })).eqShow n).raise .lanep n 3

/-- A load of lane `n` succeeds with four records (R56). -/
def State.eqTake (s : State) (n : Nat) (rs : List (List Byte)) : State :=
  let v := (List.range 4).foldl (fun a i => a + b2n (recordValid (rs.getD i [])) * 2 ^ i) 0
  ((s.updLane n (fun l => { l with recs := rs })).wr R.LANEP_EQ_STAT_LOADED 1 n).wr R.LANEP_EQ_STAT_VALID_RATES v n |>.eqShow n

/-- EQ_LOAD: a load starts, clearing the three error bits; one written while a load runs is ignored (R56). -/
def State.eqLoad (s : State) (n : Nat) : State :=
  if s.on R.LANEP_EQ_STAT_BUSY n then s
  else ((((s.wr R.LANEP_EQ_STAT_BUSY 1 n).wr R.LANEP_EQ_STAT_FMT_ERR 0 n).wr R.LANEP_EQ_STAT_CRC_ERR 0 n).wr
    R.LANEP_EQ_STAT_RANGE_ERR 0 n)

/-- EQ_LOAD. -/
def execEqLoad (n : Fin 64) (s : State) : Host.Outcome State Fault Refusal := s.onPage .lanep n (fun s => s.eqLoad n)

/-- EQ_LOAD_DONE: the checks of R56 in order, on the image as it stands; a parity failure fails the load with CRC_ERR (R359). -/
def execEqLoadDone (n : Fin 64) (s : State) : Host.Outcome State Fault Refusal :=
  let s := s.start
  if !s.on R.LANEP_EQ_STAT_BUSY n ∨ !s.on R.SECURE_SP_STAT_INIT_DONE then ok s
  else
    let s := s.wr R.LANEP_EQ_STAT_BUSY 0 n
    match s.spDetect eqImage 8 with
    | some o => ok ((s.spDet o false).eqFail n R.LANEP_EQ_STAT_CRC_ERR)
    | none =>
      if ofLe (s.spBytes eqImage 4) ≠ 0x3834365A ∨ ofLe (s.spBytes (eqImage + 4) 2) ≠ 1 then
        ok (s.eqFail n R.LANEP_EQ_STAT_FMT_ERR)
      else
        match s.spDetect eqImage 4132 with
        | some o => ok ((s.spDet o false).eqFail n R.LANEP_EQ_STAT_CRC_ERR)
        | none =>
          if crc32 (s.spBytes eqImage 0x1020) ≠ ofLe (s.spBytes (eqImage + 0x1020) 4) then
            ok (s.eqFail n R.LANEP_EQ_STAT_CRC_ERR)
          else
            let rs := (List.range 4).map (fun i => s.spBytes (eqImage + 0x20 + 16 * (4 * n.val + i)) 16)
            if rs.all recordOk then ok (s.eqTake n rs) else ok (s.eqFail n R.LANEP_EQ_STAT_RANGE_ERR)

/-! Lane control (R43, R57, R60). -/

/-- A record for the configured rate is held and VALID (R57). -/
def State.mayEnable (s : State) (n : Nat) : Bool :=
  s.on R.LANEP_EQ_STAT_LOADED n && recordValid ((s.lane n).recs.getD (s.rd R.LANEP_CTL_RATE n) [])

/-- EN = 1 is written (R57). -/
def State.laneEnSet (s : State) (n : Nat) : State :=
  if s.on R.LANEP_CTL_EN n then s
  else if s.mayEnable n then (s.wr R.LANEP_CTL_EN 1 n).eqShow n
  else s.wr R.LANEP_STAT_EN_REFUSED 1 n

/-- LANE_EN_SET. -/
def execLaneEnSet (n : Fin 64) (s : State) : Host.Outcome State Fault Refusal := s.onPage .lanep n (fun s => s.laneEnSet n)

/-- EN = 0 is written: the lane stops at the next hinge, even if EN is 1 again by then (R43); a scan aborts (R59). -/
def State.laneEnClear (s : State) (n : Nat) : State :=
  let due := s.running n
  (((s.eyeStop n).wr R.LANEP_CTL_EN 0 n).updLane n (fun l => { l with stopDue := due })).eqShow n

/-- LANE_EN_CLEAR. -/
def execLaneEnClear (n : Fin 64) (s : State) : Host.Outcome State Fault Refusal := s.onPage .lanep n (fun s => s.laneEnClear n)

/-- Lane `n` belongs to an enabled lane-pair group (R195). -/
def State.inGroup (s : State) (n : Nat) : Bool :=
  (List.range 32).any (fun g => s.on R.PROT_G_CFG_EN 0 g &&
    (s.rd R.PROT_G_CFG_W_LANE 0 g == n || s.rd R.PROT_G_CFG_P_LANE 0 g == n))

/-- RATE is written (R43, R195). -/
def State.rateWrite (s : State) (n rate : Nat) : State :=
  if s.rd R.LANEP_CTL_RATE n = rate then s
  else if s.on R.LANEP_CTL_EN n ∨ s.inGroup n then s.wr R.LANEP_STAT_RATE_REFUSED 1 n
  else (s.wr R.LANEP_CTL_RATE rate n).eqShow n

/-- RATE_WRITE. -/
def execRateWrite (n : Fin 64) (rate : BitVec 2) (s : State) : Host.Outcome State Fault Refusal :=
  s.onPage .lanep n (fun s => s.rateWrite n rate.toNat)

/-- LOOP is written (R60). -/
def State.loopWrite (s : State) (n loop : Nat) : State :=
  if loop ≠ 0 ∧ s.mode ≠ mMAINT then s.wr R.LANEP_STAT_LOOP_REFUSED 1 n else s.wr R.LANEP_CTL_LOOP loop n

/-- LOOP_WRITE. -/
def execLoopWrite (n : Fin 64) (loop : BitVec 2) (s : State) : Host.Outcome State Fault Refusal :=
  s.onPage .lanep n (fun s => s.loopWrite n loop.toNat)

/-! Eye scan (R58, R59). -/

/-- START begins a scan on an enabled lane, or is refused while one runs. On a lane without CDR lock, or in REF_RANGE, it begins one
all the same, and the next loss aborts it: R59 names the losses, not the states (DESIGN CHOICE, log entry 92). -/
def State.eyeStart (s : State) (n : Nat) : State :=
  if s.on R.LANEP_EYE_STAT_BUSY n then s.wr R.LANEP_EYE_STAT_REFUSED 1 n
  else if s.on R.LANEP_CTL_EN n then (s.wr R.LANEP_EYE_STAT_BUSY 1 n).wr R.LANEP_EYE_STAT_POINT 0 n
  else s

/-- EYE_START. -/
def execEyeStart (n : Fin 64) (s : State) : Host.Outcome State Fault Refusal := s.onPage .lanep n (fun s => s.eyeStart n)

/-- EYE_ABORT. -/
def execEyeAbort (n : Fin 64) (s : State) : Host.Outcome State Fault Refusal := s.onPage .lanep n (fun s => s.eyeStop n)

/-- EYE_POINT_DONE: the count of the point, saturating at 0xFFFF, goes to EYE_DEST + 2 × (64 × v + p), with EYE_DEST as it stands
when the point completes (DESIGN CHOICE, log entry 92); the last point completes the scan (R59). A point has 2^DWELL_LOG2
unit intervals, so an event of more errors is none that the block could meet and changes nothing (DESIGN CHOICE, log entry 69). -/
def execEyePointDone (n : Fin 64) (count : Nat) (s : State) : Host.Outcome State Fault Refusal :=
  let s := s.start
  if !s.on R.LANEP_EYE_STAT_BUSY n || decide (2 ^ s.rd R.LANEP_EYE_CTL_DWELL_LOG2 n < count) then ok s
  else
    let pt := s.rd R.LANEP_EYE_STAT_POINT n
    let s := s.spWrite (s.rd R.LANEP_EYE_DEST_BLOCK n * 16384 + 2 * pt) (leBytes 2 (min count 0xFFFF))
    let s := s.wr R.LANEP_EYE_STAT_POINT (pt + 1) n
    if pt + 1 < 8192 then ok s
    else ok (((s.wr R.LANEP_EYE_STAT_BUSY 0 n).wr R.LANEP_EYE_STAT_DONE 1 n).raise .lanep n 4)

end Sys2Proof.Machine
end

