-- ==== Sys2Proof/Machine/Framer.lean ====
section
/-! DEFINITION. The lane framer: alignment, the received frame, the transmitted frame, and the drawer port of a lane
(R45 to R51, R67 to R88, R115). -/
namespace Sys2Proof.Machine

/-! Frame alignment (R82 to R84). -/

/-- The framer of lane `n` searches: it runs, has signal and clock, and is not in SYNC. -/
def State.searching (s : State) (n : Nat) : Bool :=
  s.running n && !s.inSync n && !s.losCond n && !s.lolCond n

/-- A Dexgor framer searches: its lanes run, and it has signal and clock (R82, R289). -/
def State.dxSearching (s : State) (l : Nat) : Bool :=
  s.domUp 3 && s.on R.MATE_CTL_DX_EN && s.dxSound l && !(s.dxRx l).sync

/-- An exact match at `p` opens a candidate, or is discarded when 4 are open (R82); a Horale lane counts the discard. -/
def State.candOpen (s : State) (l : LaneId) (p : Nat) : State :=
  match l with
  | .horale n =>
    if !s.searching n then s
    else if (s.lane n).cands.length < 4 then (s.updLane n (fun l => { l with cands := l.cands ++ [(p, 0)] })).showCands n
    else s.count .lanef n 5
  | .dexgor l =>
    let r := s.dxRx l
    if !s.dxSearching l ∨ 4 ≤ r.cands.length then s else s.setDxRx l { r with cands := r.cands ++ [(p, 0)] }

/-- FAS_CANDIDATE_OPEN. -/
def execFasCandidateOpen (l : LaneId) (p : Nat) (s : State) : Host.Outcome State Fault Refusal := ok (s.start.candOpen l p)

/-- Whether the FAS at `q` confirms a candidate at `p` (R83): q within W of a frame after p, at or after the region's end
e = p + 64 + N + S, with at most 64 filler differences. -/
def confirms (rate p q stuff diff : Nat) : Bool :=
  let w := nomBits rate / 1000
  decide (p + 64 + regionBits rate + stuff ≤ q) && decide (q ≤ p + nomBits rate + w) &&
  decide (p + nomBits rate - w ≤ q) && decide (diff ≤ 64)

/-- The candidates after one at `p` moves to `q` with its count one higher. -/
def moveCand (cs : List (Nat × Nat)) (p q : Nat) : List (Nat × Nat) :=
  match cs with
  | [] => []
  | c :: r => if c.1 = p then (q, c.2 + 1) :: r else c :: moveCand r p q

/-- The candidate at `p` moves to `q` and its count rises; at CONF_N, 3 on a Dexgor lane, the framer enters SYNC (R83, R84, R289). -/
def State.candConfirm (s : State) (l : LaneId) (p q stuff diff : Nat) : State :=
  match l with
  | .horale n =>
    let l := s.lane n
    match mget? l.cands p with
    | none => s
    | some c =>
      if !s.searching n ∨ !confirms (s.rate n) p q stuff diff then s
      else if s.rd R.LANEF_CTL_CONF_N n ≤ c + 1 then s.enterSync n
      else (s.setLane n { l with cands := moveCand l.cands p q }).showCands n
  | .dexgor l =>
    let r := s.dxRx l
    match mget? r.cands p with
    | none => s
    | some c =>
      if !s.dxSearching l ∨ !confirms 2 p q stuff diff then s
      else if 3 ≤ c + 1 then s.setDxRx l { r with sync := true, cands := [], errFas := 0 }
      else s.setDxRx l { r with cands := moveCand r.cands p q }

/-- FAS_CANDIDATE_CONFIRM. -/
def execFasCandidateConfirm (l : LaneId) (p q stuff diff : Nat) (s : State) : Host.Outcome State Fault Refusal :=
  ok (s.start.candConfirm l p q stuff diff)

/-- The candidate at `p` is dropped (R83). -/
def State.candDrop (s : State) (l : LaneId) (p : Nat) : State :=
  match l with
  | .horale n => (s.updLane n (fun l => { l with cands := l.cands.filter (fun c => c.1 != p) })).showCands n
  | .dexgor l => s.setDxRx l { s.dxRx l with cands := (s.dxRx l).cands.filter (fun c => c.1 != p) }

/-- FAS_CANDIDATE_DROP. -/
def execFasCandidateDrop (l : LaneId) (p : Nat) (s : State) : Host.Outcome State Fault Refusal := ok (s.start.candDrop l p)

/-! The overhead received (R70 to R81). -/

/-- A value reaches a run; it is accepted when it has come 3 times in a row and is not the accepted one. `seen` says that a value has
been accepted at all: until then the register shows its reset value, and the first value accepted is new whatever it is (R71,
DEDUCED, log entry 93). -/
def acceptRun (r : Run) (v acc : Nat) (seen : Bool) : Run × Option Nat :=
  let r := runPush r v
  (r, if r.n ≥ 3 ∧ (v ≠ acc ∨ !seen) then some v else none)

/-- A REQUEST that is not reserved (R76). -/
def apsReqOk (v : Nat) : Bool := [0xF, 0xD, 0xB, 9, 7, 5, 1, 0].contains (v / 4096 % 16)

/-- An APS value without a reserved REQUEST, SIGNAL or ARCH; the protection bank takes another as the last one (R76). -/
def apsOk (v : Nat) : Bool := apsReqOk v && decide (v / 256 % 16 ≤ 1) && v / 128 % 2 == 0

/-- The unit byte, the APS bytes and the feedback group are accepted; not in a near-end loop (R63, R71). -/
def State.acceptOh (s : State) (n : Nat) (lo : List Byte) : State :=
  if s.nearLoop n then s.updLane n (fun l => { l with runUnit := {}, runAps := {}, runFb := {} })
  else
    let l := s.lane n
    let u := acceptRun l.runUnit (ofBe (sliceBytes lo 9 1)) (s.rd R.LANEF_RX_UNIT_UNIT n) (l.accSeen.testBit 0)
    let apsAcc := s.rd R.LANEF_RX_APS_APS n
    let a := acceptRun l.runAps (ofBe (sliceBytes lo 10 2)) apsAcc (l.accSeen.testBit 1)
    let f := acceptRun l.runFb (ofBe (sliceBytes lo 12 4)) (s.rd R.LANEF_RX_FB_FB n) (l.accSeen.testBit 2)
    let seen := l.accSeen ||| (b2n u.2.isSome + 2 * b2n a.2.isSome + 4 * b2n f.2.isSome)
    let s := s.setLane n { l with runUnit := u.1, runAps := a.1, runFb := f.1, accSeen := seen,
                                  apsAt := if 3 ≤ a.1.n then some s.frame else l.apsAt,
                                  apsGood := if a.1.n ≥ 3 ∧ apsOk a.1.v then a.1.v else l.apsGood }
    let s := match u.2 with
      | some v => (s.wr R.LANEF_RX_UNIT_UNIT v n).raise .lanef n 14
      | none => s
    let s := match a.2 with
      | some v => (s.wr R.LANEF_RX_APS_APS v n).raise .lanef n 12
      | none => s
    match f.2 with
    | some v => (s.wr R.LANEF_RX_FB_FB v n).raise .lanef n 13
    | none => s

/-- LABEL and RATE are accepted. LABEL_MM is raised when what is accepted has a label that is neither 0x01 nor 0xFF, or a rate that
differs from RATE_ACTIVE, and when an accepted value comes to be so because RATE_ACTIVE changed (R81). -/
def State.acceptLabel (s : State) (n : Nat) (lo : List Byte) : State :=
  let l := s.lane n
  let acc := s.rd R.LANEF_RX_LABEL_LABEL n
  let a := acceptRun l.runLabel (ofBe (sliceBytes lo 38 2)) acc (l.accSeen.testBit 3)
  let seen := l.accSeen ||| 8 * b2n a.2.isSome
  let v := a.2.getD acc
  let mm := seen.testBit 3 && ((v / 256 != 1 && v / 256 != 0xFF) || v / 64 % 4 != s.rate n)
  let s := s.setLane n { l with runLabel := a.1, accSeen := seen, labelMm := mm }
  let s := if a.2.isSome then s.wr R.LANEF_RX_LABEL_LABEL v n else s
  if mm && (a.2.isSome || !l.labelMm) then s.raise .lanef n 15 else s

/-- The raw conditions of lane AIS and lane RDI, each after 3 frames (R91). -/
def State.acceptAlarms (s : State) (n : Nat) (lo : List Byte) : State :=
  let l := s.lane n
  let ra := runPush l.runAis (b2n (lo.getD 38 0 == 0xFF))
  let rr := runPush l.runRdi (b2n ((lo.getD 8 0).getLsbD 2))
  let s := s.setLane n { l with runAis := ra, runRdi := rr }
  let s := if ra.n ≥ 3 then s.setRawDef n 4 (ra.v != 0) else s
  if rr.n ≥ 3 then s.setRawDef n 5 (rr.v != 0) else s

/-- The trace assembly after one LO5 byte: what is being assembled, and a message of 64 bytes when it is complete (R74). -/
def traceStep (asm : Option (List Byte)) (b : Byte) : Option (List Byte) × Option (List Byte) :=
  if b.getLsbD 7 then (some [b], none)
  else
    match asm with
    | none => (none, none)
    | some l => if l.length = 63 then (none, some (l ++ [b])) else (some (l ++ [b]), none)

/-- 64 bytes written to a trace message area, 16 words of 4 bytes (R9). -/
def State.wrTrace (s : State) (f : Fld) (n : Nat) (m : List Byte) : State :=
  (List.range 16).foldl (fun s w => s.wr f (ofLe (sliceBytes m (4 * w) 4)) n w) s

/-- The 16 words of a trace message area. -/
def State.rdTrace (s : State) (f : Fld) (n : Nat) : List Nat := (List.range 16).map (fun w => s.rd f n w)

/-- A trace byte arrives; the third identical message in a row is accepted (R74). TIM is judged (R91). -/
def State.acceptTrace (s : State) (n : Nat) (b : Byte) : State :=
  let l := s.lane n
  let t := traceStep l.asm b
  let s := match t.2 with
    | none => s.setLane n { l with asm := t.1 }
    | some m =>
      let k := if m = l.lastMsg then l.msgN + 1 else 1
      let s := s.setLane n { l with asm := t.1, lastMsg := m, msgN := min k 3 }
      if k = 3 then (s.wrTrace R.LANEF_TRACE_ACC_BYTES n m).raise .lanef n 11 else s
  s.setRawDef n 6 (s.on R.LANEF_CTL_TIM_EN n && s.rdTrace R.LANEF_TRACE_ACC_BYTES n != s.rdTrace R.LANEF_TRACE_EXP_BYTES n)

/-- A message ring is full: its pointers differ only in bit 4 (R79). -/
def ringFull (wr rd : Nat) : Bool := wr ^^^ rd == 16

/-- The BIP-16 of the last frame is checked against LO6-LO7, REI is counted, and the last frame's cell is written to the
receive ring or discarded (R72, R80). -/
def State.checkBip (s : State) (n : Nat) (lo : List Byte) (bip : Nat) : State :=
  let l := s.lane n
  let s := s.count .lanef n 4 ((lo.getD 8 0).toNat / 8)
  let viol := match l.bipPrev with
    | some p => bipViolations p (ofBe (sliceBytes lo 6 2))
    | none => 0
  let s := if l.bipPrev.isSome then
      ((s.wr R.LANEF_BIP_LAST_COUNT viol n).count .lanef n 3 viol).updLane n (fun l => { l with reiNow := viol })
    else s
  let wrp := s.rd R.LANEF_MSG_PTR_RX_WR n
  let s := match l.cell with
    | none => s
    | some c =>
      if s.on R.LANEF_MSG_CTL_RX_EN n ∧ viol = 0 ∧ !ringFull wrp (s.rd R.LANEF_MSG_PTR_RX_RD n) then
        let s := s.spWrite (s.rd R.LANEF_MSG_CTL_BLOCK n * 512 + 256 + 16 * (wrp % 16)) c
        (s.wr R.LANEF_MSG_PTR_RX_WR (wrp + 1) n).raise .lanef n 16
      else s.cellDropped n
  let c := sliceBytes lo 22 16
  s.updLane n (fun l => { l with bipPrev := some bip, cell := if (lo.getD 22 0).getLsbD 7 then some c else none })

/-- `a` divided by `b`, rounded to the nearest. -/
def roundDiv (a : Int) (b : Nat) : Int := if b = 0 then 0 else (2 * a + b) / (2 * b)

/-- The mean of frame-length differences, as an offset in 0.01 ppm of the nominal length (R87). -/
def meanOffset (ds : List Int) (nom : Nat) : Int := roundDiv (ds.foldl (· + ·) 0 * 100000000) (nom * ds.length)

/-- The received frame length: FILL_MM, FAR_OFFSET, OSC_DIFF and FRX (R87, R88, R91). PREV_FILL is compared with the filler of the frame
just before, which the first frame in SYNC has not. Until 64 frames have come the averages are over those there are (DESIGN CHOICE,
log entry 93). -/
def State.frameLength (s : State) (n : Nat) (lo : List Byte) (removed fill : Nat) : State :=
  let l := s.lane n
  let r := s.rate n
  let s := if !l.fillSeen ∨ ofBe (sliceBytes lo 20 2) = s.rd R.LANEP_FILL_RX_COUNT n / 4 then s
    else (s.count .lanef n 6).raise .lanef n 18
  let lrx := 64 + regionBits r + removed + fill
  let hist := (lrx :: l.lrx).take 64
  let s := s.setLane n { l with lrx := hist, fillSeen := true }
  let s := (s.wr R.LANEP_FILL_RX_COUNT fill n).wr R.LANEP_STUFF_RX_COUNT removed n
  let far := meanOffset (hist.map (fun x : Nat => (x : Int) - (nomBits r : Int))) (nomBits r)
  let osc := meanOffset ((hist.zip l.ltx).map (fun x : Nat × Nat => (x.1 : Int) - (x.2 : Int))) (nomBits r)
  let s := (s.wr R.LANEF_FAR_OFFSET_OFFSET (ofSigned 20 far) n).wr R.LANEF_OSC_DIFF_DIFF (ofSigned 20 osc) n
  s.setRawDef n 9 (decide ((lrx : Int) - nomBits r > nomBits r / 1000 ∨ (nomBits r : Int) - lrx > nomBits r / 1000))

/-- Column `c` of a payload array of `cols` columns, sent row by row (R68). -/
def payloadCol (p : Array Byte) (cols c : Nat) : List Byte := (List.range 36).map (fun r => p.getD (r * cols + c) 0)

/-- Every drawer of lane `n` takes its column of a received frame whose row 0 arrives in core row `row` (R99 to R114). -/
def rxColumns (n cols row : Nat) (p : Array Byte) (ds : SMap Drawer) : SMap Drawer × DrwStat :=
  (List.range cols).foldl (fun a c =>
    let d := mapGet {} a.1 (n * 8192 + c)
    let t := rxDrawer d (payloadCol p cols c) row
    (mapSet {} a.1 (n * 8192 + c) t.1,
     { just := a.2.just + t.2.just, inval := a.2.inval + t.2.inval,
       err := a.2.err + (if d.monEn then t.2.err else 0), jce := a.2.jce + t.2.jce })) (ds, {})

/-- The payload reaches the pointer processor, unless lane failure action (a) applies (R91, R436). -/
def State.deliver (s : State) (n : Nat) (skew : Nat) (payload : List Byte) : State :=
  let s := if s.rd R.LANEF_SKEW_ROW_SKEW n = skew then s else (s.wr R.LANEF_SKEW_ROW_SKEW skew n).raise .lanef n 21
  if s.actionA n then s
  else
    let t := rxColumns n (rateCols (s.rate n)) (36 * s.frame + skew) payload.toArray s.drawers
    let s := { s with drawers := t.1 }
    (((s.count .lanef n 8 t.2.just).count .lanef n 0xB t.2.err).count .lanef n 0xC t.2.inval).count .lanef n 0xD t.2.jce

/-- The far-end loop store takes a received payload; one that meets a store still full deletes a frame (R64). -/
def State.loopTake (s : State) (n : Nat) (payload : List Byte) : State :=
  if s.rd R.LANEP_STAT_LOOP_ACTIVE n ≠ 3 then s
  else
    let s := if (s.lane n).loopNew then (s.count .lanep n 5).raise .lanep n 7 else s
    s.updLane n (fun l => { l with loopStore := payload, loopNew := true })

/-- The overhead and the payload of a received frame are delivered (R72 to R91). -/
def State.rxDeliver (s : State) (n : Nat) (f : LineFrame) (skew : Nat) : State :=
  let s := s.updLane n (fun l => { l with fillNow := l.fillNow + f.fill, diffNow := l.diffNow + f.diff, violNow := l.violNow + f.viol })
  let s := ((s.count .lanep n 2 f.removed).count .lanep n 3 f.viol).count .lanep n 4 f.diff
  let s := s.count .lanef n 1
  let bytes := bitsToBytes (scramble scrInit f.data)
  let lo := bytes.take 56
  let s := s.checkBip n lo (bip16 0 0 f.data)
  let s := s.wr R.LANEF_RX_EPOCH_EPOCH (ofBe (sliceBytes lo 0 5)) n
  let s := s.acceptTrace n (lo.getD 5 0)
  let s := ((s.acceptOh n lo).acceptLabel n lo).acceptAlarms n lo
  let s := s.frameLength n lo f.removed f.fill
  ((s.loopTake n (bytes.drop 56)).deliver n skew (bytes.drop 56)).mark (.frame n)

/-- The FAS that ends a received frame is good or errored; after LOSS_M errored ones in a row the framer enters SEARCH (R85). -/
def State.rxFas (s : State) (n : Nat) (errored : Bool) : State :=
  let e := if errored then (s.lane n).errFas + 1 else 0
  let s := if errored then s.count .lanef n 2 else s
  if s.rd R.LANEF_CTL_LOSS_M n ≤ e then s.enterSearch n else s.updLane n (fun l => { l with errFas := e })

/-- A frame received in SYNC on lane `n`, from the bits that follow its FAS (R85 to R91). Too few bits make no frame. -/
def State.rxFrame (s : State) (n : Nat) (bs : List Bool) (skew : Nat) : Option State :=
  match lineFrame (s.rate n) bs with
  | none => none
  | some f => some ((s.rxDeliver n f skew).rxFas n f.errored)

/-- TX_INV and RX_INV of the settings in use on lane `n` (R55). -/
def State.txInv (s : State) (n : Nat) : Bool := (recByte (s.lane n).inUse 0).testBit 0
def State.rxInv (s : State) (n : Nat) : Bool := (recByte (s.lane n).inUse 0).testBit 1

/-- What a near-end loop returns of the lane's own last frame, through the polarity that its path passes: both of them at the pads
in the serial loop, none ahead of the PMA in the parallel loop (R55, R61; DEDUCED, log entry 91). -/
def State.loopBits (s : State) (n : Nat) (t : List Bool × Nat) : List Bool :=
  polarity (s.rd R.LANEP_STAT_LOOP_ACTIVE n == 1 && (s.txInv n != s.rxInv n)) (t.1 ++ fillerBits t.2 ++ fasBits)

/-- LANE_FRAME_RX on a Horale lane: in SYNC the frame is taken; in a near-end loop the lane's own last frame is, in place of
what the pins bring (R61, R435). RX_INV inverts what the pins bring (R55). -/
def State.laneRxHorale (s : State) (n : Nat) (f : RxFrame) : Option State :=
  if !s.running n || !s.inSync n then some s
  else if s.nearLoop n then
    match (s.lane n).lastTx with
    | none => some s
    | some t => s.rxFrame n (s.loopBits n t) f.rowSkew.val
  else s.rxFrame n (polarity (s.rxInv n) f.bits) f.rowSkew.val

/-! The transmitted frame (R45 to R51, R70 to R81). -/

/-- ACTIVE (R75, R388): SOLO and PRIMARY, and MAINT without a mate. -/
def State.active (s : State) : Bool :=
  s.mode == mSOLO || s.mode == mPRIMARY || (s.mode == mMAINT && !s.on R.GLOBAL_STRAP_MATE_PRESENT)

/-- The unit byte (R75). -/
def State.unitByte (s : State) : Nat :=
  b2n (s.on R.GLOBAL_STRAP_SIDE) * 128 + b2n s.active * 64 + b2n (s.mode == mISOLATE) * 32 + s.mode % 8

/-- Lane AIS is sent: in ISOLATE or while FORCE_AIS = 1 (R81, R401, R402). -/
def State.sendsAis (s : State) (n : Nat) : Bool := s.mode == mISOLATE || s.on R.LANEF_CTL_FORCE_AIS n

/-- LO12 of lane `n` (R77, R78). -/
def State.lo12 (s : State) (n : Nat) : Nat :=
  let own := s.laneFailed n
  let other := s.on R.LANEF_FB_TX_PARTNER_EN n && s.laneFailed (s.rd R.LANEF_FB_TX_PARTNER n)
  let farB := s.on R.LANEF_FB_TX_FAR_SIDE n
  s.rd R.LANEF_FB_TX_EN n * 128 + s.rd R.LANEF_FB_TX_SEL n * 32 +
  b2n (if farB then other else own) * 16 + b2n (if farB then own else other) * 8

/-- The cell at TX_RD is taken for sending, or 16 zero bytes are sent (R80). A parity failure sends zeros and counts a
discard (R359). -/
def State.takeCell (s : State) (n : Nat) : State × List Byte :=
  let rdp := s.rd R.LANEF_MSG_PTR_TX_RD n
  if !s.on R.LANEF_MSG_CTL_TX_EN n ∨ rdp = s.rd R.LANEF_MSG_PTR_TX_WR n then (s, List.replicate 16 0)
  else
    let o := s.rd R.LANEF_MSG_CTL_BLOCK n * 512 + 16 * (rdp % 16)
    let s' := s.wr R.LANEF_MSG_PTR_TX_RD (rdp + 1) n
    match s.spDetect o 16 with
    | some w => ((s'.spDet w (portB w)).cellDropped n, List.replicate 16 0)
    | none =>
      let c := s.spBytes o 16
      (s', (c.getD 0 0 ||| 0x80) :: c.drop 1)

/-- Byte `i` of TRACE_TX. -/
def State.traceTx (s : State) (n i : Nat) : Nat := bits (s.rd R.LANEF_TRACE_TX_BYTES n (i / 4)) (8 * (i % 4)) 8

/-- The lane overhead of the frame that starts now on lane `n` (R70). -/
def State.overhead (s : State) (n : Nat) (cell : List Byte) : List Byte :=
  let l := s.lane n
  let i := s.epoch % 64
  beBytes 5 s.epoch ++ [BitVec.ofNat 8 (b2n (i == 0) * 128 + s.traceTx n i % 128)] ++ beBytes 2 l.bipTx ++
  [BitVec.ofNat 8 (l.reiTx * 8 + b2n l.rdiTx * 4), BitVec.ofNat 8 s.unitByte] ++ beBytes 2 l.apsTx ++
  [BitVec.ofNat 8 l.lo12, BitVec.ofNat 8 l.fbSeq] ++ beBytes 2 (s.rd R.LANEF_FB_TX_PORT_ID n) ++ [0, 0, 0, 0] ++
  beBytes 2 (s.rd R.LANEP_FILL_TX_COUNT n / 4) ++ cell ++
  [if s.sendsAis n then 0xFF else 1, BitVec.ofNat 8 (s.rate n * 64)] ++ List.replicate 16 0

/-- The payload array that lane `n` sends: its output columns, row by row (R68). -/
def State.fabricPayload (s : State) (n : Nat) : List Byte :=
  let cols := rateCols (s.rate n)
  (List.range 36).flatMap (fun r =>
    (List.range cols).map (fun c => (mapGet uneqCol s.outCols (n * 8192 + c)).b.getD r 0))

/-- The payload of the frame being closed: all ones under lane AIS (R81), the loop store in a far-end loop (R64), the fabric's
output otherwise. A far-end loop that has received nothing yet has nothing to return, and discards the fabric's output all the same
(R61): its bytes are free values (log entry 12). -/
def State.txPayload (s : State) (n : Nat) (lo : List Byte) : List Byte :=
  let len := 36 * rateCols (s.rate n)
  if lo.getD 38 0 = 0xFF then List.replicate len 0xFF
  else if s.rd R.LANEP_STAT_LOOP_ACTIVE n = 3 then
    if (s.lane n).loopStore = [] then (List.range len).map (Config.loopEmpty s.fresh) else (s.lane n).loopStore
  else s.fabricPayload n

/-- The far-end loop's store has been sent; one already sent before is repeated, which is a slip (R64). -/
def State.loopSent (s : State) (n : Nat) : State :=
  if s.rd R.LANEP_STAT_LOOP_ACTIVE n ≠ 3 then s
  else if (s.lane n).loopStore = [] then s.takeFresh
  else if (s.lane n).loopNew then s.updLane n (fun l => { l with loopNew := false })
  else (s.count .lanep n 5).raise .lanep n 7

/-- The frame being sent is closed on the tick: the filler takes the bits that are left (R49). -/
def State.txClose (s : State) (n : Nat) (bits : Nat) : State :=
  match (s.lane n).ohead with
  | none => s
  | some lo =>
    let region := scramble scrInit (bytesToBits (lo ++ s.txPayload n lo))
    let st := stuffCount false 0 region
    let fill := bits - (64 + region.length + st)
    let sent := stuff false 0 region
    let s := s.loopSent n
    let s := s.updLane n (fun l => { l with bipTx := bip16 0 0 region, lastTx := some (sent, fill),
                                             ltx := ((64 + region.length + st + fill) :: l.ltx).take 64, ohead := none })
    let s := (s.wr R.LANEP_FILL_TX_COUNT fill n).wr R.LANEP_STUFF_TX_COUNT st n
    (s.count .lanep n 1 st).emit (.lane (.horale (Fin.ofNat 64 n)) fasWord sent fill (s.txInv n))

/-- The next frame starts: its overhead is latched, the message cell is taken, FB_SEQ advances on a change of LO12 (R70, R78). -/
def State.txStart (s : State) (n : Nat) : State :=
  let t := s.takeCell n
  let s := t.1
  let v := s.lo12 n
  let s := s.updLane n (fun l => { l with lo12 := v, fbSeq := if l.lo12 = v then l.fbSeq else (l.fbSeq + 1) % 256 })
  let oh := s.overhead n t.2
  s.updLane n (fun l => { l with ohead := some oh })

/-- What the transmitter pins of lane `n` do (R65, R399, R404). A soft reset changes no output (R400). -/
def State.laneDrive (s : State) (n : Nat) : Drive :=
  if s.pow.phase = .unpowered ∨ !s.pow.on.getLsbD (20 + n / 4) then .undriven
  else if s.pow.phase = .resetN ∨ !s.running n ∨ s.on R.LANEP_REF_OFFSET_REF_RANGE n then .common
  else if (s.lane n).txHeld then .filler
  else .frames

/-- The receiver of lane `n` is terminated: the module and the quad's PMA domain are powered (R65). -/
def State.laneTerminated (s : State) (n : Nat) : Bool := s.pow.phase != .unpowered && s.pow.on.getLsbD (20 + n / 4)

/-- FRAME_TICK on a Horale lane: it sends a frame, or its pins do what R65 and R404 say of a lane that sends none. -/
def State.frameTickHorale (s : State) (n : Nat) (bits : Nat) : State :=
  match s.laneDrive n with
  | .frames => (s.txClose n bits).txStart n
  | d => (s.updLane n (fun l => { l with ohead := none })).emit (.laneIdle (.horale (Fin.ofNat 64 n)) d)

/-! Self-recovery of the framers (R404). -/

/-- RX_FRAMER_TIMEOUT, 2 frames after the last one delivered, or after SYNC where none has been: the framer empties its elastic store and enters SEARCH. -/
def execRxFramerTimeout (n : Fin 64) (s : State) : Host.Outcome State Fault Refusal :=
  let s := s.start
  if !s.running n || !s.inSync n || !s.ran (.frame n) 150000 then ok s
  else ok (((s.enterSearch n).count .lanef n 0xE).recover 7 n)

/-- TX_FRAMER_TIMEOUT: the transmit side sends filler until the next tick and restarts at the next hinge. -/
def execTxFramerTimeout (n : Fin 64) (s : State) : Host.Outcome State Fault Refusal :=
  let s := s.start
  if !s.running n then ok s
  else ok (((s.updLane n (fun l => { l with txHeld := true, ohead := none })).count .lanef n 0xE).recover 8 n)

/-! The drawer port of a lane (R115). -/

/-- DRW_CFG as a word, with the fields in their places. -/
def State.drwCfgWord (s : State) (n : Nat) : Nat :=
  s.rd R.LANEF_DRW_CFG_SD_EXP n * 256 + s.rd R.LANEF_DRW_CFG_MON_EN n * 128 + s.rd R.LANEF_DRW_CFG_JCE_EN n * 64 +
  s.rd R.LANEF_DRW_CFG_TAG_EN n * 32 + s.rd R.LANEF_DRW_CFG_PLM_AIS n * 16 + s.rd R.LANEF_DRW_CFG_PLM_EN n * 8 +
  s.rd R.LANEF_DRW_CFG_EXP_LABEL n

/-- A write of DRW_CMD with the bits `op` (1 READ, 2 WRITE, 4 CLR): the command is latched with its index and settings. -/
def State.drwCmd (s : State) (n op : Nat) : State :=
  s.portLatch (.drw (Fin.ofNat 64 n)) { op := op, idx := s.rd R.LANEF_DRW_IDX_COLUMN n, cfg := [s.drwCfgWord n] }

/-- DRW_READ. -/
def execDrwRead (n : Fin 64) (s : State) : Host.Outcome State Fault Refusal := s.onPage .lanef n (fun s => s.drwCmd n 1)

/-- DRW_READ_CLEAR. -/
def execDrwReadClear (n : Fin 64) (s : State) : Host.Outcome State Fault Refusal := s.onPage .lanef n (fun s => s.drwCmd n 5)

/-- DRW_WRITE. -/
def execDrwWrite (n : Fin 64) (s : State) : Host.Outcome State Fault Refusal := s.onPage .lanef n (fun s => s.drwCmd n 2)

/-- PSTATE of an interpreter. -/
def pstate (p : PState) : Nat :=
  match p with
  | .norm => 0 | .ais => 1 | .lop => 2

/-- The fields of DRW_CFG set from a settings word. -/
def State.wrDrwCfg (s : State) (n w : Nat) : State :=
  ((((((s.wr R.LANEF_DRW_CFG_SD_EXP (w / 256) n).wr R.LANEF_DRW_CFG_MON_EN (w / 128) n).wr R.LANEF_DRW_CFG_JCE_EN (w / 64) n).wr
    R.LANEF_DRW_CFG_TAG_EN (w / 32) n).wr R.LANEF_DRW_CFG_PLM_AIS (w / 16) n).wr R.LANEF_DRW_CFG_PLM_EN (w / 8) n).wr
    R.LANEF_DRW_CFG_EXP_LABEL w n

/-- A drawer is captured into DRW_CFG, DRW_STAT, DRW_CNT and DRW_TAG (R115). -/
def State.drwCapture (s : State) (n : Nat) (d : Drawer) : State :=
  let s := s.wrDrwCfg n d.cfg
  let s := ((s.wrB R.LANEF_DRW_STAT_TAG_SYNC d.mon.tagrx.sync n).wr R.LANEF_DRW_STAT_FILL d.store.length n).wr
    R.LANEF_DRW_STAT_LABEL_ACC (d.mon.label.getD 0) n
  let s := ((s.wr R.LANEF_DRW_STAT_PTR_CORE d.ptrCore n).wr R.LANEF_DRW_STAT_PTR_RX d.ip.cur n).wr
    R.LANEF_DRW_STAT_PSTATE (pstate d.ip.st) n
  let s := (s.wr R.LANEF_DRW_STAT_DEF d.declared n).wr R.LANEF_DRW_TAG_TAG d.mon.tagrx.tag n
  ((s.wr R.LANEF_DRW_CNT_JUST_CORE d.justCore n).wr R.LANEF_DRW_CNT_JUST_RX d.justRx n).wr R.LANEF_DRW_CNT_BIP_ERR d.bipErr n

/-- The command at a lane's drawer port completes, a WRITE before a READ; READ captures the settings in effect (DEDUCED, log entry
18). A column whose shelf is not present at the lane's rate sets ERR (R115). -/
def State.drwDone (s : State) (n : Nat) (c : PortCmd) : State :=
  let s := s.portFree (.drw (Fin.ofNat 64 n))
  if rateCols (s.rate n) ≤ c.idx then s.wr R.LANEF_DRW_CMD_ERR 1 n
  else
    let s := if c.op.testBit 1 then s.setDrw n c.idx ((s.drw n c.idx).written (c.cfg.headD 0x601)) else s
    if !c.op.testBit 0 then s
    else
      let d := s.drw n c.idx
      let s := s.drwCapture n d
      if c.op.testBit 2 then s.setDrw n c.idx { d with bipErr := 0, justRx := 0, justCore := 0 } else s

end Sys2Proof.Machine
end

