-- ==== Sys2Proof/Machine/Operands.lean ====
section
/-! DEFINITION. Operand forms: port-space addresses (R28 to R31), slot addresses (R32), request words (R125, R154), connection
words and their places in the windows (R130 to R133, R150 to R153), master and target numbers (R326). -/
namespace Sys2Proof.Machine

/-! Addresses. -/

/-- Port and column of a port-space address (R28). -/
def portOf (a : Nat) : Nat := a / 8192
def colOf (a : Nat) : Nat := a % 8192

/-- The number of outputs (R184): 75 ports of 8,192 columns. -/
def outCount : Nat := 75 * 8192

/-- First port-space address of the grooming, pseudowire and bench drawers (R31). -/
def groomBase : Nat := 0x80000
def pwBase : Nat := 0x90000
def benchBase : Nat := 0x94000

/-- Grooming drawer and slot number of a slot address (R32). -/
def slotDrawer (a : Nat) : Nat := a / 32
def slotNum (a : Nat) : Nat := a % 32

/-- Quarter of a slot address, of a grooming drawer and of a bridge (R156). -/
def slotQuarter (a : Nat) : Nat := a / 32 / 16384
def drawerQuarter (g : Nat) : Nat := g / 16384
def bridgeQuarter (b : Nat) : Nat := b / 2048

/-- Slot quarter `q` is on. -/
def State.quarterOn (s : State) (q : Nat) : Bool := s.domUp (44 + q)

/-- Plane group of centre slot `t` (R118). -/
def slotGroup (t : Nat) : Nat := t % 128 / 16

/-- Pseudowire half of a context (R382). -/
def ctxHalf (n : Nat) : Nat := n / 8192

/-- A port-space address is void (R30, R117): no such port, a shelf not present at its lane's rate in effect, a lane whose quad
framer domain is off, or a pseudowire half that is off. -/
def State.void (s : State) (a : Nat) : Bool :=
  let p := portOf a
  if 75 ≤ p then true
  else if p < 64 then !s.domUp (4 + p / 4) || decide (rateCols (s.rate p) ≤ colOf a)
  else if p = 72 ∨ p = 73 then !s.domUp (54 + (p - 72))
  else false

/-- Port `p` is void as a whole: its words read 0 (R133). A shelf that is not present leaves the words of its port as stored (R137). -/
def State.voidPort (s : State) (p : Nat) : Bool :=
  if 75 ≤ p then true
  else if p < 64 then !s.domUp (4 + p / 4)
  else if p = 72 ∨ p = 73 then !s.domUp (54 + (p - 72))
  else false

/-! Connection words. -/

/-- Key of a word: fabric × 2^22 + index (R133, R153). -/
def wkey (slotFabric : Bool) (i : Nat) : Nat := b2n slotFabric * 2 ^ 22 + i

/-- Key of the output word of drawer `a`, working or protect (R133). -/
def outKey (a : Nat) (prot : Bool) : Nat := 2 * a + b2n prot

/-- Key of the centre word of input port `i`, slot `t` (R133). -/
def cenKey (i t : Nat) : Nat := 2 ^ 21 + 16384 * i + t

/-- Key of the slot word of output slot `a`, and of the party word of bridge `b`, party `p` (R153). -/
def slotKey (a : Nat) : Nat := 2 ^ 22 + a
def partyKey (b p : Nat) : Nat := 2 ^ 22 + 2 ^ 21 + 64 * b + p

/-- What start-up writes at a key (R134, R161): slot words are constant with CODE 0xD5, all others 0. -/
def initWord (k : Nat) : Nat := if 2 ^ 22 ≤ k ∧ k < 2 ^ 22 + 2 ^ 21 then 0xD5 else 0

/-- Bits [25:0] of a word of a bank. -/
def Bank.word (b : Bank) (k : Nat) : Nat := mapGet 0 b.words k ^^^ initWord k

/-- Place of a word in the order of R176: drawer outputs, centre words, slot words, party words. -/
def wordRank (k : Nat) : Nat :=
  let i := k % 2 ^ 22
  if k < 2 ^ 22 then (if i < 2 ^ 21 then i else 1228800 + (i - 2 ^ 21))
  else (if i < 2 ^ 21 then 2457600 + i else 4554752 + (i - 2 ^ 21))

/-- The word at a place in that order. -/
def rankWord (r : Nat) : Nat :=
  if r < 1228800 then r
  else if r < 2457600 then 2 ^ 21 + (r - 1228800)
  else if r < 4554752 then 2 ^ 22 + (r - 2457600)
  else 2 ^ 22 + 2 ^ 21 + (r - 4554752)

/-- The burst of its image that holds a word's record, 16 records to a burst (R178, R210). -/
def burstKey (k : Nat) : Nat := wordRank k / 16

/-- Bursts of an image (R178). -/
def imageBursts : Nat := 317440

/-- A word exists at index `i` of a window: R133 and R153. -/
def wordExists (slotFabric : Bool) (i : Nat) : Bool :=
  if slotFabric then decide (i < 2 ^ 21 + 524288)
  else decide (i < 2 * outCount) || (decide (2 ^ 21 ≤ i) && decide (i < 2 ^ 21 + 75 * 16384))

/-- DET of a word (R132): CRC-6 over bits [25:0] and the 22-bit index. -/
def detCode (k w : Nat) : Nat := crc6 (beBits 26 w ++ beBits 22 (k % 2 ^ 22))

/-- Window offset of a word: 4 × its index (R133, R153). -/
def windowOffset (k : Nat) : Nat := 4 * (k % 2 ^ 22)

/-- KIND of an output or slot word, and CSLOT of an output word (R130, R150). -/
def wKind (w : Nat) : Nat := bits w 24 2
def wCslot (w : Nat) : Nat := bits w 0 14

/-- VALID, OPORT and ICOL of a centre word (R131). -/
def wValid (w : Nat) : Bool := w.testBit 25
def wOport (w : Nat) : Nat := bits w 13 7
def wIcol (w : Nat) : Nat := bits w 0 13

/-- The words of each kind. -/
def unequippedWord : Nat := 0
def aisWord : Nat := 2 * 2 ^ 24
def routeWord (t : Nat) : Nat := 2 ^ 24 + t % 16384
def centreWord (oport icol : Nat) : Nat := 2 ^ 25 + oport % 128 * 2 ^ 13 + icol % 8192
def constWord (code : Nat) : Nat := code % 256
def slotWord (idle : Bool) (src : Nat) : Nat := 2 ^ 24 + b2n idle * 2 ^ 23 + src % 2 ^ 21
def legWord (idle : Bool) (b p : Nat) : Nat := 2 * 2 ^ 24 + b2n idle * 2 ^ 23 + (64 * b + p) % 2 ^ 21

/-- IDLE_SEL and SRC of a slot word; JOINED, MUTE, LAW and IN of a party word (R150, R152). -/
def wIdle (w : Nat) : Bool := w.testBit 23
def wSrc (w : Nat) : Nat := bits w 0 21
def wJoined (w : Nat) : Bool := w.testBit 23
def wMute (w : Nat) : Bool := w.testBit 22
def wLaw (w : Nat) : Bool := w.testBit 21

/-- A party word: not joined is 0 (R152, R155). -/
def partyWord (join mute law : Bool) (src : Nat) : Nat :=
  if join then 2 ^ 23 + b2n mute * 2 ^ 22 + b2n law * 2 ^ 21 + (if mute then 0 else src % 2 ^ 21) else 0

/-- Key named by a word reference. -/
def refKey (w : WordRef) : Nat := wkey (w.fabric == .slot) w.index.toNat

/-! Request words (R125, R154). -/

def rqOp (w : Nat) : Nat := bits w 60 4
def rqProt (w : Nat) : Bool := w.testBit 59
def rqOut (w : Nat) : Nat := bits w 32 20
def rqIn (w : Nat) : Nat := bits w 0 20
def rqSlotOut (w : Nat) : Nat := bits w 32 21
def rqSlotIn (w : Nat) : Nat := bits w 0 21
def rqBridge (w : Nat) : Nat := bits w 32 13
def rqParty (w : Nat) : Nat := bits w 51 6
def rqMute (w : Nat) : Bool := w.testBit 57
def rqJoin (w : Nat) : Bool := w.testBit 58
def rqLegBridge (w : Nat) : Nat := bits w 6 13
def rqLegParty (w : Nat) : Nat := bits w 0 6

/-- The OPs that are not reserved (R125, R154). -/
def rqKnown (w : Nat) : Bool := [1, 2, 3, 8, 9, 0xA, 0xB].contains (rqOp w)

/-- Every field of a request that is marked 0 is 0 (R125, R154). -/
def rqZeros (w : Nat) : Bool :=
  match rqOp w with
  | 1 => bits w 52 7 == 0 && bits w 20 4 == 0
  | 2 => bits w 52 7 == 0 && bits w 0 24 == 0
  | 3 => bits w 52 7 == 0 && bits w 0 24 == 0
  | 8 => bits w 53 6 == 0 && bits w 21 3 == 0
  | 9 => bits w 53 7 == 0 && bits w 8 16 == 0
  | 0xA => bits w 45 6 == 0 && bits w 21 3 == 0 && ((rqJoin w && !rqMute w) || bits w 0 21 == 0)
  | 0xB => bits w 53 6 == 0 && bits w 19 5 == 0
  | _ => false

/-! The bus (R326). -/

/-- Number of a master. -/
def masterNum (m : Master) : Nat :=
  match m with
  | .host => 0 | .chain => 1 | .seq => 2 | .mirror => 3 | .mapc => 4 | .bench => 5

/-- Number of a target. -/
def targetNum (t : Target) : Nat :=
  match t with
  | .t0 => 0 | .t1 => 1 | .t2 => 2 | .t3 => 3 | .t4 => 4 | .t5 => 5

/-- The default target's number in ERR_INFO. -/
def defaultTarget : Nat := 7

/-- Causes of ERR_INFO (R333 and its register). -/
def cDEFAULT : Nat := 1
def cDENIED : Nat := 2
def cTIMEOUT : Nat := 3
def cLOCKBRK : Nat := 4
def cBRIDGE : Nat := 5
def cDOMOFF : Nat := 6
def cPARTIAL : Nat := 7
def cUSER : Nat := 8
def cDET : Nat := 9

/-- Target of a bus address in the host view; the default target where there is none (R326). -/
def hostTarget (a : Nat) : Nat :=
  if a < 0x10000000 then 0
  else if a < 0x20000000 then 1
  else if a < 0x30000000 then 2
  else if a < 0x30080000 then 3
  else if 0x40000000 ≤ a ∧ a < 0x50000000 then 4
  else defaultTarget

/-- Address in the host view of an address of the control view (R327); `none` where it is the boot ROM, with the ROM offset, or
the default target. -/
inductive CtlAddr where
  | host (a : Nat) | rom (o : Nat) | default
  deriving DecidableEq, Repr

/-- The control view (R327). -/
def ctlView (remap : Bool) (a : Nat) : CtlAddr :=
  if a < 0x10000 then (if remap then .host (0x30000000 + a) else .rom a)
  else if a < 0x80000 then (if remap then .host (0x30000000 + a) else .default)
  else if 0x08000000 ≤ a ∧ a < 0x0800D000 then .host (a - 0x08000000)
  else if 0x09000000 ≤ a ∧ a < 0x09010000 then .rom (a - 0x09000000)
  else .host a

/-- Whether the table of R326 admits master `m` to target `t`, for a write or a read. -/
def admits (m t : Nat) (write : Bool) : Bool :=
  match t with
  | 0 => decide (m ≤ 4)
  | 1 => if m = 4 then true else decide (m ≤ 2) && !write
  | 2 => if m = 4 then true else decide (m ≤ 2) && !write
  | 3 => decide (m ≤ 5)
  | 4 => decide (m ≤ 2) || (m == 4 && !write) || (m == 5 && write)
  | 5 => m == 2 && !write
  | _ => false

/-- An error response is recorded (R333). -/
def State.busErr (s : State) (m t addr cause : Nat) : State :=
  let s := (((s.wr R.MATRIX_ERR_ADDR_ADDR addr).wr R.MATRIX_ERR_INFO_CAUSE cause).wr R.MATRIX_ERR_INFO_MASTER m).wr
    R.MATRIX_ERR_INFO_TARGET t
  ((s.wr R.MATRIX_ERR_INFO_VALID 1).count .matrix 0 2).raise .matrix 0 0

end Sys2Proof.Machine
end

