-- ==== Sys2Proof/Machine/Dram.lean ====
section
/-! DEFINITION. External memory: configuration, training and health of the channels (R204 to R206), the check of each burst
(R207, R208), the host windows (R209 to R214), and reads of the stores behind the matrix. -/
namespace Sys2Proof.Machine

/-- Domains of channel `c`, its controller core and its PHY, are usable (R382). -/
def State.channelUp (s : State) (c : Nat) : Bool := s.domUp (48 + c) && s.domUp (50 + c)

/-- Channel `c` is trained and in service. -/
def State.trained (s : State) (c : Nat) : Bool := s.on R.DRAMC_STAT_TRAINED c

/-- DRAM is ready: both channels are trained (R206). -/
def State.dramReady (s : State) : Bool := s.trained 0 && s.trained 1

/-- CFG as a word, RANKS in bit 2. -/
def State.dramCfg (s : State) (c : Nat) : Nat :=
  s.rd R.DRAMC_CFG_SPEED c * 64 + s.rd R.DRAMC_CFG_WIDTH c * 32 + s.rd R.DRAMC_CFG_DENSITY c * 8 + s.rd R.DRAMC_CFG_RANKS c * 4 +
  s.rd R.DRAMC_CFG_VALID c

/-- Capacity of channel `c` in GiB (R205). -/
def State.channelGiB (s : State) (c : Nat) : Nat :=
  (s.rd R.DRAMC_CFG_RANKS c + 1) * (if s.on R.DRAMC_CFG_WIDTH c then 4 else 8) * 2 ^ s.rd R.DRAMC_CFG_DENSITY c

/-- The channel's CFG is refused: a reserved code was written to it, or its capacity is above 32 GiB (R205, R206). -/
def State.dramCfgBad (s : State) (c : Nat) : Bool := s.dramRsv.getLsbD c || decide (32 < s.channelGiB c)

/-- The two channels are described differently (R205, R206). -/
def State.dramMismatch (s : State) : Bool := s.dramCfg 0 != s.dramCfg 1

/-- CFG_ERR of both channels and MISMATCH follow the CFGs (R206). -/
def State.dramJudge (s : State) : State :=
  ((s.wrB R.DRAMC_STAT_CFG_ERR (s.dramCfgBad 0) 0).wrB R.DRAMC_STAT_CFG_ERR (s.dramCfgBad 1) 1).wrB R.DRAMC_STAT_MISMATCH s.dramMismatch 1

/-- No channel may train while its CFG is refused or differs from the other's (R206). -/
def State.dramRefused (s : State) (c : Nat) : Bool := s.dramCfgBad c || s.dramMismatch

/-- Bring-up of channel `c` starts when CFG.VALID = 1 and its domains are on, and stops where CFG is refused (R206). -/
def State.dramBringUp (s : State) (c : Nat) : State :=
  let s := s.dramJudge
  if s.dramRefused c || !s.on R.DRAMC_CFG_VALID c then s.wr R.DRAMC_STAT_TRAIN_BUSY 0 c
  else if !s.channelUp c || s.trained c || s.on R.DRAMC_STAT_TRAIN_BUSY c then s
  else (((s.wr R.DRAMC_STAT_TRAIN_BUSY 1 c).wr R.DRAMC_STAT_TRAIN_FAIL 0 c).wr R.DRAMC_STAT_FAIL_STEP 0 c).mark (.train c)

/-- A reserved code in a CFG word: SPEED 3 or DENSITY 3. -/
def cfgReserved (v : Nat) : Bool := bits v 6 2 == 3 || bits v 3 2 == 3

/-- CFG is written; while the channel is trained the write is ignored (R206). A field whose new code is reserved keeps its value (R16),
and CFG_ERR shows that a reserved code was written (R206) until a CFG without one is. Both channels are judged again, since one's
CFG lets the other train. -/
def State.dramCfgWrite (s : State) (c v : Nat) : State :=
  if s.trained c then s.wr R.DRAMC_STAT_CFG_REFUSED 1 c
  else
    let s := if bits v 6 2 = 3 then s else s.wr R.DRAMC_CFG_SPEED (v / 64) c
    let s := if bits v 3 2 = 3 then s else s.wr R.DRAMC_CFG_DENSITY (v / 8) c
    let s := ((s.wr R.DRAMC_CFG_WIDTH (v / 32) c).wr R.DRAMC_CFG_RANKS (v / 4) c).wr R.DRAMC_CFG_VALID v c
    let s := { s with dramRsv := BitVec.ofNat 2 (putBit s.dramRsv.toNat c (cfgReserved v)) }
    (s.dramBringUp 0).dramBringUp 1

/-- DRAM_CFG_WRITE. -/
def execDramCfgWrite (c : Fin 2) (v : W32) (s : State) : Host.Outcome State Fault Refusal :=
  s.onPage .dramc c (fun s => s.dramCfgWrite c.val v.toNat)

/-- A channel's memory goes out of service: it keeps no data (R206). -/
def State.dramLost (s : State) (c : Nat) : State :=
  let s := ((((s.wr R.DRAMC_STAT_TRAINED 0 c).wr R.DRAMC_STAT_TRAIN_BUSY 0 c).wr R.DRAMC_STAT_HOT 0 c).wr
    R.DRAMC_STAT_TRAIN_FAIL 0 c).wr R.DRAMC_STAT_FAIL_STEP 0 c
  { s with dram := mapKeep (fun b => b % 2 != c) s.dram,
           mc := { s.mc with act := { s.mc.act with clean := [] }, edit := { s.mc.edit with clean := [] }, dirty := [] } }

/-- DRAM_TRAIN_DONE: the channel is in service (R206). -/
def execDramTrainDone (c : Fin 2) (s : State) : Host.Outcome State Fault Refusal :=
  let s := s.start
  if !s.on R.DRAMC_STAT_TRAIN_BUSY c then ok s
  else ok (((s.wr R.DRAMC_STAT_TRAIN_BUSY 0 c).wr R.DRAMC_STAT_TRAINED 1 c).raise .dramc c 1).readyChk

/-- A training that ends in failure at a step (R206). -/
def State.trainFail (s : State) (c step : Nat) : State :=
  (((s.wr R.DRAMC_STAT_TRAIN_BUSY 0 c).wr R.DRAMC_STAT_TRAIN_FAIL 1 c).wr R.DRAMC_STAT_FAIL_STEP step c).raise .dramc c 2

/-- DRAM_TRAIN_FAIL. -/
def execDramTrainFail (c : Fin 2) (step : BitVec 4) (s : State) : Host.Outcome State Fault Refusal :=
  let s := s.start
  if !s.on R.DRAMC_STAT_TRAIN_BUSY c then ok s else ok (s.trainFail c step.toNat)

/-- The control cycles of 80 ms. -/
def trainLimit : Nat := 48000000

/-- DRAM_TRAIN_TIMEOUT, 80 ms after the start of bring-up (R404): training stops; the step it had reached is a free value. -/
def execDramTrainTimeout (c : Fin 2) (s : State) : Host.Outcome State Fault Refusal :=
  let s := s.start
  if !s.on R.DRAMC_STAT_TRAIN_BUSY c || !s.ran (.train c) trainLimit then ok s
  else ok ((s.takeFresh.trainFail c (Config.trainStep s.fresh).toNat).recover 10 c)

/-- DQS_RETUNE: inside refresh slots, without holding traffic; nothing that software or the traffic can see changes (R206). -/
def execDqsRetune (_ : Fin 2) (s : State) : Host.Outcome State Fault Refusal := ok s.start

/-- DRAM_HOT_CHANGE: the refresh rate is doubled while any component is above 85 °C (R206). -/
def execDramHotChange (c : Fin 2) (hot : Bool) (s : State) : Host.Outcome State Fault Refusal :=
  let s := s.start
  if !s.channelUp c then ok s else ok (s.wrB R.DRAMC_STAT_HOT hot c)

/-- DRAM_QUEUE_TIMEOUT: the controller flushes a subchannel's queue (R404). Every access of the model is complete within its
command, so no read or write is cut. -/
def execDramQueueTimeout (c : Fin 2) (sub : Bool) (s : State) : Host.Outcome State Fault Refusal :=
  let s := s.start
  if !s.trained c then ok s
  else ok (((s.count .dramc c 6).raise .dramc c 4).recover 6 (2 * c.val + b2n sub))

/-- A burst fails R208: the address and cause are captured and the detection counted. `cause`: 1 CRC, 2 WTAG, 3 REGION. -/
def State.burstDet (s : State) (burst cause region : Nat) : State :=
  let c := burst % 2
  let s := ((s.wr R.DRAMC_DET_ADDR_CAUSE cause c).wr R.DRAMC_DET_ADDR_REGION region c).wr R.DRAMC_DET_ADDR_BURST burst c
  ((s.bump R.DRAMC_DET_CNT_COUNT 1 c).count .dramc c (if cause = 1 then 3 else 4)).raise .dramc c 0

/-! The check lanes (R207, R208). -/

/-- REGION of the four users (R207). -/
def rgEqualiser : Nat := 1
def rgJitter : Nat := 2
def rgRoute : Nat := 3
def rgHost : Nat := 4

/-- CRC of a burst: its 64 data bytes, check bytes 4 to 15 and its burst address (R207). -/
def burstCrc (burst : Nat) (data tail : List Byte) : Nat := crc32 (data ++ tail ++ leBytes 4 burst)

/-- The 16 check bytes of a burst (R207). -/
def checkBytes (region wtag burst : Nat) (data : List Byte) : List Byte :=
  let tail := leBytes 2 wtag ++ BitVec.ofNat 8 region :: List.replicate 9 0
  leBytes 4 (burstCrc burst data tail) ++ tail

/-- Why 80 stored bytes are no whole burst for a reader that expects `region` and `wtag`: 0 where they are one, 1 CRC, 2 WTAG, 3 REGION,
tested in the order in which R208 names them. A burst that has not been written since its channel was trained holds nothing that
passes the check (DESIGN CHOICE, log entry 95). -/
def burstCause (region wtag burst : Nat) (b : Option (List Byte)) : Nat :=
  match b with
  | none => 1
  | some b =>
    if ofLe (sliceBytes b 64 4) ≠ burstCrc burst (b.take 64) (sliceBytes b 68 12) then 1
    else if ofLe (sliceBytes b 70 1) ≠ region then 3
    else if ofLe (sliceBytes b 68 2) ≠ wtag then 2
    else 0

/-- A burst is written whole, with its check bytes. -/
def State.burstPut (s : State) (region wtag burst : Nat) (data : List Byte) : State :=
  { s with dram := mput s.dram burst (data ++ checkBytes region wtag burst data) }.count .dramc (burst % 2) 2

/-- A burst is read: its data when it is whole, or a detection (R208). -/
def State.burstGet (s : State) (region wtag burst : Nat) : State × Option (List Byte) :=
  let s := s.count .dramc (burst % 2) 1
  let b := mget? s.dram burst
  let c := burstCause region wtag burst b
  if c = 0 then (s, some ((b.getD []).take 64)) else (s.burstDet burst c region, none)

/-- Bursts whose stored bytes the environment has altered (R37): each now holds the 80 bytes given. One that holds nothing is not altered. -/
def State.upset (s : State) (us : List (Nat × List Byte)) : State :=
  { s with dram := us.foldl (fun m u => if (mget? m u.1).isSome && u.2.length == 80 then mput m u.1 u.2 else m) s.dram }

/-- Scratchpad bytes whose parity the environment has broken: it fails at every read until they are written again (R359). -/
def State.spUpset (s : State) (os : List (BitVec 19)) : State :=
  { s with spBad := os.foldl (fun m o => mput m o.toNat 1) s.spBad }

/-- The groups that the equaliser serves at the trained rate (R213): CAP, 0 until DRAM is ready. -/
def State.eqCap (s : State) : Nat :=
  if !s.dramReady then 0
  else
    match s.rd R.DRAMC_CFG_SPEED 0 with
    | 2 => 65536
    | 1 => 49152
    | _ => 32768

/-! The host windows (R214). -/

/-- Lowest device address of the host's region (R210). -/
def hostRegion : Nat := 0x4C000000

/-- WIN[w] is written: an enable whose target lies below the host's region or beyond the fitted capacity is refused (R214). -/
def State.winWrite (s : State) (w v : Nat) : State :=
  let target := bits v 0 11
  let top := (s.channelGiB 0 + s.channelGiB 1) * 2 ^ 30
  if v.testBit 31 ∧ (target * 2 ^ 25 < hostRegion ∨ top < (target + 1) * 2 ^ 25) then s.raise .dramc 0 3
  else ((s.wr R.DRAMC_WIN_EN (v / 2 ^ 31) 0 w).wr R.DRAMC_WIN_RO (v / 2 ^ 30) 0 w).wr R.DRAMC_WIN_TARGET target 0 w

/-- WIN_ENABLE. -/
def execWinEnable (w : Fin 8) (v : W32) (s : State) : Host.Outcome State Fault Refusal :=
  s.onPage .dramc 0 (fun s => s.winWrite w.val v.toNat)

/-- Device address behind bus address `a` in T4, and whether its window is read-only; none when the window is disabled or there is none, or
DRAM is not ready (R214). -/
def State.windowAddr (s : State) (a : Nat) : Option (Nat × Bool) :=
  let w := (a - 0x40000000) / 2 ^ 25
  if s.dramReady ∧ w < 8 ∧ s.on R.DRAMC_WIN_EN 0 w then
    some (s.rd R.DRAMC_WIN_TARGET 0 w * 2 ^ 25 + a % 2 ^ 25, s.on R.DRAMC_WIN_RO 0 w)
  else none

/-- What a bus access answers: the state after it, the data, and the cause of an error response (0 for none). -/
structure Resp where
  s : State
  data : List Byte
  cause : Nat

/-- The bytes of one burst of the host's region from offset `o` on are replaced (R209): a whole burst is written directly, a smaller
write needs a whole burst read. -/
def State.burstWrite (s : State) (burst o : Nat) (bs : List Byte) : State × Bool :=
  if o = 0 ∧ bs.length = 64 then (s.burstPut rgHost 0 burst bs, true)
  else
    match s.burstGet rgHost 0 burst with
    | (s, some old) => (s.burstPut rgHost 0 burst (patchBytes old o bs), true)
    | (s, none) => (s, false)

/-- A write to device memory, burst by burst; `n` bounds the bursts. It stops at the first that fails. -/
def State.deviceWrite (n : Nat) (d : Nat) (bs : List Byte) (s : State) : State × Bool :=
  match n with
  | 0 => (s, true)
  | n + 1 =>
    if bs.isEmpty then (s, true)
    else
      let o := d % 64
      let k := 64 - o
      let t := s.burstWrite (d / 64) o (bs.take k)
      if t.2 then State.deviceWrite n (d + k) (bs.drop k) t.1 else t

/-- A read of device memory, burst by burst; `n` bounds the bursts. -/
def State.deviceRead (n : Nat) (d len : Nat) (s : State) : State × Option (List Byte) :=
  match n with
  | 0 => (s, some [])
  | n + 1 =>
    if len = 0 then (s, some [])
    else
      let o := d % 64
      let k := min len (64 - o)
      match s.burstGet rgHost 0 (d / 64) with
      | (s, none) => (s, none)
      | (s, some b) =>
        let t := State.deviceRead n (d + k) (len - k) s
        (t.1, t.2.map (fun r => sliceBytes b o k ++ r))

/-- Bytes from bus address `a` on that lie in the same window. -/
def windowLeft (a : Nat) : Nat := 2 ^ 25 - a % 2 ^ 25

/-- A read of T4 (R208, R214), window by window; `n` bounds them. A burst that fails its check gives an error response, and so does an
address without an enabled window. -/
def State.winRead (n : Nat) (a len : Nat) (s : State) : Resp :=
  match n with
  | 0 => ⟨s, [], 0⟩
  | n + 1 =>
    if len = 0 then ⟨s, [], 0⟩
    else
      match s.windowAddr a with
      | none => ⟨s, List.replicate len 0, cDEFAULT⟩
      | some d =>
        let k := min len (windowLeft a)
        match s.deviceRead (k / 64 + 2) d.1 k with
        | (s, none) => ⟨s, List.replicate len 0, cDET⟩
        | (s, some bs) =>
          let r := State.winRead n (a + k) (len - k) s
          if r.cause = 0 then ⟨r.s, bs ++ r.data, 0⟩ else ⟨r.s, List.replicate len 0, r.cause⟩

/-- A write to T4 (R209, R214), window by window; `n` bounds them. -/
def State.winStore (n : Nat) (a : Nat) (bs : List Byte) (s : State) : Resp :=
  match n with
  | 0 => ⟨s, [], 0⟩
  | n + 1 =>
    if bs.isEmpty then ⟨s, [], 0⟩
    else
      match s.windowAddr a with
      | none => ⟨s, [], cDEFAULT⟩
      | some d =>
        if d.2 then ⟨s, [], cDENIED⟩
        else
          let k := windowLeft a
          let t := s.deviceWrite (min bs.length k / 64 + 2) d.1 (bs.take k)
          if t.2 then State.winStore n (a + k) (bs.drop k) t.1 else ⟨t.1, [], cDET⟩

/-- A read of `len` bytes of T4, and a write. -/
def State.winReadBus (s : State) (a len : Nat) : Resp := s.winRead (len / 2 ^ 25 + 2) a len
def State.winWriteBus (s : State) (a : Nat) (bs : List Byte) : Resp := s.winStore (bs.length / 2 ^ 25 + 2) a bs

/-- A read of the scratchpad on port A by a matrix master (R359). -/
def State.spReadBus (s : State) (a len : Nat) : Resp :=
  let o := a - 0x30000000
  match s.spDetect o len with
  | some w => ⟨s.spDet w false, List.replicate len 0, cDET⟩
  | none => ⟨s, s.spBytes o len, 0⟩

/-- A write of the scratchpad on port A. -/
def State.spWriteBus (s : State) (a : Nat) (bs : List Byte) : Resp := ⟨s.spWrite (a - 0x30000000) bs, [], 0⟩

/-- Target as ERR_INFO records it: the default target for cause DEFAULT. -/
def errTarget (t cause : Nat) : Nat := if cause = cDEFAULT then defaultTarget else t

/-- The record of a response that is an error. -/
def Resp.note (r : Resp) (m t addr : Nat) : Resp :=
  if r.cause = 0 then r else { r with s := r.s.busErr m (errTarget t r.cause) addr r.cause }

end Sys2Proof.Machine
end

