-- ==== Sys2Proof/Machine/Banks.lean ====
section
/-! DEFINITION. The banks of connection words: reading a word, the routes it implies, writing and losing a word, placing and
releasing routes, checksums (R117 to R138, R150 to R156, R162 to R183). -/
namespace Sys2Proof.Machine

/-- A word written whole in a bank, with a fresh code; a change marks its burst dirty (R181, R211). -/
def Bank.put (b : Bank) (k v : Nat) : Bank :=
  { words := mapSet 0 b.words k (v ^^^ initWord k), bad := mdel b.bad k,
    clean := if b.word k = v then b.clean else mdel b.clean (burstKey k) }

/-- The entries of a bank with keys from `lo` on, below `hi`: key and word. Entries left out hold their start-up word. -/
def Bank.listed (b : Bank) (lo hi : Nat) : List (Nat × Nat) :=
  (b.words.filter (fun e => decide (lo ≤ e.1) && decide (e.1 < hi))).map (fun e => (e.1, e.2 ^^^ initWord e.1))

/-- Valid centre words: input port, slot, output port, input column. -/
def Bank.centres (b : Bank) : List (Nat × Nat × Nat × Nat) :=
  ((b.listed (2 ^ 21) (2 ^ 21 + 75 * 16384)).filter (fun e => wValid e.2)).map (fun e =>
    ((e.1 - 2 ^ 21) / 16384, (e.1 - 2 ^ 21) % 16384, wOport e.2, wIcol e.2))

/-- R_in and R_out of a port (R123). -/
def Bank.rIn (b : Bank) (p : Nat) : Nat := (b.centres.filter (fun c => c.1 == p)).length
def Bank.rOut (b : Bank) (p : Nat) : Nat := (b.centres.filter (fun c => c.2.2.1 == p)).length

/-- Centre slot `t` is used at input port `i`; at output port `o` (R118). -/
def Bank.usedIn (b : Bank) (i t : Nat) : Bool := wValid (b.word (cenKey i t))
def Bank.usedOut (b : Bank) (o t : Nat) : Bool := b.centres.any (fun c => c.2.1 == t && c.2.2.1 == o)

/-- The centre slot of the route from drawer `src` to port `o`, if there is one (R119). -/
def Bank.routeOf (b : Bank) (src o : Nat) : Option Nat :=
  match b.centres.filter (fun c => c.1 == portOf src && c.2.2.1 == o && c.2.2.2 == colOf src) with
  | [] => none
  | c :: _ => some c.2.1

/-- The input port whose centre word at slot `t` is valid and names port `o`. -/
def Bank.slotInput (b : Bank) (o t : Nat) : Option Nat :=
  match b.centres.filter (fun c => c.2.1 == t && c.2.2.1 == o) with
  | [] => none
  | c :: _ => some c.1

/-- What an output word carries (R119, R130): unequipped (a lost centre word included, R180), drawer AIS, or the drawer at an
input address. -/
inductive Source where
  | uneq | ais | drawer (a : Nat)
  deriving DecidableEq, Repr

/-- The source that a word of output `a` names (R130, R131). -/
def Bank.source (b : Bank) (a : Nat) (prot : Bool) : Source :=
  let w := b.word (outKey a prot)
  match wKind w with
  | 1 =>
    match b.slotInput (portOf a) (wCslot w) with
    | some i => .drawer (i * 8192 + wIcol (b.word (cenKey i (wCslot w))))
    | none => .uneq
  | 2 => .ais
  | _ => .uneq

/-- Output words of port `o` that hold a route on slot `t`: their keys. -/
def Bank.users (b : Bank) (o t : Nat) : List Nat :=
  ((b.listed (2 * 8192 * o) (2 * 8192 * (o + 1))).filter (fun e => wKind e.2 == 1 && wCslot e.2 == t)).map (·.1)

/-- The route on slot `t` into port `o` is released when no output word uses it (R124): the bank, and whether it was. -/
def Bank.release (b : Bank) (o t : Nat) : Bank × Bool :=
  if (b.users o t).isEmpty then
    match b.slotInput o t with
    | some i => (b.put (cenKey i t) 0, true)
    | none => (b, false)
  else (b, false)

/-- The lowest slot from `t` on, `n` tried, that is free at both ports and in an allowed group (R124). -/
def Bank.freeSlot (b : Bank) (allowed i o : Nat) (n t : Nat) : Option Nat :=
  match n with
  | 0 => none
  | n + 1 =>
    if allowed.testBit (slotGroup t) && !b.usedIn i t && !b.usedOut o t then some t else Bank.freeSlot b allowed i o n (t + 1)

/-- A route from drawer `src` to port `o` is placed (R124). -/
def Bank.place (b : Bank) (allowed src o : Nat) : Option (Bank × Nat) :=
  match b.freeSlot allowed (portOf src) o 16384 0 with
  | some t => some (b.put (cenKey (portOf src) t) (centreWord o (colOf src)), t)
  | none => none

/-- Joined parties of a quarter (R156). -/
def Bank.joined (b : Bank) (q : Nat) : Nat :=
  ((b.listed (partyKey (2048 * q) 0) (partyKey (2048 * (q + 1)) 0)).filter (fun e => wJoined e.2)).length

/-- Groups that may take routes: enabled by PLANE_EN and powered (R124). -/
def State.allowedGroups (s : State) : Nat := s.rd R.MAPC_CTL_PLANE_EN &&& (s.pow.up.toNat / 2 ^ 36) % 256

/-- GROUP_EMPTY: neither bank holds a route in the group (R136). -/
def State.groupEmpty (s : State) (g : Nat) : Bool :=
  !(s.mc.act.centres.any (fun c => slotGroup c.2.1 == g)) && !(s.mc.edit.centres.any (fun c => slotGroup c.2.1 == g))

/-- The edit bank as it reads and as it is counted: the active one during a catch-up (R173, R174). -/
def State.editView (s : State) : Bank := if s.on R.MAPC_COMMIT_STAT_CATCHUP then s.mc.act else s.mc.edit

/-- The bank named by a role: edit or active. -/
def State.bank (s : State) (edit : Bool) : Bank := if edit then s.mc.edit else s.mc.act

/-- The image of that bank (R178). -/
def State.imageOf (s : State) (edit : Bool) : Nat := if edit then 1 - s.mc.image else s.mc.image

/-- Written bursts of `old` that are dirty in `new`. -/
def newDirty (old new : Bank) : List Nat := (old.clean.filter (fun e => (mget? new.clean e.1).isNone)).map (·.1)

/-- That bank set. Bursts that the change makes dirty wait to be written, behind those that were dirty before (R211). -/
def State.setBank (s : State) (edit : Bool) (b : Bank) : State :=
  let more := (newDirty (s.bank edit) b).map (fun x => s.imageOf edit * 2 ^ 19 + x)
  let m := { s.mc with dirty := s.mc.dirty ++ more }
  { s with mc := if edit then { m with edit := b } else { m with act := b } }

/-- The edit bank set. -/
def State.setEdit (s : State) (b : Bank) : State := s.setBank true b

/-! Checksums (R176). -/

/-- The bytes that the words at keys `lo` to `lo + n - 1` contribute. -/
def Bank.sumBytes (b : Bank) (lo n : Nat) : List Byte := (List.range n).flatMap (fun i => leBytes 4 (b.word (lo + i)))

/-- DSUM and SSUM of a bank. -/
def Bank.dsum (b : Bank) : Nat := crc32 (b.sumBytes 0 1228800 ++ b.sumBytes (2 ^ 21) 1228800)
def Bank.ssum (b : Bank) : Nat := crc32 (b.sumBytes (2 ^ 22) 2097152 ++ b.sumBytes (2 ^ 22 + 2 ^ 21) 524288)

/-! Damaged words (R178 to R181). -/

/-- The sums of a bank are no longer current (R177). -/
def State.sumStale (s : State) (edit : Bool) : State :=
  if edit then s.wr R.MAPC_COMMIT_STAT_EDIT_SUM_VALID 0 else s.wr R.MAPC_COMMIT_STAT_SUM_VALID 0

/-- What a lost word is written as (R180). -/
def lostWord (_ : Nat) : Nat := 0

/-- A word is lost (R180): it is written as the table says, its route released where it held one, and reported. -/
def State.loseWord (s : State) (edit : Bool) (k : Nat) : State :=
  let b := s.bank edit
  let w := b.word k
  let b' := b.put k (lostWord k)
  let b' := if k < 2 ^ 21 ∧ wKind w = 1 then (b'.release (portOf (k / 2)) (wCslot w)).1 else b'
  let s := s.setBank edit b'
  let s := if 2 ^ 21 ≤ k ∧ k < 2 ^ 22 then
      { s with mc := { s.mc with sweeps := s.mc.sweeps ++ [(edit, (k - 2 ^ 21) % 16384)] } } else s
  let s := ((s.wrB R.MAPC_MAPLOST_ADDR_FABRIC (decide (2 ^ 22 ≤ k))).wrB R.MAPC_MAPLOST_ADDR_BANK edit).wr
    R.MAPC_MAPLOST_ADDR_OFFSET (windowOffset k)
  let s := (s.bump R.MAPC_MAPLOST_CNT_COUNT).count .mapc 0 8
  let s := s.sumStale edit
  (s.lostItem (decide (2 ^ 22 ≤ k)) edit (windowOffset k)).raise .mapc 0 11

/-- Burst address of burst `x` of an image (R210). -/
def routeBurst (image x : Nat) : Nat := (0x48000000 + image * 0x2000000) / 64 + x

/-- Burst `x` of the image of a bank is written, built from the 16 current words (R178, R211). A word that fails its code is lost first:
its burst is dirty, and nothing else holds it (R211). -/
def State.routeWrite (s : State) (edit : Bool) (x : Nat) : State :=
  let lost := ((s.bank edit).bad.filter (fun e => burstKey e.1 == x)).map (·.1)
  let s := lost.foldl (fun s k => s.loseWord edit k) s
  let b := s.bank edit
  let data := (List.range 16).flatMap (fun i => leBytes 4 (b.word (rankWord (16 * x + i))))
  let key := s.imageOf edit * 2 ^ 19 + x
  let s := s.setBank edit { b with clean := mput b.clean x 1 }
  { s with mc := { s.mc with dirty := s.mc.dirty.filter (fun y => y != key) } }.burstPut rgRoute 0 (routeBurst (s.imageOf edit) x) data

/-- The record of the word at key `k` is read from the image of its bank: its 26 bits, or none where the burst is dirty, there is no DRAM,
or it fails its check (R179, R208, R211). -/
def State.routeRead (s : State) (edit : Bool) (k : Nat) : State × Option Nat :=
  let x := burstKey k
  if !s.dramReady || (mget? (s.bank edit).clean x).isNone then (s, none)
  else
    match s.burstGet rgRoute 0 (routeBurst (s.imageOf edit) x) with
    | (s, none) => (s, none)
    | (s, some d) => (s, some (ofLe (sliceBytes d (4 * (wordRank k % 16)) 4) % 2 ^ 26))

/-- A word whose code failed is rebuilt from its record (R179), or lost when its burst is dirty or fails its check (R180, R211). A burst
that failed is then rewritten, which loses every other word of it that fails its code. -/
def State.rebuild (s : State) (edit : Bool) (k : Nat) : State :=
  let clean := (mget? (s.bank edit).clean (burstKey k)).isSome && s.dramReady
  match s.routeRead edit k with
  | (s, some w) =>
    let b := s.bank edit
    ((s.setBank edit { b with words := mapSet 0 b.words k (w ^^^ initWord k), bad := mdel b.bad k }).count .mapc 0 7).raise .mapc 0 10
  | (s, none) =>
    let s := s.loseWord edit k
    if clean then s.routeWrite edit (burstKey k) else s

/-- WORD_RECOMPUTE (R179, R180): only of a word that failed its code on a read. -/
def execWordRecompute (w : WordRef) (altered : List (Nat × List Byte)) (s : State) : Host.Outcome State Fault Refusal :=
  let s := s.start
  if !wordExists (w.fabric == .slot) w.index.toNat || !s.mc.inited || (mget? (s.bank w.edit).bad (refKey w)).isNone then ok s
  else ok ((s.upset altered).rebuild w.edit (refKey w))

/-- Every output word of a bank on slot `t`, whose centre word was lost, becomes unequipped where no valid centre word at that slot names
its output port (R180). A bank that changes has no current sum (R177). -/
def State.sweepSlot (s : State) (edit : Bool) (t : Nat) : State :=
  let b := s.bank edit
  let ks := ((b.listed 0 (2 * outCount)).filter (fun e =>
    wKind e.2 == 1 && wCslot e.2 == t && (b.slotInput (portOf (e.1 / 2)) t).isNone)).map (·.1)
  if ks.isEmpty then s
  else (s.setBank edit (ks.foldl (fun b k => b.put k unequippedWord) b)).sumStale edit

/-- CENTRE_LOSS_SWEEP: the oldest loss is swept. -/
def execCentreLossSweep (s : State) : Host.Outcome State Fault Refusal :=
  let s := s.start
  match s.mc.sweeps with
  | [] => ok s
  | (edit, t) :: r =>
    let s := s.sweepSlot edit t
    ok { s with mc := { s.mc with sweeps := r } }

/-- Burst `x` of a bank's image is the oldest dirty one (R211). Bursts never written since DRAM became ready are older than any that a
change has made dirty; among themselves they have no order. -/
def State.oldestDirty (s : State) (edit : Bool) (x : Nat) : Bool :=
  let key := s.imageOf edit * 2 ^ 19 + x
  let unwritten := s.mc.act.clean.length + s.mc.edit.clean.length + s.mc.dirty.length != 2 * imageBursts
  (mget? (s.bank edit).clean x).isNone && decide (x < imageBursts) &&
    (if s.mc.dirty.contains key then !unwritten && s.mc.dirty.head? == some key else true)

/-- ROUTE_BURST_WRITE (R211): the oldest dirty burst is written; `burst` counts within the fabric's part of the image. -/
def execRouteBurstWrite (f : Fabric) (edit : Bool) (burst : Nat) (s : State) : Host.Outcome State Fault Refusal :=
  let s := s.start
  let x := match f with
    | .drawer => if burst < 153600 then burst else imageBursts
    | .slot => 153600 + burst
  if s.dramReady && s.mc.inited && s.oldestDirty edit x then ok (s.routeWrite edit x) else ok s

/-! Reads of the windows (R133, R153, R174). -/

/-- The stored word at window index `i` of a bank, code included. -/
def State.storedWord (s : State) (b : Bank) (slotFabric : Bool) (i : Nat) : Nat :=
  let k := wkey slotFabric i
  if !wordExists slotFabric i then 0
  else if !slotFabric && s.voidPort (if i < 2 ^ 21 then portOf (i / 2) else (i - 2 ^ 21) / 16384) then 0
  else if (mget? b.bad k).isSome then (Config.failedWord s.fresh).toNat
  else detCode k (b.word k) * 2 ^ 26 + b.word k

/-- Bytes of a connection-memory window from offset `o` in the target on, `len` of them: bank 0 active, bank 1 edit, 0 beyond. -/
def State.cmBytes (s : State) (slotFabric : Bool) (o len : Nat) : List Byte :=
  (List.range len).map (fun j =>
    let x := o + j
    let w := if x < 2 ^ 24 then s.storedWord s.mc.act slotFabric (x % 2 ^ 24 / 4)
      else if x < 2 ^ 25 then s.storedWord s.editView slotFabric (x % 2 ^ 24 / 4)
      else 0
    BitVec.ofNat 8 (w / 256 ^ (x % 4)))

/-- A read of T1 or T2. -/
def State.cmReadBus (s : State) (slotFabric : Bool) (a len : Nat) : Resp :=
  ⟨s.takeFresh, s.cmBytes slotFabric (a % 2 ^ 28) len, 0⟩

/-- One byte of a connection-memory window is written by the map compiler (R326): into the word behind it, if there is one. The code DET
is the memory's own. -/
def State.cmPut (slotFabric : Bool) (x : Nat) (v : Byte) (s : State) : State :=
  let i := x % 2 ^ 24 / 4
  if 2 ^ 25 ≤ x ∨ !wordExists slotFabric i then s
  else
    let edit := decide (2 ^ 24 ≤ x)
    let k := wkey slotFabric i
    let w := ofLe (patchBytes (leBytes 4 ((s.bank edit).word k)) (x % 4) [v])
    (s.setBank edit ((s.bank edit).put k (w % 2 ^ 26))).sumStale edit

/-- A write of T1 or T2. -/
def State.cmWriteBus (s : State) (slotFabric : Bool) (a : Nat) (bs : List Byte) : Resp :=
  ⟨(List.range bs.length).foldl (fun s j => s.cmPut slotFabric (a % 2 ^ 28 + j) (bs.getD j 0)) s, [], 0⟩

/-- What the compiler reads when it fetches from a list (R129): scratchpad or DRAM window in the control view (R327), and, since the
matrix admits its reads there too (R326), the connection memories. An address of the register bridge is an error here (log entry 41). -/
def State.listRead (s : State) (a len : Nat) : Resp :=
  match ctlView (s.on R.SEQ_CTL_REMAP) a with
  | .host h =>
    match hostTarget h with
    | 1 => s.cmReadBus false h len
    | 2 => s.cmReadBus true h len
    | 3 => (s.spReadBus h len).note 4 3 a
    | 4 => (s.winReadBus h len).note 4 4 a
    | _ => (Resp.mk s [] cDEFAULT).note 4 defaultTarget a
  | .rom _ => (Resp.mk s [] cDENIED).note 4 defaultTarget a
  | .default => (Resp.mk s [] cDEFAULT).note 4 defaultTarget a

end Sys2Proof.Machine
end

