-- ==== Sys2Proof/Machine/Label.lean ====
section
/-! DEFINITION. The 1588 clock as a number, and the label that a hinge to come will carry (R269 to R271, R280, R281). Time is a number
of 2^-48 ns; frequencies are in 0.01 ppm. -/
namespace Sys2Proof.Machine

/-! The clock (R269 to R271). -/

/-- One nanosecond, one second, one frame of 125 µs, and the range of the clock. -/
def ntNs : Nat := 2 ^ 48
def ntSec : Nat := 1000000000 * ntNs
def ntFrame : Nat := 125000 * ntNs
def ntRange : Nat := 2 ^ 48 * ntSec

/-- The time `cycles` control cycles after a mark, at rate 1 + F + S: a control cycle is 5/3 ns of the core clock (R20, R270). -/
def ntElapsed (cycles : Nat) (f s : Int) : Nat := cycles * (5 * ntNs * (100000000 + f + s).toNat) / 300000000

/-- The 1588 clock at control cycle `now`, and at the present one. -/
def State.timeAt (s : State) (now : Nat) : Nat := (s.nt.base + ntElapsed (now - s.nt.mark) s.nt.f s.nt.s) % ntRange
def State.time (s : State) : Nat := s.timeAt s.now

/-- The time that a pending step makes of time `t` (R280): set, subtracted from or added to; no step leaves it. -/
def stepped (st : Option (Bool × Bool × Nat)) (t : Nat) : Nat :=
  match st with
  | none => t
  | some (abs, neg, a) => if abs then a else if neg then t + ntRange - a % ntRange else t + a

/-- K at a hinge whose time is `t` (R281). -/
def nextK (k t : Nat) : Nat :=
  let phi : Int := (t : Int) - ((k + 1) * ntFrame : Nat)
  if phi.natAbs ≤ 75000 * ntNs then k + 1 else max k ((t + 62500 * ntNs) / ntFrame)

/-- The unit takes its labels from its mate (R294): in STANDBY and ISOLATE, while the heartbeat is received. -/
def State.labelsFromMate (s : State) : Bool :=
  (s.mode == mSTANDBY || s.mode == mISOLATE) && s.domUp 3 && !s.on R.MATE_STAT_HB_LOST

/-- The label of the first (`j` = 1) or second hinge to come, as the clock runs now and with the step that is pending (R280, R281; log
entry 45). -/
def State.labelOf (s : State) (j : Nat) : Nat :=
  if s.labelsFromMate then (s.epoch + j) % 2 ^ 40
  else
    let t := stepped s.nt.step (s.timeAt (75000 * (s.frame + 1))) % ntRange
    let k := nextK s.nt.k t
    if j ≤ 1 then k % 2 ^ 40
    else nextK k ((t + ntElapsed 75000 s.nt.f (if s.nt.step.isNone then s.nt.s else 0)) % ntRange) % 2 ^ 40

end Sys2Proof.Machine
end

