-- ==== Sys2Proof/Machine/MapC.lean ====
section
/-! DEFINITION. The map compiler: where requests come from, and what each does to the edit bank (R123 to R138, R154 to R156). -/
namespace Sys2Proof.Machine

/-- The role lets this unit's host change the maps (R287): neither STANDBY nor ISOLATE. -/
def State.hostDecides (s : State) : Bool := s.mode != mSTANDBY && s.mode != mISOLATE

/-- The compiler takes pushes, lists and commits from the host: READY, and a role that allows it (R129, R164, R287). -/
def State.compilerOpen (s : State) : Bool := s.on R.MAPC_STAT_READY && s.hostDecides

/-- Command authentication is enforced (R366, R370). -/
def State.enforced (s : State) : Bool := s.on R.SECURE_CTL_ENFORCE

/-- Entries of the register queue: requests that wait and did not come from a list. -/
def State.queueFill (s : State) : Nat := (s.mc.queue.filter (fun r => !r.list)).length

/-- Watermark 3 watches the register queue (R346). -/
def State.queueMark (s : State) : State := s.watermark 3 s.queueFill

/-- REFUSED of REJ_INFO sets (R129). -/
def State.mapRefused (s : State) : State := s.wr R.MAPC_REJ_INFO_REFUSED 1

/-- In PRIMARY a request goes out as a REQ record and is taken at its RELEASE (R296); `mirrorReq` of the mate unit does that. -/
def State.enqueue (s : State) (r : Req) : State := { s with mc := { s.mc with queue := s.mc.queue ++ [r] } }

/-! Completion and rejection (R126, R127). -/

/-- The list ends: LIST_BUSY clears and LIST_DONE is raised; a commit that waited for it may be taken (R129, R164). -/
def State.listEnd (s : State) : State :=
  let s := (s.wr R.MAPC_STAT_LIST_BUSY 0).raise .mapc 0 2
  { s with mc := { s.mc with stopping := false, fetched := 0, buf := [], checking := false, listAuth := true,
                             commit := s.mc.commit.map (fun c : Commit => { c with list := false }) } }

/-- The list ends once nothing of it waits and its last request is done, or it stops (R129). -/
def State.listCheck (s : State) : State :=
  if s.on R.MAPC_STAT_LIST_BUSY && !s.mc.checking && !(s.mc.queue.any (fun r => r.list)) &&
     (s.mc.stopping || decide (s.rd R.MAPC_LIST_LEN_LEN ≤ s.mc.fetched)) then s.listEnd
  else s

/-- The request at the head leaves the compiler's input; LIST_DONE counts one of a list. -/
def State.dequeue (s : State) (r : Req) : State :=
  let s := { s with mc := { s.mc with queue := s.mc.queue.drop 1,
                                      commit := s.mc.commit.map (fun c : Commit => { c with ahead := c.ahead - 1 }) } }
  let s := if r.list then s.bumpWrap R.MAPC_LIST_DONE_DONE else s
  s.listCheck

/-- A request is rejected: the edit bank stays as it was (R127). -/
def State.reject (s : State) (word reason : Nat) : State :=
  let s := ((s.wr R.MAPC_REJ_LO_WORD word).wr R.MAPC_REJ_HI_WORD (word / 2 ^ 32)).wr R.MAPC_REJ_INFO_REASON reason
  (s.count .mapc 0 2).raise .mapc 0 0

/-- A request completes with edit bank `b`, having placed and released routes (R126). -/
def State.accept (s : State) (b : Bank) (placed released : Nat) : State :=
  (((s.setEdit b).wr R.MAPC_COMMIT_STAT_EDIT_SUM_VALID 0).count .mapc 0 1).count .mapc 0 3 placed |>.count .mapc 0 4 released

/-- A commit's hinge is the one that begins frame `k` with label `e` (R168, R170, R171). -/
def Commit.dueAt (c : Commit) (k e : Nat) : Bool :=
  c.taken && (match c.due with
    | some d => d == k
    | none =>
      match c.kind with
      | .now => false
      | .arm a _ => a == e)

/-- The cut of a commit due at the next hinge has come (R167). -/
def State.cutDue (s : State) : Bool :=
  match s.mc.commit with
  | none => false
  | some c => c.dueAt (s.frame + 1) (s.labelOf 1) && decide (74400 ≤ s.cyc)

/-- Between a cut and the end of its catch-up the edit bank stands still (R167). -/
def State.editHeld (s : State) : Bool := s.on R.MAPC_COMMIT_STAT_CUT || s.on R.MAPC_COMMIT_STAT_CATCHUP || s.cutDue

/-- The compiler may take the request at the head (R164, R167 to R169, R177): READY; no cut or catch-up; no NOW commit taken; no edit
scan; and a commit not yet taken does not come before it. -/
def State.mayTake (s : State) (r : Req) : Bool :=
  s.mc.inited && s.pow.phase == .running && !s.editHeld &&
  !(s.mc.sumEdit && !s.mc.sumAct) &&
  (match s.mc.commit with
   | none => true
   | some c => if c.held then true else if c.taken then c.kind != .now else decide (0 < c.ahead) || (r.list && c.list))

/-- Reasons of R127 that do not depend on the OP, beyond FETCH: BAD_OP, AUTH; 0 for none. -/
def commonReason (r : Req) (enforced : Bool) : Nat :=
  let w := r.word.toNat
  if !rqKnown w || !rqZeros w then 1
  else if enforced && !r.auth then 5
  else 0

/-- What a request's effect on the edit bank is: a reason to reject it, or the new bank with routes placed and released. -/
inductive Effect where
  | reject (reason : Nat)
  | done (b : Bank) (placed released : Nat)

/-- The request of OP `op` at the head is taken, with effect `f` (R126, R127, R155). A head that R127 rejects before its OP counts
is rejected by whichever of the seven steps meets it; a head of another OP waits for its own step. -/
def State.takeRequest (s : State) (op : Nat) (f : Nat → Effect) : State :=
  match s.mc.queue with
  | [] => s
  | r :: _ =>
    let w := r.word.toNat
    if !s.mayTake r then s
    else
      let reason := commonReason r s.enforced
      if reason ≠ 0 then
        ((s.reject w reason).dequeue r).queueMark
      else if rqOp w ≠ op then s
      else
        match f w with
        | .reject c => ((s.reject w c).dequeue r).queueMark
        | .done b p q => ((s.accept b p q).dequeue r).queueMark

/-- The named word of OUT takes `new`; its old route is released if nothing else uses it (R126). -/
def setOut (b : Bank) (a : Nat) (prot : Bool) (new : Nat) : Bank × Nat :=
  let old := b.word (outKey a prot)
  let b := b.put (outKey a prot) new
  if wKind old = 1 then
    let t := b.release (portOf a) (wCslot old)
    (t.1, b2n t.2)
  else (b, 0)

/-- CONNECT (R119, R123, R124, R126). -/
def State.connect (s : State) (w : Nat) : Effect :=
  let a := rqOut w
  let src := rqIn w
  let b := s.mc.edit
  if s.void a then .reject 2
  else if s.void src then .reject 3
  else if b.source a (rqProt w) = .drawer src then .done b 0 0
  else
    let u := setOut b a (rqProt w) unequippedWord
    match u.1.routeOf src (portOf a) with
    | some t => .done (u.1.put (outKey a (rqProt w)) (routeWord t)) 0 u.2
    | none =>
      match u.1.place s.allowedGroups src (portOf a) with
      | some (b', t) => .done (b'.put (outKey a (rqProt w)) (routeWord t)) 1 u.2
      | none => .reject 4

/-- UNEQ and AIS (R126). -/
def State.setPlain (s : State) (new w : Nat) : Effect :=
  if s.void (rqOut w) then .reject 2
  else
    let u := setOut s.mc.edit (rqOut w) (rqProt w) new
    .done u.1 0 u.2

/-- MAP_CONNECT. -/
def execMapConnect (s : State) : Host.Outcome State Fault Refusal :=
  let s := s.start
  ok (s.takeRequest 1 s.connect)

/-- MAP_UNEQ. -/
def execMapUneq (s : State) : Host.Outcome State Fault Refusal :=
  let s := s.start
  ok (s.takeRequest 2 (s.setPlain unequippedWord))

/-- MAP_AIS. -/
def execMapAis (s : State) : Host.Outcome State Fault Refusal :=
  let s := s.start
  ok (s.takeRequest 3 (s.setPlain aisWord))

/-- SLOT (R154 to R156). -/
def State.slotReq (s : State) (w : Nat) : Effect :=
  if !s.quarterOn (slotQuarter (rqSlotOut w)) then .reject 2
  else if !s.quarterOn (slotQuarter (rqSlotIn w)) then .reject 3
  else .done (s.mc.edit.put (slotKey (rqSlotOut w)) (slotWord (rqProt w) (rqSlotIn w))) 0 0

/-- CONST. -/
def State.constReq (s : State) (w : Nat) : Effect :=
  if !s.quarterOn (slotQuarter (rqSlotOut w)) then .reject 2
  else .done (s.mc.edit.put (slotKey (rqSlotOut w)) (constWord w)) 0 0

/-- HEAR. -/
def State.hearReq (s : State) (w : Nat) : Effect :=
  if !s.quarterOn (slotQuarter (rqSlotOut w)) || !s.quarterOn (bridgeQuarter (rqLegBridge w)) then .reject 2
  else .done (s.mc.edit.put (slotKey (rqSlotOut w)) (legWord (rqProt w) (rqLegBridge w) (rqLegParty w))) 0 0

/-- PARTY (R155, R156). -/
def State.partyReq (s : State) (w : Nat) : Effect :=
  let b := rqBridge w
  let q := bridgeQuarter b
  let k := partyKey b (rqParty w)
  let joins := rqJoin w && !wJoined (s.mc.edit.word k)
  if !s.quarterOn q then .reject 2
  else if rqJoin w && !rqMute w && !s.quarterOn (slotQuarter (rqSlotIn w)) then .reject 3
  else if joins && decide (16384 ≤ s.mc.edit.joined q) then .reject 6
  else .done (s.mc.edit.put k (partyWord (rqJoin w) (rqMute w) (rqProt w) (rqSlotIn w))) 0 0

/-- SLOT. -/
def execSlot (s : State) : Host.Outcome State Fault Refusal :=
  let s := s.start
  ok (s.takeRequest 8 s.slotReq)

/-- CONST. -/
def execConst (s : State) : Host.Outcome State Fault Refusal :=
  let s := s.start
  ok (s.takeRequest 9 s.constReq)

/-- PARTY. -/
def execParty (s : State) : Host.Outcome State Fault Refusal :=
  let s := s.start
  ok (s.takeRequest 0xA s.partyReq)

/-- HEAR. -/
def execHear (s : State) : Host.Outcome State Fault Refusal :=
  let s := s.start
  ok (s.takeRequest 0xB s.hearReq)

/-! Plane groups (R136) and the purge (R137). -/

/-- One route of the edit bank, `(i, t)`, moves to the lowest allowed slot, or stays and counts as blocked (R136). -/
def State.replaceRoute (allowed : Nat) (s : State) (c : Nat × Nat × Nat × Nat) : State :=
  let b := s.mc.edit
  let i := c.1
  let t := c.2.1
  let o := c.2.2.1
  match b.freeSlot allowed i o 16384 0 with
  | none => s.raise .mapc 0 4
  | some t' =>
    let us := b.users o t
    let b := (b.put (cenKey i t) 0).put (cenKey i t') (centreWord o c.2.2.2)
    let b := us.foldl (fun b k => b.put k (routeWord t')) b
    (((s.setEdit b).wr R.MAPC_COMMIT_STAT_EDIT_SUM_VALID 0).count .mapc 0 3).count .mapc 0 4

/-- Every route of the edit bank in the groups of `gone` is re-placed (R136). -/
def State.replaceGroups (s : State) (gone : Nat) : State :=
  let cs := s.mc.edit.centres.filter (fun c => gone.testBit (slotGroup c.2.1))
  cs.foldl (State.replaceRoute s.allowedGroups) s

/-- PLANE_EN is written (R136). Between a cut and the end of its catch-up the routes wait to be re-placed (R167). -/
def State.planeEnWrite (s : State) (v : Nat) : State :=
  let gone := andNot 8 (s.rd R.MAPC_CTL_PLANE_EN) v
  let s := s.wr R.MAPC_CTL_PLANE_EN v
  if gone = 0 then s
  else if s.editHeld then { s with mc := { s.mc with placeDue := s.mc.placeDue ||| gone } }
  else s.replaceGroups gone

/-- PLANE_EN_WRITE. -/
def execPlaneEnWrite (v : BitVec 8) (s : State) : Host.Outcome State Fault Refusal :=
  s.onPage .mapc 0 (fun s => s.planeEnWrite v.toNat)

/-- An address lies in a shelf of lane `n` that is not present at rate `r` (R137). -/
def goneAt (n r a : Nat) : Bool := portOf a == n && decide (rateCols r ≤ colOf a)

/-- The purge of lane `n` (R137): output words of the edit bank whose OUT or source lies in a shelf no longer present. -/
def State.purge (s : State) (n : Nat) : State :=
  let b := s.mc.edit
  let r := s.rate n
  let hit (e : Nat × Nat) : Bool :=
    e.2 != unequippedWord && (goneAt n r (e.1 / 2) ||
      (match b.source (e.1 / 2) (e.1 % 2 == 1) with
       | .drawer a => goneAt n r a
       | .uneq | .ais => false))
  let ks := ((b.listed 0 (2 * outCount)).filter hit).map (·.1)
  let u := ks.foldl (fun (t : Bank × Nat) k =>
    let x := setOut t.1 (k / 2) (k % 2 == 1) unequippedWord
    (x.1, t.2 + x.2)) (b, 0)
  let s := ((s.setEdit u.1).wr R.MAPC_COMMIT_STAT_EDIT_SUM_VALID 0).count .mapc 0 4 u.2
  (s.bump R.MAPC_PURGE_CNT_COUNT ks.length).raise .mapc 0 3

/-! Start-up (R134, R161). -/

/-- Every requested plane group and slot quarter is on. -/
def State.fabricOn (s : State) : Bool :=
  let want := (s.rd R.POWER_DOM_EN1_EN / 16) % 4096
  let up := (s.pow.up.toNat / 2 ^ 36) % 4096
  trafficMode s.mode && decide (andNot 12 want up = 0)

/-- MAP_INIT_DONE: every word of both banks is written and READY sets (R134, R161, R183). -/
def State.mapInit (s : State) : State :=
  let s := { s with mc := { s.mc with act := {}, edit := {}, dirty := [], inited := true } }
  (s.wr R.MAPC_STAT_READY 1).wr R.SFAB_STAT_READY 1

end Sys2Proof.Machine
end

