-- ==== Sys2Proof/Machine/Secure.lean ====
section
/-! DEFINITION. The secure part: life cycle, keys, tamper, identity response, and the tags of command authentication
(R365 to R372). -/
namespace Sys2Proof.Machine

/-- K_AUTH, K_ID are held. -/
def State.authHeld (s : State) : Bool := !s.sec.kAuth.isEmpty
def State.idHeld (s : State) : Bool := !s.sec.kId.isEmpty

/-- The four words of a tag register group as 16 bytes (R371). -/
def State.tagBytes (s : State) (f : Fld) : List Byte := (List.range 4).flatMap (fun j => leBytes 4 (s.rd f 0 j))

/-- The words of a register group cleared. -/
def State.clearWords (s : State) (f : Fld) (n : Nat) : State := (List.range n).foldl (fun s j => s.wr f 0 0 j) s

/-- The 32-byte header of R371: kind, byte 1, AUTH_SEQ, and bytes 16 to 20. -/
def tagHeader (kind b1 seq extra : Nat) : List Byte :=
  leBytes 2 (kind + 256 * b1) ++ List.replicate 6 0 ++ leBytes 8 seq ++ leBytes 5 extra ++ List.replicate 11 0

/-- A tag is checked against header and body (R371): the state after it, and whether it checked. -/
def State.checkTag (s : State) (hdr body tag : List Byte) : State × Bool :=
  if s.authHeld && decide ((hmacSha256 s.sec.kAuth (hdr ++ body)).take 16 = tag) then
    ((s.bumpWrap R.SECURE_AUTH_SEQ_SEQ).count .secure 0 5, true)
  else
    ((((s.wr R.SECURE_AUTH_STAT_FAIL 1).bump R.SECURE_AUTH_FAIL_CNT_COUNT).count .secure 0 6).raise .secure 0 4, false)

/-- AUTH_SEQ. -/
def State.authSeq (s : State) : Nat := s.rd R.SECURE_AUTH_SEQ_SEQ

/-- The tag of a commit write (R166, R370, R371), when tags are enforced. -/
def State.commitTag (s : State) (a : Ask) : State × Bool :=
  if !s.enforced then (s, true)
  else s.checkTag (tagHeader 0x43 (a.ctl % 16) s.authSeq (if a.ctl.testBit 1 then a.epoch else 0)) [] a.tag

/-- AUTH_SEQ is loaded from the entropy source (R371). -/
def State.newAuthSeq (s : State) : State := s.takeFresh.wr R.SECURE_AUTH_SEQ_SEQ (Config.entropy s.fresh).toNat

/-- Both keys are wiped (R367, R368). -/
def State.wipeKeys (s : State) : State :=
  let s := { s with sec := { s.sec with kId := [], kAuth := [], resp := none } }
  let s := ((s.wr R.SECURE_LC_K_ID_HELD 0).wr R.SECURE_LC_K_AUTH_HELD 0).wr R.SECURE_KEY_ID_ID_FP 0
  (s.wr R.SECURE_KEY_ID_AUTH_FP 0).clearWords R.SECURE_RESP_RESP 4

/-- Life-cycle states. -/
def lcBLANK : Nat := 0
def lcPROVISIONED : Nat := 1
def lcDEPLOYED : Nat := 2
def lcRMA : Nat := 3

/-- The changes that R366 allows. -/
def lcAllowed (from' to' : Nat) : Bool :=
  match from', to' with
  | 0, 1 => true
  | 0, 3 => true
  | 1, 0 => true
  | 1, 2 => true
  | 1, 3 => true
  | 2, 1 => true
  | 2, 3 => true
  | _, _ => false

/-- Every write of LC_CTL clears LC_KEY and LC_TAG (R367). -/
def State.lcUsed (s : State) : State := (s.wr R.SECURE_LC_KEY_KEY 0).clearWords R.SECURE_LC_TAG_TAG 4

/-- LC_CTL is written with GO (R367). -/
def State.lcGo (s : State) (target : Nat) : State :=
  let cur := s.rd R.SECURE_LC_STATE
  let may := s.rd R.SECURE_LC_KEY_KEY == 0x4C1FEC7C && lcAllowed cur target && !s.on R.SECURE_LC_WIPE_BUSY
  let needs := s.enforced && s.authHeld && (cur == lcPROVISIONED || cur == lcDEPLOYED)
  let t := if may && needs then s.checkTag (tagHeader 0x53 target s.authSeq 0) [] (s.tagBytes R.SECURE_LC_TAG_TAG) else (s, may)
  let s := t.1.lcUsed
  if t.2 then { s.wr R.SECURE_LC_WIPE_BUSY 1 with sec := { s.sec with wipe := some target } }
  else s.wr R.SECURE_LC_CTL_LC_REFUSED 1

/-- LC_GO. -/
def execLcGo (target : BitVec 2) (s : State) : Host.Outcome State Fault Refusal := s.onPage .secure 0 (fun s => s.lcGo target.toNat)

/-- A life-cycle change runs to its end (R367). -/
def State.lcEnd (s : State) (target : Nat) : State :=
  let s := s.wipeKeys.newAuthSeq
  let s := (((s.wr R.SECURE_CTL_ENFORCE 0).wr R.SECURE_LC_TAMPERED 0).wr R.SECURE_LC_K_ID_USED 0).wr R.SECURE_LC_K_AUTH_USED 0
  let s := (s.wr R.SECURE_LC_STATE target).wr R.SECURE_LC_WIPE_BUSY 0
  { s with sec := { s.sec with wipe := none } }

/-- LC_DONE. -/
def execLcDone (s : State) : Host.Outcome State Fault Refusal :=
  let s := s.start
  match s.sec.wipe with
  | none => ok s
  | some t => ok ((s.lcEnd t).raise .secure 0 5)

/-- KEY_IN as 32 bytes. -/
def State.keyIn (s : State) : List Byte := (List.range 8).flatMap (fun j => leBytes 4 (s.rd R.SECURE_KEY_IN_KEY 0 j))

/-- The fingerprint of a key: the first 16 bits of its SHA-256. -/
def keyPrint (k : List Byte) : Nat := ofBe ((sha256 k).take 2)

/-- A key load is open (R366, R368); `used` says that this key was loaded in DEPLOYED before. -/
def State.mayLoad (s : State) (used : Bool) : Bool :=
  let st := s.rd R.SECURE_LC_STATE
  !s.enforced && !s.on R.SECURE_LC_TAMPER_IN && (st == lcPROVISIONED || (st == lcDEPLOYED && !used))

/-- KEY_IN loaded as K_ID, or refused. -/
def State.loadIdKey (s : State) : State :=
  if !s.mayLoad (s.on R.SECURE_LC_K_ID_USED) then s.wr R.SECURE_AUTH_STAT_KEY_REFUSED 1
  else
    let k := s.keyIn
    let s := ({ s with sec := { s.sec with kId := k } }.wr R.SECURE_LC_K_ID_HELD 1).wr R.SECURE_KEY_ID_ID_FP (keyPrint k)
    if s.rd R.SECURE_LC_STATE = lcDEPLOYED then s.wr R.SECURE_LC_K_ID_USED 1 else s

/-- KEY_IN loaded as K_AUTH, or refused. -/
def State.loadAuthKey (s : State) : State :=
  if !s.mayLoad (s.on R.SECURE_LC_K_AUTH_USED) then s.wr R.SECURE_AUTH_STAT_KEY_REFUSED 1
  else
    let k := s.keyIn
    let s := ({ s with sec := { s.sec with kAuth := k } }.wr R.SECURE_LC_K_AUTH_HELD 1).wr R.SECURE_KEY_ID_AUTH_FP (keyPrint k)
    if s.rd R.SECURE_LC_STATE = lcDEPLOYED then s.wr R.SECURE_LC_K_AUTH_USED 1 else s

/-- KEY_CMD is written: bit 1 LOAD_ID, bit 0 LOAD_AUTH; every write clears KEY_IN (R366). -/
def State.keyCmd (s : State) (v : Nat) : State :=
  let s := if v.testBit 1 then s.loadIdKey else s
  let s := if v.testBit 0 then s.loadAuthKey else s
  s.clearWords R.SECURE_KEY_IN_KEY 8

/-- LOAD_ID. -/
def execLoadId (s : State) : Host.Outcome State Fault Refusal := s.onPage .secure 0 (fun s => s.keyCmd 2)

/-- LOAD_AUTH. -/
def execLoadAuth (s : State) : Host.Outcome State Fault Refusal := s.onPage .secure 0 (fun s => s.keyCmd 1)

/-- CTL.ENFORCE is written (R366). -/
def State.enforceWrite (s : State) (on : Bool) : State :=
  let st := s.rd R.SECURE_LC_STATE
  if on then
    if (st == lcPROVISIONED || st == lcDEPLOYED) && s.authHeld then s.wr R.SECURE_CTL_ENFORCE 1 else s
  else if st = lcPROVISIONED then s.wr R.SECURE_CTL_ENFORCE 0 else s

/-- ENFORCE_WRITE. -/
def execEnforceWrite (on : Bool) (s : State) : Host.Outcome State Fault Refusal := s.onPage .secure 0 (fun s => s.enforceWrite on)

/-- TAMPER: TAMPER_N is asserted, debounced; sampled while AON is powered (R368). -/
def execTamper (s : State) : Host.Outcome State Fault Refusal :=
  let s := s.start
  if !s.domUp 0 then ok s
  else ok ((s.wipeKeys.wr R.SECURE_LC_TAMPERED 1).wr R.SECURE_LC_TAMPER_IN 1 |>.raise .secure 0 3)

/-- TAMPER_N_RELEASE. -/
def execTamperNRelease (s : State) : Host.Outcome State Fault Refusal :=
  let s := s.start
  if !s.domUp 0 then ok s else ok (s.wr R.SECURE_LC_TAMPER_IN 0)

/-- ID_CMD.RESPOND is written (R369). -/
def State.respond (s : State) : State :=
  if !s.idHeld || s.on R.SECURE_ID_CMD_BUSY then s
  else
    let chal := (List.range 8).flatMap (fun j => leBytes 4 (s.rd R.SECURE_CHAL_CHAL 0 j))
    let r := (hmacSha256 s.sec.kId (0x49 :: List.replicate 31 0 ++ chal)).take 16
    { s.wr R.SECURE_ID_CMD_BUSY 1 with sec := { s.sec with resp := some r } }

/-- RESPOND. -/
def execRespond (s : State) : Host.Outcome State Fault Refusal := s.onPage .secure 0 (fun s => s.respond)

/-- ID_RESPONSE_READY: RESP0 to RESP3 hold the response (R369). -/
def execIdResponseReady (s : State) : Host.Outcome State Fault Refusal :=
  let s := s.start
  if !s.on R.SECURE_ID_CMD_BUSY then ok s
  else
    let s' := s.wr R.SECURE_ID_CMD_BUSY 0
    match s.sec.resp with
    | none => ok s'
    | some r =>
      let s' := (List.range 4).foldl (fun s j => s.wr R.SECURE_RESP_RESP (ofLe (sliceBytes r (4 * j) 4)) 0 j) s'
      ok { s' with sec := { s'.sec with resp := none } }

end Sys2Proof.Machine
end

