-- ==== Sys2Proof/Machine/Commit.lean ====
section
/-! DEFINITION. Requests on their way to the compiler (R129, R296, R372), commits (R162 to R175), checksums (R176, R177) and the
records that carry requests and commits to the mate (R295, R296). -/
namespace Sys2Proof.Machine

/-- The core row of the present control cycle in its frame (R20, R21). -/
def State.row (s : State) : Nat := s.cyc * 36 / 75000

/-- Core rows from reset. -/
def State.absRow (s : State) : Nat := s.frame * 36 + s.row

/-! Mirror records (R295). -/

/-- The 16 bytes of a record. -/
def mirRecord (type seq label row : Nat) (body : List Byte) : List Byte :=
  let b := [BitVec.ofNat 8 type, 0] ++ beBytes 2 seq ++ [BitVec.ofNat 8 label, BitVec.ofNat 8 row] ++ sliceBytes body 0 8
  b ++ beBytes 2 (crc16 (bytesToBits b))

/-- The mate reports a Dexgor receiver in SYNC and its heartbeat is received, so records can be sent (R296, R298). -/
def State.mateListens (s : State) : Bool :=
  s.on R.MATE_CTL_DX_EN && !s.on R.MATE_STAT_HB_LOST && (s.mate.hb.getD 12 0).toNat % 4 != 0

/-- The place in which the next record leaves, counted from reset in 512 to a core row on the two lanes: the first one still free.
Places are taken whether or not the link carries the record, so that its timing does not depend on the link (R296; log entry 104). -/
def State.recSlot (s : State) : Nat := max s.mate.txSlot ((s.now * 18432 + 74999) / 75000)

/-- A record is put on the Dexgor lanes, for the absolute core row `row` (R295 to R298). -/
def State.mirrorSend (s : State) (type row : Nat) (body : List Byte) : State :=
  let s := { s with mate := { s.mate with txSlot := s.recSlot + 1 } }
  if !s.mateListens then s
  else
    let label := s.epoch + (row / 36 - s.frame)
    let r := mirRecord type s.mate.txSeq label (row % 36) body
    { s with mate := { s.mate with txq := s.mate.txq ++ [r], txSeq := (s.mate.txSeq + 1) % 65536 } }.count .mate 0 2

/-- The RELEASE of the next record: MIR_LAG rows after the one in which it leaves (R296). -/
def State.releaseRow (s : State) : Nat := s.recSlot / 512 + s.rd R.MATE_CTL_MIR_LAG

/-- BODY of a COMMIT record (R295). -/
def commitBody (now arm drop cancel : Bool) (epoch : Nat) : List Byte :=
  beBytes 8 (b2n now * 2 ^ 63 + b2n arm * 2 ^ 62 + b2n drop * 2 ^ 61 + b2n cancel * 2 ^ 60 + epoch % 2 ^ 40)

/-- A request reaches the compiler from the host: directly, or in PRIMARY as a REQ record taken at its RELEASE (R296). One that
needs a tag and has none is not mirrored: this compiler rejects it itself (R370, R371). -/
def State.submit (s : State) (w : W64) (auth list : Bool) : State :=
  if s.mode = mPRIMARY ∧ (auth ∨ !s.enforced) then
    let s' := s.mirrorSend 1 s.releaseRow (beBytes 8 w.toNat)
    { s' with mate := { s'.mate with held := s'.mate.held ++ [⟨s.releaseRow, true, .req w auth list⟩] } }
  else s.enqueue { word := w, auth := auth, list := list }

/-- Requests of the register queue that wait, those for their RELEASE included. -/
def State.pushFill (s : State) : Nat :=
  s.queueFill + (s.mate.held.filter (fun h => match h.kind with
    | .req _ _ l => !l
    | .commit _ _ _ _ _ => false)).length

/-- A write of REQ_HI pushes the request (R129). -/
def State.reqPush (s : State) (hi : Nat) : State :=
  let s := s.wr R.MAPC_REQ_HI_WORD hi
  if !s.compilerOpen || s.on R.MAPC_STAT_LIST_BUSY then s.mapRefused
  else if 256 ≤ s.pushFill then (s.wr R.MAPC_REJ_INFO_OVERRUN 1).raise .mapc 0 1
  else (s.submit (BitVec.ofNat 64 (hi % 2 ^ 32 * 2 ^ 32 + s.rd R.MAPC_REQ_LO_WORD)) false false).queueMark

/-- REQ_PUSH. -/
def execReqPush (hi : W32) (s : State) : Host.Outcome State Fault Refusal := s.onPage .mapc 0 (fun s => s.reqPush hi.toNat)

/-! Request lists (R129, R372). -/

/-- Little-endian 64-bit words of a list. -/
def listWords (n : Nat) (bs : List Byte) : List W64 := (List.range n).map (fun i => BitVec.ofNat 64 (ofLe (sliceBytes bs (8 * i) 8)))

/-- LIST_CTL.START is written (R129, R372). -/
def State.listStart (s : State) : State :=
  let n := s.rd R.MAPC_LIST_LEN_LEN
  if !s.compilerOpen || s.on R.MAPC_STAT_LIST_BUSY || s.pushFill != 0 || n = 0 || (s.enforced && decide (4096 < n)) then s.mapRefused
  else
    let s := (s.wr R.MAPC_STAT_LIST_BUSY 1).wr R.MAPC_LIST_DONE_DONE 0
    let s := { s with mc := { s.mc with fetched := 0, stopping := false, buf := [], tag := [], checking := false, listAuth := true } }
    if !s.enforced then s
    else
      let r := s.listRead (s.rd R.MAPC_LIST_ADDR_ADDR * 8) (8 * n + 16)
      if r.cause = 0 then
        { r.s with mc := { r.s.mc with checking := true, buf := listWords n r.data, tag := (r.data.drop (8 * n)).take 16 } }
      else { r.s with mc := { r.s.mc with checking := true } }

/-- LIST_START. -/
def execListStart (s : State) : Host.Outcome State Fault Refusal := s.onPage .mapc 0 (fun s => s.listStart)

/-- LIST_CTL.ABORT is written: the list stops after the request in progress (R129). -/
def State.listAbort (s : State) : State :=
  if s.on R.MAPC_STAT_LIST_BUSY then { s with mc := { s.mc with stopping := true } }.listCheck else s

/-- LIST_ABORT. -/
def execListAbort (s : State) : Host.Outcome State Fault Refusal := s.onPage .mapc 0 (fun s => s.listAbort)

/-- `n` requests of the copied list are rejected alike (R372). -/
def State.rejectAll (ws : List Nat) (reason : Nat) (s : State) : State := ws.foldl (fun s w => s.reject w reason) s

/-- The next request of the running list is due: none of the list waits, and requests may be taken. -/
def State.fetchDue (s : State) : Bool :=
  s.on R.MAPC_STAT_LIST_BUSY && !s.mc.checking && !s.mc.stopping && decide (s.mc.fetched < s.rd R.MAPC_LIST_LEN_LEN) &&
  !(s.mc.queue.any (fun r => r.list)) && !(s.mate.held.any (fun h => match h.kind with
    | .req _ _ l => l
    | .commit _ _ _ _ _ => false)) && s.mayTake ⟨0, true, true⟩

/-- LIST_REQUEST_FETCH: the next request comes from the buffer, or from memory through the matrix; an error response rejects it
with FETCH and stops the list (R129). -/
def execListRequestFetch (s : State) : Host.Outcome State Fault Refusal :=
  let s := s.start
  if !s.fetchDue then ok s
  else
    let i := s.mc.fetched
    let take (s : State) (w : W64) (auth : Bool) : State :=
      { s with mc := { s.mc with fetched := i + 1 } }.submit w auth true
    match s.mc.buf[i]? with
    | some w => ok (take s w s.mc.listAuth)
    | none =>
      let r := s.listRead (s.rd R.MAPC_LIST_ADDR_ADDR * 8 + 8 * i) 8
      if r.cause = 0 then ok (take r.s (BitVec.ofNat 64 (ofLe r.data)) false)
      else ok (r.s.reject 0 7).listEnd

/-! Issuing a commit (R164 to R172). -/

/-- COMMIT_STAT.REFUSED and CMT_REFUSED (R164). -/
def State.commitRefused (s : State) : State := (s.wr R.MAPC_COMMIT_STAT_REFUSED 1).raise .mapc 0 9

/-- PENDING, CUT and the pending commit cleared. -/
def State.commitGone (s : State) : State :=
  let s := { s with mc := { s.mc with commit := none } }
  (s.wr R.MAPC_COMMIT_STAT_PENDING 0).wrB R.MAPC_COMMIT_STAT_CUT (s.on R.MAPC_COMMIT_STAT_CATCHUP)

/-- A commit becomes pending, behind the requests and the list that precede it (R164, R165). -/
def State.commitPend (s : State) (kind : CommitKind) (held : Bool) : State :=
  let c : Commit := { kind := kind, held := held, ahead := s.mc.queue.length, list := s.on R.MAPC_STAT_LIST_BUSY }
  { s with mc := { s.mc with commit := some c } }.wr R.MAPC_COMMIT_STAT_PENDING 1

/-- A pending commit is withdrawn, unless its cut has passed (R172). -/
def State.commitCancel (s : State) : State :=
  match s.mc.commit with
  | none => s
  | some c =>
    if c.taken && s.on R.MAPC_COMMIT_STAT_CUT then s
    else s.commitGone.wr R.MAPC_COMMIT_STAT_CANCELLED 1

/-- A COMMIT record waits for its RELEASE (R296). -/
def State.commitHold (s : State) (now arm drop cancel : Bool) (epoch : Nat) : State :=
  let s' := s.mirrorSend 2 s.releaseRow (commitBody now arm drop cancel epoch)
  { s' with mate := { s'.mate with held := s'.mate.held ++ [⟨s.releaseRow, true, .commit now arm drop cancel epoch⟩] } }

/-- NOW or ARM asked for, its tag in order (R164, R165): refused, or pending. -/
def State.commitNew (s : State) (a : Ask) : State :=
  let now := a.ctl.testBit 0
  let arm := a.ctl.testBit 1
  let drop := a.ctl.testBit 2
  if (now && arm) || !s.compilerOpen || s.mc.commit.isSome then s.commitRefused
  else
    let s := s.commitPend (if now then .now else .arm a.epoch drop) (s.mode == mPRIMARY)
    if s.mode = mPRIMARY then s.commitHold now arm drop false a.epoch else s

/-- CANCEL asked for, its tag in order (R172). -/
def State.cancelAsk (s : State) : State :=
  if !s.compilerOpen then s
  else if s.mode = mPRIMARY then s.commitHold false false false true 0
  else s.commitCancel

/-- What a write of COMMIT_CTL asks for, NOW or ARM before CANCEL; refused when its tag fails (R164 to R166, R172). -/
def State.commitAsk (s : State) (a : Ask) : State :=
  let t := s.commitTag a
  if !t.2 then (t.1.wr R.MAPC_COMMIT_STAT_AUTH_FAIL 1).commitRefused
  else
    let s := if a.ctl.testBit 0 || a.ctl.testBit 1 then t.1.commitNew a else t.1
    if a.ctl.testBit 3 then s.cancelAsk else s

/-- The check of a copied list ends (R372): a list that could not be copied is rejected with FETCH, one whose tag fails with AUTH;
otherwise it runs from the buffer. -/
def State.listChecked (s : State) : State :=
  if s.mc.buf.isEmpty then (s.rejectAll (List.replicate (s.rd R.MAPC_LIST_LEN_LEN) 0) 7).listEnd
  else
    let hdr := tagHeader 0x4C 0 s.authSeq (s.mc.buf.length)
    let t := s.checkTag hdr (s.mc.buf.flatMap (fun w => leBytes 8 w.toNat)) s.mc.tag
    if t.2 then { t.1 with mc := { t.1.mc with checking := false } }
    else ((t.1.rejectAll (s.mc.buf.map (fun w => w.toNat)) 5).wr R.MAPC_LIST_DONE_DONE s.mc.buf.length).listEnd

/-- LIST_TAG_CHECK_DONE: the commits written during the check are checked after it, in order (R371). -/
def execListTagCheckDone (s : State) : Host.Outcome State Fault Refusal :=
  let s := s.start
  if !s.mc.checking then ok s
  else
    let s := s.listChecked
    ok (s.mc.asks.foldl State.commitAsk { s with mc := { s.mc with asks := [] } })

/-! Checksum scans (R177). -/

/-- A scan is asked for; refused while a scan or a catch-up runs. -/
def State.sumAsk (s : State) (act edit : Bool) : State :=
  if s.on R.MAPC_COMMIT_STAT_SUM_BUSY || s.on R.MAPC_COMMIT_STAT_CATCHUP || !s.mc.inited then s.commitRefused
  else { s with mc := { s.mc with sumAct := act, sumEdit := edit } }.wr R.MAPC_COMMIT_STAT_SUM_BUSY 1

/-- SUM_ACT. -/
def execSumAct (s : State) : Host.Outcome State Fault Refusal := s.onPage .mapc 0 (fun s => s.sumAsk true false)

/-- SUM_EDIT. -/
def execSumEdit (s : State) : Host.Outcome State Fault Refusal := s.onPage .mapc 0 (fun s => s.sumAsk false true)

/-- Words of a bank that fail their code are rebuilt before they are summed or copied (R177, R181). -/
def State.rebuildBad (s : State) (edit : Bool) : State :=
  (s.bank edit).bad.foldl (fun s e => if (mget? (s.bank edit).bad e.1).isSome then s.rebuild edit e.1 else s) s

/-- The active sums are computed. -/
def State.sumActive (s : State) : State :=
  let s := s.rebuildBad false
  ((s.wr R.MAPC_ACT_DSUM_SUM s.mc.act.dsum).wr R.MAPC_ACT_SSUM_SUM s.mc.act.ssum).wr R.MAPC_COMMIT_STAT_SUM_VALID 1

/-- The edit sums are computed. -/
def State.sumEditing (s : State) : State :=
  let s := s.rebuildBad true
  ((s.wr R.MAPC_EDIT_DSUM_SUM s.mc.edit.dsum).wr R.MAPC_EDIT_SSUM_SUM s.mc.edit.ssum).wr R.MAPC_COMMIT_STAT_EDIT_SUM_VALID 1

/-- SUM_DONE: the scan that runs ends; the active bank's comes first, and SUM_DONE is raised once, when both have ended (R177). -/
def execSumDone (s : State) : Host.Outcome State Fault Refusal :=
  let s := s.start
  if !s.on R.MAPC_COMMIT_STAT_SUM_BUSY then ok s
  else
    let finish (s : State) : State := (s.wr R.MAPC_COMMIT_STAT_SUM_BUSY 0).raise .mapc 0 12
    if s.mc.sumAct then
      let s := s.sumActive
      let s := { s with mc := { s.mc with sumAct := false } }
      ok (if s.mc.sumEdit then s else finish s)
    else
      let s := s.sumEditing
      ok (finish { s with mc := { s.mc with sumEdit := false } })

/-- A write that asks for NOW, ARM or CANCEL clears the tag registers (R166); during a list's check it waits (R371). -/
def State.commitWrite (s : State) (v : Nat) : State :=
  let a : Ask := { ctl := v % 4 + 4 * b2n (v.testBit 3) + 8 * b2n (v.testBit 2), epoch := s.rd R.MAPC_COMMIT_EPOCH_EPOCH,
                   tag := s.tagBytes R.MAPC_COMMIT_TAG_TAG }
  let s := s.clearWords R.MAPC_COMMIT_TAG_TAG 4
  if s.mc.checking then { s with mc := { s.mc with asks := s.mc.asks ++ [a] } } else s.commitAsk a

/-- The control bits of COMMIT_CTL as one write (R164 to R172, R177). -/
def State.commitCtlWrite (s : State) (v : Nat) : State :=
  let s := s.wr R.MAPC_COMMIT_CTL_DROP_LATE (v / 8)
  let s := if v.testBit 0 || v.testBit 1 || v.testBit 2 then s.commitWrite v else s
  if v.testBit 4 || v.testBit 5 then s.sumAsk (v.testBit 5) (v.testBit 4) else s

/-- COMMIT_NOW. -/
def execCommitNow (s : State) : Host.Outcome State Fault Refusal := s.onPage .mapc 0 (fun s => s.commitCtlWrite 1)

/-- COMMIT_ARM. -/
def execCommitArm (dropLate : Bool) (s : State) : Host.Outcome State Fault Refusal :=
  s.onPage .mapc 0 (fun s => s.commitCtlWrite (2 + 8 * b2n dropLate))

/-- COMMIT_CANCEL. DROP_LATE keeps its value. -/
def execCommitCancel (s : State) : Host.Outcome State Fault Refusal :=
  s.onPage .mapc 0 (fun s => s.commitCtlWrite (4 + 8 * s.rd R.MAPC_COMMIT_CTL_DROP_LATE))

/-- The first frame whose cut, 600 control cycles before its hinge, has not passed (R167). -/
def State.nextFrame (s : State) : Nat := if s.cyc ≤ 74400 then s.frame + 1 else s.frame + 2

/-- A late commit is reported and counted (R171). -/
def State.lateDrop (s : State) : State :=
  ((s.commitGone.wr R.MAPC_COMMIT_STAT_DROPPED 1).count .mapc 0 9).raise .mapc 0 8

/-- COMMIT_TAKE: the compiler takes the pending commit once every request before it is done and no catch-up runs (R164, R165); an
armed one behind E_n is late at once (R170, R171). -/
def State.commitTake (s : State) : State :=
  match s.mc.commit with
  | none => s
  | some c =>
    if c.held || c.taken || c.ahead != 0 || c.list || s.on R.MAPC_COMMIT_STAT_CATCHUP || !s.mc.inited then s
    else
      let put (c : Commit) : State := { s with mc := { s.mc with commit := some c } }
      match c.kind with
      | .now => put { c with taken := true, due := some s.nextFrame }
      | .arm e drop =>
        let en := s.labelOf (s.nextFrame - s.frame)
        if epochStep en e < 2 ^ 39 then put { c with taken := true }
        else if drop then s.lateDrop
        else put { c with taken := true, due := some s.nextFrame, late := true }

/-- COMMIT_TAKE. -/
def execCommitTake (s : State) : Host.Outcome State Fault Refusal := ok s.start.commitTake

/-- COMMIT_CUT: the cut has come, 600 control cycles before the commit's hinge (R167). -/
def execCommitCut (s : State) : Host.Outcome State Fault Refusal :=
  let s := s.start
  if s.cutDue then ok (s.wr R.MAPC_COMMIT_STAT_CUT 1) else ok s

/-- The sequences that the compiler holds on T1 and T2 begin at a swap, and end 64 control cycles later (R173). A target that another
master has locked is left to it (DESIGN CHOICE, log entry 96). -/
def State.swapLocks (s : State) : State :=
  let put (m : SMap Nat) (t : Nat) : SMap Nat := if (mget? m t).isSome then m else mput m t 4
  let opens (s : State) (t : Nat) : State := if (mget? s.mx.locks t).isSome then s else s.mark (.lock t)
  let u := opens (opens s 1) 2
  { u with mx := { u.mx with locks := put (put s.mx.locks 1) 2 }, mc := { u.mc with swapLock := true } }

/-- The end of the swap's sequences (R173). -/
def State.swapUnlock (s : State) : State :=
  let del (m : SMap Nat) (t : Nat) : SMap Nat := if mget? m t = some 4 then mdel m t else m
  if s.mc.swapLock then { s with mx := { s.mx with locks := del (del s.mx.locks 1) 2 }, mc := { s.mc with swapLock := false } } else s

/-- The swap at the commit's hinge, whose label is `e` (R173). -/
def State.commitSwap (s : State) (c : Commit) (e : Nat) : State :=
  let s := { s with mc := { s.mc with act := s.mc.edit, edit := s.mc.act, image := 1 - s.mc.image, commit := none,
                                      sweeps := s.mc.sweeps.map (fun x : Bool × Nat => (!x.1, x.2)) } }
  let armed := match c.kind with
    | .now => false
    | .arm _ _ => true
  let s := ((s.wr R.MAPC_COMMIT_STAT_PENDING 0).wr R.MAPC_COMMIT_STAT_CUT 1).wr R.MAPC_COMMIT_STAT_CATCHUP 1
  let s := ((s.wr R.MAPC_LAST_EPOCH_EPOCH e).wrB R.MAPC_LAST_EPOCH_ARMED armed).wrB R.MAPC_LAST_EPOCH_LATE c.late
  let s := (s.wr R.MAPC_COMMIT_STAT_SUM_VALID 0).wr R.MAPC_COMMIT_STAT_EDIT_SUM_VALID 0
  let s := ((s.bumpWrap R.MAPC_COMMIT_CNT_COUNT).count .mapc 0 6).raise .mapc 0 5
  let s := s.swapLocks
  if c.late then ((s.wr R.MAPC_COMMIT_STAT_LATE 1).count .mapc 0 9).raise .mapc 0 7 else s

/-- The commit at a hinge that begins frame `k` with label `e`: applied, found late (R171), or left pending. -/
def State.commitHinge (s : State) (k e : Nat) : State :=
  match s.mc.commit with
  | none => s
  | some c =>
    if c.dueAt k e then s.commitSwap c e
    else
      match c.kind with
      | .now => s
      | .arm a drop =>
        if c.taken && c.due.isNone && decide (epochStep a e < 2 ^ 39) then
          if drop then s.lateDrop else { s with mc := { s.mc with commit := some { c with due := some (k + 1), late := true } } }
        else s

/-- What marks the edit bank's bursts after a catch-up: a copy that changes a word makes its burst dirty (R211). -/
def catchClean (act edit : Bank) : SMap Nat :=
  let ks := (act.words.map (·.1)) ++ (edit.words.map (·.1))
  ks.foldl (fun m k => if act.word k = edit.word k then m else mdel m (burstKey k)) edit.clean

/-- The centre words that the active bank lost are swept before it is copied, and the edit bank's need no sweep any more (R180, R181). -/
def State.sweepActive (s : State) : State :=
  let s := (s.mc.sweeps.filter (fun x => !x.1)).foldl (fun s x => s.sweepSlot x.1 x.2) s
  { s with mc := { s.mc with sweeps := [] } }

/-- CATCHUP_DONE: the edit bank is level with the active one, the sums are valid, and requests resume (R173, R177, R182). The
purges and re-placements that waited follow (R136, R175). A pull that this unit serves starts again (R306). -/
def State.catchupDone (s : State) : State :=
  let s := (s.rebuildBad false).sweepActive
  let s := s.setEdit { words := s.mc.act.words, bad := [], clean := catchClean s.mc.act s.mc.edit }
  let d := s.mc.act.dsum
  let t := s.mc.act.ssum
  let s := (((s.wr R.MAPC_ACT_DSUM_SUM d).wr R.MAPC_ACT_SSUM_SUM t).wr R.MAPC_EDIT_DSUM_SUM d).wr R.MAPC_EDIT_SSUM_SUM t
  let s := (s.wr R.MAPC_COMMIT_STAT_SUM_VALID 1).wr R.MAPC_COMMIT_STAT_EDIT_SUM_VALID 1
  let s := ((s.wr R.MAPC_COMMIT_STAT_CATCHUP 0).wr R.MAPC_COMMIT_STAT_CUT 0).raise .mapc 0 6
  let s := s.mc.purgeDue.foldl State.purge s
  let s := if s.mc.placeDue = 0 then s else s.replaceGroups s.mc.placeDue
  let s := { s with mc := { s.mc with purgeDue := [], placeDue := 0 }, mate := { s.mate with serve := s.mate.serve.map (fun _ => 0) } }
  if s.pow.phase = .running then (s.wr R.MAPC_STAT_READY 1).readyChk else s

/-- CATCHUP_DONE. -/
def execCatchupDone (s : State) : Host.Outcome State Fault Refusal :=
  let s := s.start
  if s.on R.MAPC_COMMIT_STAT_CATCHUP then ok s.catchupDone else ok s

end Sys2Proof.Machine
end

