-- ==== Sys2Proof/Machine/Slots.lean ====
section
/-! DEFINITION. The slot fabric and the conference engine (R143 to R161): G.711, the class of an input grooming drawer, slot values
by age, and the output grooming drawers of a frame. -/
namespace Sys2Proof.Machine

/-! G.711 as R157 scales it. -/

/-- Expansion of an A-law code. -/
def alawExpand (c : Byte) : Int :=
  let x := (c ^^^ 0x55).toNat
  let seg := x / 16 % 8
  let st := x % 16
  let mag : Int := if seg = 0 then 16 * st + 8 else (16 * st + 264) * 2 ^ (seg - 1)
  if x.testBit 7 then mag else -mag

/-- Expansion of a µ-law code. -/
def ulawExpand (c : Byte) : Int :=
  let x := (~~~c).toNat
  let mag : Int := (8 * (x % 16) + 132) * 2 ^ (x / 16 % 8) - 132
  if x.testBit 7 then -mag else mag

/-- The lowest segment from `seg` on whose top `lim × 2^seg` lies above `m`; 8 when none of `n` does. -/
def segmentOf (lim m : Nat) (n seg : Nat) : Nat :=
  match n with
  | 0 => 8
  | n + 1 => if m < lim * 2 ^ seg then seg else segmentOf lim m n (seg + 1)

/-- Compression to A-law: the 13-bit result of a shift by 3, then the code. -/
def alawCompress (y : Int) : Byte :=
  let v := y / 8
  let mask : Nat := if 0 ≤ v then 0xD5 else 0x55
  let m := (if 0 ≤ v then v else -v - 1).toNat
  let seg := segmentOf 32 m 8 0
  if 8 ≤ seg then BitVec.ofNat 8 (0x7F ^^^ mask)
  else BitVec.ofNat 8 ((seg * 16 + (if seg < 2 then m / 2 else m / 2 ^ seg) % 16) ^^^ mask)

/-- Compression to µ-law: the 14-bit result of a shift by 2, then the code. -/
def ulawCompress (y : Int) : Byte :=
  let v := y / 4
  let mask : Nat := if 0 ≤ v then 0xFF else 0x7F
  let m := min v.natAbs 8158 + 33
  let seg := segmentOf 64 m 8 0
  if 8 ≤ seg then BitVec.ofNat 8 (0x7F ^^^ mask)
  else BitVec.ofNat 8 ((seg * 16 + m / 2 ^ (seg + 1) % 16) ^^^ mask)

/-- Expansion and compression by the LAW bit (R152, R157). -/
def expandLaw (mu : Bool) (c : Byte) : Int := if mu then ulawExpand c else alawExpand c
def compressLaw (mu : Bool) (y : Int) : Byte := if mu then ulawCompress y else alawCompress y

/-! Input grooming drawers. -/

/-- Input grooming drawer `g`. -/
def State.groom (s : State) (g : Nat) : Groom := mapGet (mapGet {} s.groomDef (drawerQuarter g)) s.grooms g

/-- The class of a drawer (R144): 0 VALID, 1 FAIL, 2 UNEQ, 3 WRONG. -/
def groomClass (ip : Interp) (label : Option Nat) : Nat :=
  if ip.st ≠ .norm then 1
  else
    match label with
    | some 4 => 1
    | some 1 => 0
    | some 3 => 0
    | some 0 => 2
    | none => 2
    | some _ => 3

/-- The container bytes of a frame read as `f`; where no pointer holds, the places they would take at pointer `cur`. -/
def groomBytes (f : FrameRead) (cur : Nat) (b : List Byte) : List (Nat × Byte × Nat) :=
  match f with
  | .none => frameBytes (.plain cur) b
  | .plain _ | .incFrom _ | .decFrom _ | .jump _ => frameBytes f b

/-- A slot value arrives (R147). -/
def pushVal (m : SMap (List (Nat × Byte × Nat))) (slot : Nat) (v : Nat × Byte × Nat) : SMap (List (Nat × Byte × Nat)) :=
  mput m slot ((v :: mapGet [] m slot).take 4)

/-- A frame of an input grooming drawer whose row 0 falls in core row `row`: the drawer, and whether its pointer justified or a
new value was accepted through NDF (R144 to R148). The label runs restart on entry to NORM. -/
def groomStep (g : Groom) (b : List Byte) (row : Nat) : Groom × Bool :=
  let t := interpStep g.ip (b.getD 0 0).toNat
  let jumped := match t.2 with
    | .jump _ => true
    | .none | .plain _ | .incFrom _ | .decFrom _ => false
  let moved := match t.2 with
    | .incFrom _ | .decFrom _ => true
    | .jump v => g.ip.st == .norm && v != g.ip.cur && classify g.ip.st g.ip.cur (b.getD 0 0).toNat == .ndfNew v
    | .none | .plain _ => false
  let m0 := if t.1.st = .norm ∧ g.ip.st ≠ .norm then { g.mon with whole := false, label := none, lblRun := {} }
    else if jumped then { g.mon with whole := false } else g.mon
  let bs := frameBytes t.2 b
  let m := monBytes m0 false bs
  let vals := (groomBytes t.2 t.1.cur b).foldl (fun v x =>
    if x.2.2 < 2 then v else pushVal v (x.2.2 - 2) (row + x.1, x.2.1, g.cls)) (if jumped then [] else g.vals)
  ({ g with ip := t.1, mon := m.1, cls := groomClass t.1 m.1.label, bipErr := satAdd 16 g.bipErr m.2.err,
            just := satAdd 8 g.just (b2n moved), vals := vals }, moved)

/-! Values and output slots. -/

/-- What an output slot takes (R144, R147): a value; 0xFF; its idle code. -/
inductive Taken where
  | value (b : Byte) | ones | idle
  deriving DecidableEq, Repr

/-- A value with its class at arrival, as an output slot takes it. -/
def takenOf (cls : Nat) (b : Byte) : Taken := if cls = 0 then .value b else if cls = 1 then .ones else .idle

/-- What the frame brings to the evaluation of output slots: for each input grooming drawer, how its column is read in this frame
and its column with the bytes that do not come from an output grooming drawer; the number of the output grooming drawer that
feeds it, if one does; the bytes that a detection puts in place of the fed ones, by row; slots that failed parity; words that
failed their code. -/
structure SlotEnv where
  reads : SMap (FrameRead × Col)
  feeds : SMap Nat
  patch : Nat → Nat → Option Byte
  par   : List Nat
  bad   : Nat → Bool

/-- The idle code that a slot word selects (R151). -/
def State.idleCode (s : State) (w : Nat) : Byte :=
  BitVec.ofNat 8 (if wKind w = 0 then w % 256 else if wIdle w then s.rd R.SFAB_CTL_IDLE1 else s.rd R.SFAB_CTL_IDLE0)

/-- The arrivals of slot `sl` of input drawer `g` in this frame, by row: places in the column. -/
def SlotEnv.places (e : SlotEnv) (s : State) (g sl : Nat) : List Nat :=
  match mget? e.reads g with
  | none => []
  | some (f, _) => ((groomBytes f (s.groom g).ip.cur []).filter (fun x => x.2.2 == sl + 2)).map (fun x => x.1)

/-- Output grooming drawer `g` is live (R146), its quarter on. -/
def State.live (s : State) (g : Nat) : Bool :=
  s.quarterOn (drawerQuarter g) && (List.range 32).any (fun o =>
    let k := wKind (s.mc.act.word (slotKey (32 * g + o)))
    k == 1 || k == 2)

/-- The conference sample of a party (R157 step 1): none when it is silenced or muted. `v` takes a slot's value. -/
def partySample (s : State) (e : SlotEnv) (v : Nat → Taken) (b p : Nat) : Option Int :=
  let k := partyKey b p
  let w := s.mc.act.word k
  if !wJoined w || wMute w || e.bad k then none
  else
    match v (wSrc w) with
    | .value c => some (expandLaw (wLaw w) c)
    | .ones | .idle => none

/-- The sum of a bridge's samples without party `p` (R157 steps 2 and 3). -/
def legSum (s : State) (e : SlotEnv) (v : Nat → Taken) (b p : Nat) : Int :=
  (List.range 64).foldl (fun a q => if q = p then a else a + (partySample s e v b q).getD 0) 0

/-- What a leg carries (R157): the sum for party `p`, clamped and encoded. A leg whose bridge lies in a quarter that is off has its
source there, and carries its idle code (R156). -/
def legByte (s : State) (e : SlotEnv) (v : Nat → Taken) (w : Nat) : Byte :=
  let b := wSrc w / 64
  let p := wSrc w % 64
  let pw := s.mc.act.word (partyKey b p)
  if e.bad (partyKey b p) then 0
  else if !wJoined pw || !s.quarterOn (bridgeQuarter b) then s.idleCode w
  else compressLaw (wLaw pw) (clampInt (-32768) 32767 (legSum s e v b p))

/-- H of a container that the unit builds (R107, R109, R110): the parity of the one before it, REI, RDI, label and TAG. -/
def hByte (par : Byte) (rei rdi : Bool) (label : Nat) (tag : Bool) : Byte :=
  let p := bip2 par
  BitVec.ofNat 8 (b2n p.1 * 128 + b2n p.2 * 64 + b2n rei * 32 + b2n rdi * 16 + label % 8 * 2 + b2n tag)

/-- A column built at pointer 0 from a container (R146, R141). -/
def builtCol (c : List Byte) : Col := { b := 0x40 :: 0 :: c, h := 0, just := false, ais := false }

/-- H and K of output grooming drawer `g` (R146): REI and RDI report input grooming drawer `g`. -/
def groomH (s : State) (g : Nat) : Byte :=
  let d := s.groom g
  hByte d.par d.mon.lastErr (d.cls == 1 || d.cls == 2) 1 (tagTx s.epoch)
def groomK (s : State) : Byte := BitVec.ofNat 8 (s.epoch % 32 * 8)

/-- Row `r` of output grooming drawer `g` as another input grooming drawer receives it (R146); `slot` gives its output slots. -/
def groomRow (s : State) (slot : Nat → Byte) (g r : Nat) : Byte :=
  if !s.live g then 0
  else if r = 2 then groomH s g
  else if r = 3 then groomK s
  else if 4 ≤ r then slot (r - 4)
  else 0

/-- The byte in row `r` of input grooming drawer `gi` in this frame; `slot` gives the output slots of the drawer that feeds it. -/
def SlotEnv.rowByte (e : SlotEnv) (s : State) (slot : Nat → Nat → Byte) (gi r : Nat) : Byte :=
  match mget? e.feeds gi with
  | some gf =>
    match e.patch gi r with
    | some b => b
    | none => groomRow s (slot gf) gf r
  | none =>
    match mget? e.reads gi with
    | some (_, c) => c.b.getD r 0
    | none => 0

/-- The value of input slot `src` that arrived last 2 rows before output slot `o` is read in frame `k`, with the class of its drawer
at its arrival; none when no value has arrived since the pointer last jumped (R144, R147). -/
def slotValue (s : State) (e : SlotEnv) (slot : Nat → Nat → Byte) (k o src : Nat) : Option (Nat × Byte) :=
  let gi := slotDrawer src
  let sl := slotNum src
  let d := s.groom gi
  match ((e.places s gi sl).filter (fun r => decide (r ≤ o + 2))).getLast? with
  | some r => some (d.cls, e.rowByte s slot gi r)
  | none =>
    let jumped := match mget? e.reads gi with
      | some (.jump _, _) => true
      | some _ => false
      | none => false
    match (mapGet [] d.vals sl).filter (fun v => !jumped && decide (v.1 ≤ 36 * k + o + 2)) with
    | v :: _ => some (v.2.2, v.2.1)
    | [] => none

/-- What output slot `o` takes from input slot `src` (R144, R147, R156, R159). -/
def slotTake (s : State) (e : SlotEnv) (slot : Nat → Nat → Byte) (k o src : Nat) : Taken :=
  if !s.quarterOn (slotQuarter src) || e.par.contains src then .idle
  else
    match slotValue s e slot k o src with
    | some (c, b) => takenOf c b
    | none => if (s.groom (slotDrawer src)).cls = 1 then .ones else .idle

/-- What output slot `o` of drawer `g` carries in frame `k`: `n` bounds the chain of output grooming drawers that feed each other,
each of which adds 2 rows at least (R147, R157, R159). -/
def slotByte (s : State) (e : SlotEnv) (k : Nat) (n : Nat) (g o : Nat) : Byte :=
  match n with
  | 0 => 0
  | n + 1 =>
    let key := slotKey (32 * g + o)
    let w := s.mc.act.word key
    let take (src : Nat) : Taken := slotTake s e (fun gf o' => slotByte s e k n gf o') k o src
    if e.bad key then 0
    else
      match wKind w with
      | 1 =>
        match take (wSrc w) with
        | .value b => b
        | .ones => 0xFF
        | .idle => s.idleCode w
      | 2 => legByte s e take w
      | _ => s.idleCode w

/-- Every output slot of a frame: 18 steps reach from the last row to the first. -/
def slotOf (s : State) (e : SlotEnv) (k g o : Nat) : Byte := slotByte s e k 18 g o

/-- The container that output grooming drawer `g` carries in frame `k` (R146). -/
def groomContainer (s : State) (e : SlotEnv) (k g : Nat) : List Byte :=
  groomH s g :: groomK s :: (List.range 32).map (fun o => slotOf s e k g o)

/-- Drawers with a slot word of kind slot or leg in the active bank, in order. -/
def State.liveList (s : State) : List Nat :=
  ((s.mc.act.listed (2 ^ 22) (2 ^ 22 + 2 ^ 21)).foldl (fun (m : SMap Nat) e =>
    if wKind e.2 = 1 ∨ wKind e.2 = 2 then mput m ((e.1 - 2 ^ 22) / 32) 1 else m) []).map (fun e => e.1)

/-- The output grooming drawers of frame `k`: number and column; the others are unequipped (R146, R156). -/
def State.groomCols (s : State) (e : SlotEnv) (k : Nat) : SMap Col :=
  (s.liveList.filter (fun g => s.live g)).foldl (fun m g => mput m g (builtCol (groomContainer s e k g))) []

/-- The legs of live drawers: output slot and word. -/
def State.legs (s : State) : List (Nat × Nat) :=
  ((s.mc.act.listed (2 ^ 22) (2 ^ 22 + 2 ^ 21)).filter (fun e =>
    wKind e.2 == 2 && s.quarterOn (slotQuarter (e.1 - 2 ^ 22)) && s.quarterOn (bridgeQuarter (wSrc e.2 / 64)) &&
    wJoined (s.mc.act.word (partyKey (wSrc e.2 / 64) (wSrc e.2 % 64))))).map (fun e => (e.1 - 2 ^ 22, e.2))

/-- A listener's sum saturates: bridge count, event and counter (R157). -/
def State.legSat (s : State) (b : Nat) : State :=
  let s := { s with bridgeSat := mapSet 0 s.bridgeSat b (satAdd 24 (mapGet 0 s.bridgeSat b) 1) }
  (s.count .conf 0 1).raise .conf 0 0

/-- The sum that output slot `o` of kind leg hears, word `w`, before it is clamped (R157). -/
def legExact (s : State) (e : SlotEnv) (k o w : Nat) : Int :=
  legSum s e (slotTake s e (slotOf s e k) k o) (wSrc w / 64) (wSrc w % 64)

/-- Input slot `src` is silenced at the read row of output slot `o` because its input is not VALID (R144, R157). -/
def slotSilenced (s : State) (e : SlotEnv) (k o src : Nat) : Bool :=
  s.quarterOn (slotQuarter src) && !e.par.contains src &&
  (match slotValue s e (slotOf s e k) k o src with
   | some (c, _) => c != 0
   | none => (s.groom (slotDrawer src)).cls != 0)

/-- Parties of a bridge that are joined in the active bank, not muted, and silenced by their input's class (R157). -/
def State.silencedParties (s : State) (e : SlotEnv) (k o b : Nat) : Nat :=
  ((List.range 64).filter (fun p =>
    let w := s.mc.act.word (partyKey b p)
    wJoined w && !wMute w && slotSilenced s e k o (wSrc w))).length

/-! The ports of SFAB and CONF. -/

/-- A read of G_CMD or B_CMD is latched (bits: 1 READ, 4 CLR). -/
def State.gCmd (s : State) (op : Nat) : State := s.portLatch .sfab { op := op, idx := s.rd R.SFAB_G_IDX_DRAWER, cfg := [] }
def State.confCmd (s : State) (op : Nat) : State := s.portLatch .conf { op := op, idx := s.rd R.CONF_B_IDX_BRIDGE, cfg := [] }

/-- G_READ and G_READ_CLEAR. -/
def execGRead (s : State) : Host.Outcome State Fault Refusal := s.onPage .sfab 0 (fun s => s.gCmd 1)
def execGReadClear (s : State) : Host.Outcome State Fault Refusal := s.onPage .sfab 0 (fun s => s.gCmd 5)

/-- CONF_READ and CONF_READ_CLEAR. -/
def execConfRead (s : State) : Host.Outcome State Fault Refusal := s.onPage .conf 0 (fun s => s.confCmd 1)
def execConfReadClear (s : State) : Host.Outcome State Fault Refusal := s.onPage .conf 0 (fun s => s.confCmd 5)

/-- Grooming drawer `g` is changed. -/
def State.setGroom (s : State) (g : Nat) (d : Groom) : State := { s with grooms := mput s.grooms g d }

/-- The command at the SFAB port completes: drawer g is captured. -/
def State.gDone (s : State) (c : PortCmd) : State :=
  let s := s.portFree .sfab
  if !c.op.testBit 0 then s
  else
    let d := s.groom c.idx
    let ptr := d.ip.cur
    let s := ((s.wrB R.SFAB_G_STAT_LIVE (s.live c.idx)).wr R.SFAB_G_STAT_PTR_CORE ptr).wr R.SFAB_G_STAT_LABEL_ACC
      (d.mon.label.getD 0)
    let s := (s.wr R.SFAB_G_STAT_PSTATE (pstate d.ip.st)).wr R.SFAB_G_STAT_CLASS d.cls
    let s := (s.wr R.SFAB_G_CNT_JUST d.just).wr R.SFAB_G_CNT_BIP_ERR d.bipErr
    if c.op.testBit 2 then s.setGroom c.idx { d with just := 0, bipErr := 0 } else s

/-- The command at the CONF port completes: bridge b is captured. -/
def State.confDone (s : State) (c : PortCmd) : State :=
  let s := s.portFree .conf
  if !c.op.testBit 0 then s
  else
    let b := c.idx
    let joined := (List.range 64).filter (fun p => wJoined (s.mc.act.word (partyKey b p)))
    let silent := joined.filter (fun p =>
      let w := s.mc.act.word (partyKey b p)
      !wMute w && (s.groom (slotDrawer (wSrc w))).cls != 0)
    let s := (s.wr R.CONF_B_STAT_PARTIES joined.length).wr R.CONF_B_STAT_SILENT silent.length
    let s := s.wr R.CONF_B_CNT_SAT (mapGet 0 s.bridgeSat b)
    if c.op.testBit 2 then { s with bridgeSat := mapSet 0 s.bridgeSat b 0 } else s

end Sys2Proof.Machine
end

