-- ==== Sys2Proof/Machine/BenchUnit.lean ====
section
/-! DEFINITION. The pattern bench (R141, R142, R437). -/
namespace Sys2Proof.Machine

/-- Bench drawer `b`. -/
def State.bench (s : State) (b : Nat) : Bench := mapGet {} s.benches b

/-- That drawer set. -/
def State.setBench (s : State) (b : Nat) (d : Bench) : State := { s with benches := mapSet {} s.benches b d }

def Bench.genEn (d : Bench) : Bool := d.cfg.testBit 0
def Bench.anaEn (d : Bench) : Bool := d.cfg.testBit 1
def Bench.pattern (d : Bench) : Nat := d.cfg / 4 % 4
def Bench.fixed (d : Bench) : Nat := d.cfg / 256 % 256

/-- The next bit of a pattern from register `q`: bit `i` of the payload byte counts for FIXED (R141). The PRBS of O.150 are sent
inverted. -/
def patBit (pattern fixed q i : Nat) : Bool :=
  match pattern with
  | 0 => !(q.testBit 14 != q.testBit 13)
  | 1 => !(q.testBit 22 != q.testBit 17)
  | _ => fixed.testBit (7 - i % 8)

/-- The register after bit `b` of the pattern; FIXED uses none. -/
def patNext (pattern q : Nat) (b : Bool) : Nat := if 2 ≤ pattern then q else (2 * q + b2n (!b)) % 2 ^ 23

/-- The register holds a state of the pattern: one of zeros alone is none of a PRBS. -/
def patState (pattern q : Nat) : Bool :=
  match pattern with
  | 0 => q % 2 ^ 15 != 0
  | 1 => q % 2 ^ 23 != 0
  | _ => true

/-- `n` bits of a pattern, and the register after them. -/
def patBits (pattern fixed : Nat) (n i q : Nat) : List Bool × Nat :=
  match n with
  | 0 => ([], q)
  | n + 1 =>
    let b := patBit pattern fixed q i
    let t := patBits pattern fixed n (i + 1) (patNext pattern q b)
    (b :: t.1, t.2)

/-- A frame of the generator: the drawer and its column; unequipped while GEN_EN = 0 (R141). RDI follows the analyser's interpreter and
accepted label, which stand in AIS and at none while ANA_EN = 0, so that RDI is then 1 (DESIGN CHOICE, log entry 97). -/
def benchGen (d : Bench) (epoch : Nat) : Bench × Col :=
  if !d.genEn then ({ d with par := 0 }, uneqCol)
  else
    let t := patBits d.pattern d.fixed 256 0 d.gen
    let rdi := d.ip.st == .lop || d.ip.st == .ais || d.mon.label == some 4 || d.mon.label == some 0
    let c := hByte d.par d.mon.lastErr rdi 3 (tagTx epoch) :: BitVec.ofNat 8 (epoch % 32 * 8) :: bitsToBytes t.1
    ({ d with gen := t.2, par := xorBytes c }, builtCol c)

/-- What the analyser found in some payload bits: errors counted in sync, and sync losses. -/
structure AnaStat where
  errs : Nat := 0
  loss : Nat := 0
  deriving DecidableEq, Repr

/-- The analyser takes payload bit `b`, bit `i` of its byte (R142): out of sync its register follows the received bits; 64 correct
in a row gain sync; in sync it runs on its own, and 8 errors within 64 bits lose it. -/
def anaBit (d : Bench) (i : Nat) (b : Bool) : Bench × AnaStat :=
  let want := patBit d.pattern d.fixed d.ana i
  let bad := b != want
  if d.sync then
    let win := (2 * d.win + b2n bad) % 2 ^ 64
    if 8 ≤ popCount 64 win then
      ({ d with sync := false, good := 0, win := 0, ana := patNext d.pattern d.ana want, loss := satAdd 8 d.loss 1,
                errs := satAdd 24 d.errs (b2n bad) }, { errs := b2n bad, loss := 1 })
    else ({ d with win := win, ana := patNext d.pattern d.ana want, errs := satAdd 24 d.errs (b2n bad) }, { errs := b2n bad })
  else
    let good := if bad || !patState d.pattern d.ana then 0 else d.good + 1
    if 64 ≤ good then ({ d with sync := true, good := 0, win := 0, ana := patNext d.pattern d.ana b }, {})
    else ({ d with good := good, ana := patNext d.pattern d.ana b }, {})

/-- The analyser takes bits in order. -/
def anaBits (d : Bench) (i : Nat) (bs : List Bool) : Bench × AnaStat :=
  match bs with
  | [] => (d, {})
  | b :: r =>
    let t := anaBit d i b
    let u := anaBits t.1 (i + 1) r
    (u.1, { errs := t.2.errs + u.2.errs, loss := t.2.loss + u.2.loss })

/-- A frame of the column that reaches bench drawer `d` (R142): the drawer, what was found, and errored containers. The epoch of
the frame in which container 0 arrived gives DELAY, modulo 2^21. -/
def benchAna (d : Bench) (b : List Byte) (epoch : Nat) : Bench × AnaStat × Nat :=
  if !d.anaEn then (d, {}, 0)
  else
    let t := interpStep d.ip (b.getD 0 0).toNat
    let m0 := match t.2 with
      | .jump _ => { d.mon with whole := false }
      | .none | .plain _ | .incFrom _ | .decFrom _ => d.mon
    let bs := frameBytes t.2 b
    let m := monBytes m0 true bs
    let u := anaBits { d with ip := t.1, mon := m.1 } 0
      ((bs.filter (fun x => decide (2 ≤ x.2.2))).flatMap (fun x => beBits 8 x.2.1.toNat))
    let d' : Bench := { u.1 with bipErr := satAdd 16 u.1.bipErr m.2.err }
    let g : TagRx := d'.mon.tagrx
    let heads := (bs.filter (fun x => x.2.2 == 0)).length
    let d' : Bench := if g.sync && decide (1 ≤ g.phase) && decide (g.phase ≤ heads) then
        { d' with delay := (epoch % 2 ^ 21 + 2 ^ 21 - g.exp * 32 % 2 ^ 21) % 2 ^ 21 }
      else d'
    (d', u.2, m.2.err)

/-- B_CFG as a word, FIXED in [15:8], PATTERN in [3:2]. -/
def State.benchCfgWord (s : State) : Nat :=
  s.rd R.BENCH_B_CFG_FIXED * 256 + s.rd R.BENCH_B_CFG_PATTERN * 4 + s.rd R.BENCH_B_CFG_ANA_EN * 2 + s.rd R.BENCH_B_CFG_GEN_EN

/-- B_CMD is written (bits: 1 READ, 2 WRITE, 4 CLR). -/
def State.benchCmd (s : State) (op : Nat) : State :=
  s.portLatch .bench { op := op, idx := s.rd R.BENCH_B_IDX_DRAWER, cfg := [s.benchCfgWord] }

/-- BENCH_READ, BENCH_READ_CLEAR and BENCH_WRITE. -/
def execBenchRead (s : State) : Host.Outcome State Fault Refusal := s.onPage .bench 0 (fun s => s.benchCmd 1)
def execBenchReadClear (s : State) : Host.Outcome State Fault Refusal := s.onPage .bench 0 (fun s => s.benchCmd 5)
def execBenchWrite (s : State) : Host.Outcome State Fault Refusal := s.onPage .bench 0 (fun s => s.benchCmd 2)

/-- The command at the bench port completes; a WRITE takes effect at the next hinge (R437). -/
def State.benchDone (s : State) (c : PortCmd) : State :=
  let s := s.portFree .bench
  let s := if c.op.testBit 1 then s.setBench c.idx { s.bench c.idx with cfgDue := some (c.cfg.headD 0) } else s
  if !c.op.testBit 0 then s
  else
    let d := s.bench c.idx
    let s := (((s.wr R.BENCH_B_CFG_FIXED d.fixed).wr R.BENCH_B_CFG_PATTERN d.pattern).wrB R.BENCH_B_CFG_ANA_EN d.anaEn).wrB
      R.BENCH_B_CFG_GEN_EN d.genEn
    let s := ((s.wr R.BENCH_B_STAT_DELAY (if d.mon.tagrx.sync then d.delay else 0)).wrB R.BENCH_B_STAT_TAG_SYNC d.mon.tagrx.sync).wrB
      R.BENCH_B_STAT_PAT_SYNC d.sync
    let s := (s.wrB R.BENCH_B_STAT_PSTATE_OK (d.ip.st == .norm)).wr R.BENCH_B_CNT_SYNC_LOSS d.loss
    let s := (s.wr R.BENCH_B_CNT_BIT_ERR d.errs).wr R.BENCH_B_CNT2_BIP_ERR d.bipErr
    if c.op.testBit 2 then s.setBench c.idx { d with loss := 0, errs := 0, bipErr := 0 } else s

end Sys2Proof.Machine
end

