-- ==== Sys2Proof/Machine/Prot.lean ====
section
/-! DEFINITION. Protection: the selectors of output drawers and the lane-pair groups, their conditions, commands and decision
(R184 to R203). -/
namespace Sys2Proof.Machine

/-! Settings and requests. -/

/-- The settings of a selector or a group that its decision uses. -/
structure SelPar where
  en      : Bool
  revert  : Bool
  holdoff : Nat
  wtr     : Nat
  deriving DecidableEq, Repr

/-- The settings in an S_CFG word. -/
def selPar (w : Nat) : SelPar := ⟨w.testBit 0, w.testBit 1, bits w 3 7, bits w 10 10⟩

/-- The settings in a G_CFG word; its DUAL bit and lanes. -/
def grpPar (w : Nat) : SelPar := ⟨w.testBit 0, w.testBit 2, bits w 15 7, bits w 22 10⟩
def grpDual (w : Nat) : Bool := w.testBit 1
def grpW (w : Nat) : Nat := bits w 3 6
def grpP (w : Nat) : Nat := bits w 9 6

/-- Request codes of R76. -/
def rqLO : Nat := 0xF
def rqFS : Nat := 0xD
def rqSF : Nat := 0xB
def rqSD : Nat := 9
def rqMS : Nat := 7
def rqWTR : Nat := 5
def rqDNR : Nat := 1
def rqNR : Nat := 0

/-- Command codes of R187. -/
def cmdCLEAR : Nat := 1
def cmdLO : Nat := 2
def cmdFS : Nat := 3
def cmdMSP : Nat := 4
def cmdMSW : Nat := 5

/-- Rank of a command (R187): the order of the table; 0 for none. -/
def cmdRank (c : Nat) : Nat :=
  match c with
  | 2 => 4 | 3 => 3 | 4 => 2 | 5 => 1 | _ => 0

/-- A side's condition as a request (R186): SF, SD. -/
def SideCond.sf (c : SideCond) : Bool := c.done && c.cond == 2
def SideCond.sd (c : SideCond) : Bool := c.done && c.cond == 1

/-- Some SF or SD request exists. -/
def Sel.anyReq (u : Sel) : Bool := u.w.sf || u.w.sd || u.p.sf || u.p.sd

/-- A hold-off runs on a side. -/
def SideCond.holds (c : SideCond) : Bool := c.cond != 0 && !c.done

/-- A side at a hinge at which its condition is `cond` (R186, R193): a lapsed condition is removed; a new one, or one whose source
changed, starts its hold-off; SF and SD pass the time on to each other. `runs` says that the timers run (R203). -/
def SideCond.follow (c : SideCond) (holdoff cond : Nat) (restart runs : Bool) : SideCond :=
  if cond = 0 then {}
  else if c.cond = 0 ∨ restart then { cond := cond, done := holdoff == 0 }
  else if c.done || c.due || holdoff == 0 then { cond := cond, done := true }
  else { cond := cond, ran := c.ran + b2n runs }

/-- The decision of R189: request and side (true for protect). -/
def decideSel (u : Sel) (revert : Bool) : Nat × Bool :=
  if u.cmd = cmdLO then (rqLO, false)
  else if u.cmd = cmdFS then (rqFS, true)
  else if u.p.sf then (rqSF, u.w.sf && u.prot)
  else if u.w.sf then (rqSF, true)
  else if u.p.sd then (rqSD, u.w.sd && u.prot)
  else if u.w.sd then (rqSD, true)
  else if u.cmd = cmdMSP then (rqMS, true)
  else if u.cmd = cmdMSW then (rqMS, false)
  else if u.wtr then (rqWTR, true)
  else if u.prot && !revert then (rqDNR, true)
  else (rqNR, false)

/-- Wait-to-restore and manual switches before the decision (R187, R190). -/
def Sel.timers (u : Sel) (par : SelPar) : Sel :=
  let f := u.anyReq
  let u := if (u.cmd = cmdMSP ∨ u.cmd = cmdMSW) ∧ f then { u with cmd := 0 } else u
  let u := if u.wtrDue || !par.revert then { u with wtr := false, wtrDue := false } else u
  if u.fault && !f && u.prot then { u with fault := false, wtr := par.revert && par.wtr != 0 } else u

/-- A selector decides at a hinge (R189 to R191): the request, wait-to-restore discarded under a higher one, and whether protect
is selected because of a fault. `far` is the far-end request and side that a dual-ended group compares with (R199). -/
def Sel.judge (u : Sel) (par : SelPar) (far : Option (Nat × Bool)) : Sel :=
  let u := u.timers par
  let r := decideSel u par.revert
  let fault := if r.2 ∧ (r.1 = rqSF ∨ r.1 = rqSD) then true else if !r.2 ∨ rqMS ≤ r.1 then false else u.fault
  let wtr := u.wtr && decide (r.1 ≤ rqWTR)
  let side := match far with
    | some f => if r.1 < f.1 then f.2 else r.2
    | none => r.2
  { u with req := r.1, fault := fault, wtr := wtr, wtrDue := u.wtrDue && wtr,
           move := if side = u.prot then none else some side }

/-- The hinge labels at which a hold-off and a wait-to-restore that now run, and did not in `old`, started (R295). -/
def Sel.stamp (u old : Sel) (label : Nat) : Sel :=
  let h (v : Sel) : Bool := v.w.holds || v.p.holds
  { u with holdAt := if h u && !h old then label % 256 else u.holdAt, wtrAt := if u.wtr && !old.wtr then label % 256 else u.wtrAt }

/-- The frames for which a wait-to-restore that ran in `old` too has run, while the timers run (R190, R203). -/
def Sel.wtrRuns (u old : Sel) (runs : Bool) : Sel :=
  { u with wtrRan := if u.wtr && old.wtr then old.wtrRan + b2n runs else 0 }

/-- What a SEL or GRP record says of a selector or group (R295), below its number: selected side, request, held command, settings
and the two labels. A move decided and a command or settings that wait count as made: they take effect at the hinge the record
names. -/
def Sel.mirror (u : Sel) (cfgBits : Nat) : Nat :=
  let cmd := match u.cmdDue with
    | some c => if c = cmdCLEAR then 0 else c
    | none => u.cmd
  (((b2n (u.move.getD u.prot) * 16 + u.req % 16) * 8 + cmd % 8) * 2 ^ cfgBits + u.cfgDue.getD u.cfg % 2 ^ cfgBits) * 2 ^ 16 +
  u.holdAt % 256 * 256 + u.wtrAt % 256

/-- A waiting command is taken (R191). -/
def Sel.take (u : Sel) : Sel :=
  match u.cmdDue with
  | none => u
  | some c => { u with cmd := if c = cmdCLEAR then 0 else c, cmdDue := none }

/-- A selector or group before its first hinge with EN = 1: only its settings and its count of moves are kept. -/
def Sel.fresh (u : Sel) (cfg : Nat) : Sel := { cfg := cfg, switches := u.switches }

/-- Selector of output `a`. -/
def State.sel (s : State) (a : Nat) : Sel := mapGet {} s.sels a

/-- That selector set. -/
def State.setSel (s : State) (a : Nat) (u : Sel) : State := { s with sels := mapSet {} s.sels a u }

/-- Lane-pair group `g`. -/
def State.grp (s : State) (g : Nat) : Sel := mapGet {} s.groups g

/-- That group set. -/
def State.setGrp (s : State) (g : Nat) (u : Sel) : State := { s with groups := mapSet {} s.groups g u }

/-- The unit decides its selectors (R203): neither STANDBY nor ISOLATE. -/
def State.decides (s : State) : Bool := s.mode != mSTANDBY && s.mode != mISOLATE

/-- Records are taken in STANDBY, and in ISOLATE once the pull of R306 has begun (R203, R306). -/
def State.takesMirror (s : State) : Bool :=
  s.mode == mSTANDBY || (s.mode == mISOLATE && decide (2 ≤ s.rd R.MATE_STAT_RTS_STEP) && decide (s.rd R.MATE_STAT_RTS_STEP ≤ 4))

/-- The protection timers run (R203): where the unit decides, and where it takes the timers of the mirror, whose labels say when they
began. They stand still in an ISOLATE without a mirror and in WARM, where the state is frozen. -/
def State.timersRun (s : State) : Bool := (s.decides && trafficMode s.mode) || s.takesMirror

/-- G_CFG[g] as a word. -/
def State.gCfgWord (s : State) (g : Nat) : Nat :=
  s.rd R.PROT_G_CFG_WTR 0 g * 2 ^ 22 + s.rd R.PROT_G_CFG_HOLDOFF 0 g * 2 ^ 15 + s.rd R.PROT_G_CFG_P_LANE 0 g * 2 ^ 9 +
  s.rd R.PROT_G_CFG_W_LANE 0 g * 8 + s.rd R.PROT_G_CFG_REVERT 0 g * 4 + s.rd R.PROT_G_CFG_DUAL 0 g * 2 + s.rd R.PROT_G_CFG_EN 0 g

/-- Group `g` with the settings of G_CFG[g], which wait for the next hinge (R191, R195). -/
def State.grpAsk (s : State) (g : Nat) : Sel := { s.grp g with cfgDue := some (s.gCfgWord g) }

/-- In PRIMARY, selector `a` or group `g` as it will stand at the next hinge goes to the mate (R297). -/
def State.mirrorSel (s : State) (a : Nat) : State :=
  if s.mode = mPRIMARY then s.mirrorSend 3 (36 * (s.frame + 1)) (beBytes 8 (a * 2 ^ 44 + (s.sel a).mirror 20)) else s
def State.mirrorGrp (s : State) (g : Nat) : State :=
  if s.mode = mPRIMARY then s.mirrorSend 4 (36 * (s.frame + 1)) (beBytes 8 (g * 2 ^ 56 + (s.grpAsk g).mirror 32)) else s

/-! Conditions (R185, R196, R200). -/

/-- Condition of a lane: 2 SF, 1 SD, 0 none. -/
def State.laneCond (s : State) (n : Nat) : Nat :=
  if !s.running n || !s.domUp (4 + n / 4) || !s.domUp (20 + n / 4) || s.actionB n || (s.laneDef n).testBit 8 || s.nearLoop n then 2
  else b2n ((s.laneDef n).testBit 7)

/-- The lane whose received drawers input port `n` carries: the selected one, for the working lane of an enabled group (R196). -/
def State.laneAt (s : State) (n : Nat) : Nat :=
  match s.groups.find? (fun e => (grpPar e.2.cfg).en && grpW e.2.cfg == n) with
  | some e => if e.2.prot then grpP e.2.cfg else n
  | none => n

/-- Condition of the drawer at an input address; `pwFailed` says which contexts the engine reports failed (R185). -/
def State.drawerCond (s : State) (pwFailed : Nat → Bool) (a : Nat) : Nat :=
  let p := portOf a
  if p < 64 then
    let n := s.laneAt p
    let l := s.laneCond n
    let d := s.drw n (colOf a)
    if l = 2 then 2
    else if d.monEn && d.declared &&& 0b1001111 != 0 then 2
    else if l = 1 || (d.monEn && d.declared.testBit 5) then 1
    else 0
  else if p < 72 then (if s.quarterOn (drawerQuarter (a - groomBase)) then 0 else 2)
  else if p < 74 then (if pwFailed (a - pwBase) || !s.domUp (54 + (p - 72)) then 2 else 0)
  else if (s.bench (a - benchBase)).genEn then 0 else 2

/-- Condition of a side that takes its signal from `src` (R185). -/
def State.sideCond (s : State) (pwFailed : Nat → Bool) (src : Source) : Nat :=
  match src with
  | .uneq | .ais => 2
  | .drawer a => s.drawerCond pwFailed a

/-! Moves at a hinge. -/

/-- A selector's move is counted and reported: SWITCHES, SEL_SW, the change bit (R184, R192, R341). -/
def State.selMoved (s : State) (a : Nat) (prot : Bool) : State :=
  let s := s.count .prot 0 1
  let s := if prot then s.count .prot 0 2 else s
  let k := a / 512
  let s := { s with ev := { s.ev with chgSel := mapSet 0 s.ev.chgSel k (setBit (mapGet 0 s.ev.chgSel k) (a % 512)) } }
  s.raise .prot 0 0

/-- New settings of a selector take effect (R184, R191): clearing EN returns it to the working side, which is a move if protect
was selected; setting EN starts it anew. -/
def State.selCfg (s : State) (a : Nat) : State :=
  let u := s.sel a
  match u.cfgDue with
  | none => s
  | some w =>
    let was := (selPar u.cfg).en
    let now := (selPar w).en
    if was && now then s.setSel a { u with cfg := w, cfgDue := none }
    else
      let moved := was && u.prot
      let v := u.fresh w
      let s := s.setSel a { v with switches := satAdd 16 v.switches (b2n moved) }
      if moved then s.selMoved a false else s

/-- The move decided in the frame before takes effect, unless a commit changed a source at this hinge (R191, R193). -/
def State.selMove (s : State) (a : Nat) (changed : Bool) : State :=
  let u := s.sel a
  match u.move with
  | none => s
  | some side =>
    if changed then (s.setSel a { u with move := none }).count .prot 0 4
    else (s.setSel a { u with move := none, prot := side, switches := satAdd 16 u.switches 1 }).selMoved a side

/-- The part of a selector's hinge that may move it: settings, then the move. Run before the frame's sources are read. -/
def State.selTurn (s : State) (a : Nat) (changed : Bool) : State :=
  let s := s.selCfg a
  if (selPar (s.sel a).cfg).en then s.selMove a changed else s

/-- The part of a selector's hinge that decides (R186 to R191): commands, conditions, timers, decision. `cw`, `cp` are the
conditions of the sides; `nw`, `np` say that a commit changed their sources. -/
def State.selDecide (s : State) (a cw cp : Nat) (nw np : Bool) : State :=
  let u := s.sel a
  let par := selPar u.cfg
  if !par.en then s
  else
    let u := u.take
    let u := { u with w := u.w.follow par.holdoff cw nw s.timersRun, p := u.p.follow par.holdoff cp np s.timersRun,
                      wtr := u.wtr && !(nw || np), wtrDue := u.wtrDue && !(nw || np) }
    let v := if s.decides then (u.judge par none).stamp (s.sel a) s.epoch else { u with move := none }
    s.setSel a (v.wtrRuns u s.timersRun)

/-! Lane-pair groups. -/

/-- G_STAT[g] shows group `g`. -/
def State.showGrp (s : State) (g : Nat) : State :=
  let u := s.grp g
  let s := ((s.wr R.PROT_G_STAT_SWITCHES u.switches 0 g).wr R.PROT_G_STAT_FAR_REQ u.far 0 g).wr R.PROT_G_STAT_REQUEST u.req 0 g
  let s := ((s.wr R.PROT_G_STAT_CMD_HELD u.cmd 0 g).wrB R.PROT_G_STAT_APS_MM u.mm 0 g).wrB R.PROT_G_STAT_WTR_RUN u.wtr 0 g
  s.wrB R.PROT_G_STAT_SELECTED u.prot 0 g

/-- The APS bytes that a group sends (R76, R198, R199). -/
def Sel.aps (u : Sel) : Nat :=
  u.req * 2 ^ 12 + b2n u.prot * 2 ^ 8 + b2n (grpDual u.cfg) * 2 ^ 6 + b2n (grpPar u.cfg).revert * 2 ^ 5

/-- Both lanes of a settings word send `v` as APS bytes (R196). -/
def State.sendAps (s : State) (cfg v : Nat) : State :=
  (s.updLane (grpW cfg) (fun l => { l with apsTx := v })).updLane (grpP cfg) (fun l => { l with apsTx := v })

/-- New settings of a group take effect at a hinge (R195); a group whose lanes change, or that is enabled, starts anew. -/
def State.grpCfg (s : State) (g : Nat) : State :=
  let u := s.grp g
  let w := s.gCfgWord g
  if u.cfg = w then s
  else
    let was := (grpPar u.cfg).en
    let now := (grpPar w).en
    let s := if was then s.sendAps u.cfg 0 else s
    if was && now && grpW u.cfg == grpW w && grpP u.cfg == grpP w then s.setGrp g { u with cfg := w }
    else s.setGrp g (u.fresh w)

/-- A group's move takes effect (R197). -/
def State.grpMove (s : State) (g : Nat) : State :=
  let u := s.grp g
  match u.move with
  | none => s
  | some side =>
    ((s.setGrp g { u with move := none, prot := side, switches := satAdd 16 u.switches 1 }).count .prot 0 3).raise .prot 0 2

/-- The part of a group's hinge that may move it. -/
def State.grpTurn (s : State) (g : Nat) : State :=
  let s := s.grpCfg g
  if (grpPar (s.grp g).cfg).en then s.grpMove g else s

/-- Conditions of the two lanes of a group (R197, R200); `dual` when it acts dual-ended. -/
def State.grpConds (s : State) (cfg far : Nat) (dual : Bool) : Nat × Nat :=
  let w := grpW cfg
  let p := grpP cfg
  (if dual && (s.laneDef w).testBit 5 && decide (far < rqSF) then 2 else s.laneCond w,
   if dual && (s.laneDef p).testBit 5 then 2 else s.laneCond p)

/-- The part of a group's hinge that decides (R197 to R202), with what it then shows and sends. -/
def State.grpDecide (s : State) (g : Nat) : State :=
  let u := s.grp g
  let par := grpPar u.cfg
  if !par.en then s.showGrp g
  else
    let aps := (s.lane (grpP u.cfg)).apsGood
    let far := aps / 4096
    let dual := grpDual u.cfg && !u.mm
    let c := s.grpConds u.cfg far dual
    let u := { u.take with far := far }
    let u := { u with w := u.w.follow par.holdoff c.1 false s.timersRun, p := u.p.follow par.holdoff c.2 false s.timersRun }
    let old := s.grp g
    let u := (if s.decides then (u.judge par (if dual then some (far, aps / 256 % 16 == 1) else none)).stamp old s.epoch
      else { u with move := none }).wtrRuns u s.timersRun
    ((s.setGrp g u).sendAps u.cfg u.aps).showGrp g

/-- Another enabled group holds lane `n`. -/
def State.grpHolds (s : State) (g n : Nat) : Bool :=
  (List.range 32).any (fun h => h != g && s.on R.PROT_G_CFG_EN 0 h &&
    (s.rd R.PROT_G_CFG_W_LANE 0 h == n || s.rd R.PROT_G_CFG_P_LANE 0 h == n))

/-- G_CFG[g] is written: an enable that R195 does not accept is ignored and sets CFG_ERR. WTR above 720 and HOLDOFF above 100 are
reserved and keep their value (R16). -/
def State.gCfgWrite (s : State) (g v : Nat) : State :=
  let w := grpW v
  let p := grpP v
  if v.testBit 0 && (w == p || s.rate w != s.rate p || s.grpHolds g w || s.grpHolds g p) then s.wr R.PROT_G_STAT_CFG_ERR 1 0 g
  else
    let s := if bits v 22 10 ≤ 720 then s.wr R.PROT_G_CFG_WTR (bits v 22 10) 0 g else s
    let s := if bits v 15 7 ≤ 100 then s.wr R.PROT_G_CFG_HOLDOFF (bits v 15 7) 0 g else s
    let s := (s.wr R.PROT_G_CFG_P_LANE p 0 g).wr R.PROT_G_CFG_W_LANE w 0 g
    (((s.wr R.PROT_G_CFG_REVERT (v / 4) 0 g).wr R.PROT_G_CFG_DUAL (v / 2) 0 g).wr R.PROT_G_CFG_EN v 0 g).mirrorGrp g

/-- G_CFG_WRITE. In STANDBY and ISOLATE the host configures as before (R287 names commands). -/
def execGCfgWrite (g : Fin 32) (v : W32) (s : State) : Host.Outcome State Fault Refusal :=
  s.onPage .prot 0 (fun s => s.gCfgWrite g.val v.toNat)

/-! Commands (R187). -/

/-- A command may be given to `u`: EN = 1 in effect, rank, and no MS while an SF or SD request exists. -/
def Sel.accepts (u : Sel) (par : SelPar) (c : Nat) : Bool :=
  let held := match u.cmdDue with
    | some d => if d = cmdCLEAR then 0 else d
    | none => u.cmd
  par.en && (c == cmdCLEAR || (decide (cmdRank held ≤ cmdRank c) && !((c == cmdMSP || c == cmdMSW) && u.anyReq)))

/-- A code that R187 gives a command. -/
def cmdKnown (c : Nat) : Bool := decide (1 ≤ c) && decide (c ≤ 5)

/-- A command to group `g` (R187, R287). -/
def State.grpCommand (s : State) (g c : Nat) : State :=
  let u := s.grp g
  if !cmdKnown c then s
  else if s.decides && u.accepts (grpPar u.cfg) c then (s.setGrp g { u with cmdDue := some c }).mirrorGrp g
  else (s.wr R.PROT_G_STAT_CMD_ERR 1 0 g).raise .prot 0 1

/-- GRP_LO, GRP_FS, GRP_MS_P, GRP_MS_W and GRP_CLEAR. -/
def execGrpLo (g : Fin 32) (s : State) : Host.Outcome State Fault Refusal := s.onPage .prot 0 (fun s => s.grpCommand g.val cmdLO)
def execGrpFs (g : Fin 32) (s : State) : Host.Outcome State Fault Refusal := s.onPage .prot 0 (fun s => s.grpCommand g.val cmdFS)
def execGrpMsP (g : Fin 32) (s : State) : Host.Outcome State Fault Refusal := s.onPage .prot 0 (fun s => s.grpCommand g.val cmdMSP)
def execGrpMsW (g : Fin 32) (s : State) : Host.Outcome State Fault Refusal := s.onPage .prot 0 (fun s => s.grpCommand g.val cmdMSW)
def execGrpClear (g : Fin 32) (s : State) : Host.Outcome State Fault Refusal :=
  s.onPage .prot 0 (fun s => s.grpCommand g.val cmdCLEAR)

/-- S_CFG as a word. -/
def State.sCfgWord (s : State) : Nat :=
  s.rd R.PROT_S_CFG_WTR * 2 ^ 10 + s.rd R.PROT_S_CFG_HOLDOFF * 8 + s.rd R.PROT_S_CFG_REVERT * 2 + s.rd R.PROT_S_CFG_EN

/-- S_CMD is written: bits READ 1, WRITE 2, CLR 4, EXEC 8 and COMMAND in [6:4] are latched with the index and the settings. -/
def State.sCmd (s : State) (v : Nat) : State :=
  s.portLatch .prot { op := v % 128, idx := s.rd R.PROT_S_IDX_OUT, cfg := [s.sCfgWord] }

/-- SEL_LO, SEL_FS, SEL_MS_P, SEL_MS_W and SEL_CLEAR. -/
def execSelLo (s : State) : Host.Outcome State Fault Refusal := s.onPage .prot 0 (fun s => s.sCmd (8 + 16 * cmdLO))
def execSelFs (s : State) : Host.Outcome State Fault Refusal := s.onPage .prot 0 (fun s => s.sCmd (8 + 16 * cmdFS))
def execSelMsP (s : State) : Host.Outcome State Fault Refusal := s.onPage .prot 0 (fun s => s.sCmd (8 + 16 * cmdMSP))
def execSelMsW (s : State) : Host.Outcome State Fault Refusal := s.onPage .prot 0 (fun s => s.sCmd (8 + 16 * cmdMSW))
def execSelClear (s : State) : Host.Outcome State Fault Refusal := s.onPage .prot 0 (fun s => s.sCmd (8 + 16 * cmdCLEAR))

/-- S_READ, S_READ_CLEAR and S_WRITE. -/
def execSRead (s : State) : Host.Outcome State Fault Refusal := s.onPage .prot 0 (fun s => s.sCmd 1)
def execSReadClear (s : State) : Host.Outcome State Fault Refusal := s.onPage .prot 0 (fun s => s.sCmd 5)
def execSWrite (s : State) : Host.Outcome State Fault Refusal := s.onPage .prot 0 (fun s => s.sCmd 2)

/-- S_CMD.ERR and, for a refused command, CMD_ERR. -/
def State.sErr (s : State) : State := s.wr R.PROT_S_CMD_ERR 1
def State.sRefused (s : State) : State := s.sErr.raise .prot 0 1

/-- A command to the selector of output `a` (R187); in STANDBY and ISOLATE every EXEC is refused, a reserved code's too (R287). -/
def State.selCommand (s : State) (a c : Nat) : State :=
  let u := s.sel a
  if !s.decides then s.sRefused
  else if !cmdKnown c then s
  else if u.accepts (selPar u.cfg) c then (s.setSel a { u with cmdDue := some c }).mirrorSel a
  else s.sRefused

/-- Settings for the selector of output `a`, for the next hinge (R191); refused in STANDBY and ISOLATE (R287). -/
def State.selWrite (s : State) (a w : Nat) : State :=
  if s.decides then (s.setSel a { s.sel a with cfgDue := some w }).mirrorSel a else s.sErr

/-- The selector of output `a` is captured, with the settings in effect (R191); `clr` clears SWITCHES. -/
def State.selCapture (s : State) (a : Nat) (clr : Bool) : State :=
  let u := s.sel a
  let w := u.cfg
  let s := ((s.wr R.PROT_S_CFG_WTR (w / 2 ^ 10)).wr R.PROT_S_CFG_HOLDOFF (w / 8)).wr R.PROT_S_CFG_REVERT (w / 2)
  let s := (s.wr R.PROT_S_CFG_EN w).wr R.PROT_S_STAT_SWITCHES u.switches
  let s := ((s.wr R.PROT_S_STAT_CMD_HELD u.cmd).wr R.PROT_S_STAT_REQUEST u.req).wrB R.PROT_S_STAT_WTR_RUN u.wtr
  let s := (s.wrB R.PROT_S_STAT_HOLD_RUN (u.w.holds || u.p.holds)).wr R.PROT_S_STAT_COND
    (b2n u.w.sf * 8 + b2n u.w.sd * 4 + b2n u.p.sf * 2 + b2n u.p.sd)
  let s := s.wrB R.PROT_S_STAT_SELECTED u.prot
  if clr then s.setSel a { u with switches := 0 } else s

/-- The command at the PROT port completes: WRITE, then EXEC, then READ. -/
def State.sDone (s : State) (c : PortCmd) : State :=
  let s := s.portFree .prot
  if s.void c.idx then s.sErr
  else
    let s := if c.op.testBit 1 then s.selWrite c.idx (c.cfg.headD 0) else s
    let s := if c.op.testBit 3 then s.selCommand c.idx (c.op / 16 % 8) else s
    if c.op.testBit 0 then s.selCapture c.idx (c.op.testBit 2) else s

/-! Timers. -/

/-- A side whose hold-off has run its time, 800 frames to a step, counts from the next hinge on (R186, R191). `run` is no more than has
run by the end of this frame (log entry 89). -/
def SideCond.expire (c : SideCond) (holdoff run : Nat) : SideCond :=
  if c.holds ∧ holdoff ≤ run ∧ 800 * run ≤ c.ran + 1 then { c with due := true } else c

/-- A hold-off of `u` ends on one side. -/
def Sel.holdoffEnds (u : Sel) (par : SelPar) (side : Side) (run : Nat) : Sel :=
  match side with
  | .working => { u with w := u.w.expire par.holdoff run }
  | .protect => { u with p := u.p.expire par.holdoff run }

/-- A wait-to-restore of `u` ends, 8,000 frames to a second (R190); `run` is no more than has run by the end of this frame. -/
def Sel.wtrEnds (u : Sel) (par : SelPar) (run : Nat) : Sel :=
  if u.wtr ∧ par.wtr ≤ run ∧ 8000 * run ≤ u.wtrRan + 1 then { u with wtrDue := true } else u

/-- HOLDOFF_EXPIRE: `run` in 100 ms steps, counted only while the timers run (R203). -/
def execHoldoffExpire (t : SelRef) (side : Side) (run : Nat) (s : State) : Host.Outcome State Fault Refusal :=
  let s := s.start
  if !s.timersRun then ok s
  else
    match t with
    | .out a => ok (s.setSel a.toNat ((s.sel a.toNat).holdoffEnds (selPar (s.sel a.toNat).cfg) side run))
    | .group g => ok (s.setGrp g ((s.grp g).holdoffEnds (grpPar (s.grp g).cfg) side run))

/-- WTR_EXPIRE: `run` in seconds. -/
def execWtrExpire (t : SelRef) (run : Nat) (s : State) : Host.Outcome State Fault Refusal :=
  let s := s.start
  if !s.timersRun then ok s
  else
    match t with
    | .out a => ok (s.setSel a.toNat ((s.sel a.toNat).wtrEnds (selPar (s.sel a.toNat).cfg) run))
    | .group g => ok (s.setGrp g ((s.grp g).wtrEnds (grpPar (s.grp g).cfg) run))

/-- No APS value has been accepted on lane `n` for 400 frames (R202). A frame that repeats a value three times or more counts as
accepting it (DEDUCED, log entry 101). -/
def State.apsSilent (s : State) (n : Nat) : Bool :=
  match (s.lane n).apsAt with
  | none => true
  | some f => decide (f + 400 ≤ s.frame)

/-- Group `g` has a cause of APS_MM (R202): no APS value accepted on lane P, an ARCH, DUAL or REVERT accepted that differs from its own,
or a reserved REQUEST. -/
def State.apsCause (s : State) (g : Nat) : Bool :=
  let cfg := (s.grp g).cfg
  let v := s.rd R.LANEF_RX_APS_APS (grpP cfg)
  s.apsSilent (grpP cfg) || v.testBit 7 || v.testBit 6 != grpDual cfg || v.testBit 5 != (grpPar cfg).revert || !apsReqOk v

/-- APS_MM of group `g` is declared with a cause, or cleared without one (R202). -/
def State.apsMm (s : State) (g : Nat) (v : Bool) : State :=
  let u := s.grp g
  if !(grpPar u.cfg).en || u.mm == v || s.apsCause g != v then s
  else ((s.setGrp g { u with mm := v }).showGrp g).raise .prot 0 3

/-- APS_MM_DECLARE: 400 consecutive frames with a cause. -/
def execApsMmDeclare (g : Fin 32) (s : State) : Host.Outcome State Fault Refusal := ok (s.start.apsMm g.val true)

/-- APS_MM_CLEAR: 400 consecutive frames without one. -/
def execApsMmClear (g : Fin 32) (s : State) : Host.Outcome State Fault Refusal := ok (s.start.apsMm g.val false)

end Sys2Proof.Machine
end

