-- ==== Sys2Proof/Machine/Equal.lean ====
section
/-! DEFINITION. The equaliser: groups, delay measurement, choice of containers, fallback (R215 to R227). -/
namespace Sys2Proof.Machine

/-- Group `q`. -/
def State.eqg (s : State) (q : Nat) : EqGroup := mapGet {} s.eqs q

/-- That group set. -/
def State.setEq (s : State) (q : Nat) (g : EqGroup) : State := { s with eqs := mapSet {} s.eqs q g }

/-- EN, WIN and OUT of a Q_CFG word. -/
def eqEn (w : Nat) : Bool := w.testBit 31
def eqWin (w : Nat) : Nat := bits w 20 8 + 1
def eqOut (w : Nat) : Nat := bits w 0 20

/-- The states of R216. -/
def eqOFF : Nat := 0
def eqACQUIRE : Nat := 1
def eqEQUALISED : Nat := 2
def eqFALLBACK : Nat := 3

/-! The copies (R217, R219, R220). -/

/-- Sequence number of the container whose TAG bit an aligned receiver took last (R217). -/
def seqNo (t : TagRx) : Nat := (t.exp * 32 + t.phase + 2 ^ 21 - 1) % 2 ^ 21

/-- Offset of a copy whose container `n` leaves its column store in the frame with epoch `e` (R217). -/
def eqOffset (n e : Nat) : Nat := (e % 2 ^ 21 + 2 ^ 21 - n % 2 ^ 21) % 2 ^ 21

/-- The byte joins the newest ones that are kept. -/
def EqCopy.keep (c : EqCopy) (x : EqByte) : EqCopy := { c with last := (c.last ++ [x]).drop (c.last.length - 35) }

/-- The container being received ends with `viol` BIP-2 violations; `ok`: it came whole. -/
def EqCopy.close (c : EqCopy) (viol : Nat) (ok : Bool) : EqCopy := { c with done := ((c.n, viol, ok) :: c.done).take 300 }

/-- An H byte reaches the tag alignment of copy `c` in the frame with epoch `e` (R111, R217). -/
def EqCopy.head (c : EqCopy) (e : Nat) (b : Byte) : EqCopy :=
  let t := monH c.mon true b
  let sync := t.1.tagrx.sync
  let n := if sync then seqNo t.1.tagrx else (c.n + 1) % 2 ^ 21
  let zero := sync && n % 32 == 0
  { c.close t.2.viol (c.ok && c.mon.whole && sync) with
    mon := t.1, idx := 1, n := n, ok := sync, had := c.had || sync, mf := c.mf || zero,
    off := if !sync then none else if zero then some (eqOffset n e) else c.off }

/-- The place of a container byte passes, with the byte where one was taken. -/
def EqCopy.byte (e : Nat) (c : EqCopy) (x : Option Byte × Nat) : EqCopy :=
  match x.1, x.2 with
  | some b, 0 => (c.head e b).keep { b := b, idx := 0, n := (c.head e b).n }
  | some b, i + 1 => { c with mon := { c.mon with par := c.mon.par ^^^ b }, idx := (i + 2) % 34 }.keep { b := b, idx := i + 1, n := c.n }
  | none, 0 =>
    { c.close 0 false with mon := { c.mon with whole := false }, idx := 1, n := (c.n + 1) % 2 ^ 21, ok := false }.keep
      { b := 0xFF, idx := 0, n := (c.n + 1) % 2 ^ 21 }
  | none, i + 1 => { c with mon := { c.mon with whole := false }, idx := (i + 2) % 34, ok := false }.keep { b := 0xFF, idx := i + 1, n := c.n }

/-- What a column read as `f` brings to copy `c`: its bytes with their indices. Where none is taken the count of bytes goes on, so
that a copy that comes back finds the output where it left it (DESIGN CHOICE, log entry 78). -/
def EqCopy.taken (c : EqCopy) (f : FrameRead) (b : List Byte) : List (Option Byte × Nat) :=
  let gap (n : Nat) : List (Option Byte × Nat) := (List.range n).map (fun j => (none, (c.idx + j) % 34))
  let bytes := (frameBytes f b).map (fun x => (some x.2.1, x.2.2))
  match f with
  | .none => gap 34
  | .jump v => gap v ++ bytes
  | .plain _ | .incFrom _ | .decFrom _ => bytes

/-- A new pointer that does not continue the count (R105). -/
def EqCopy.restarts (c : EqCopy) (f : FrameRead) : Bool :=
  match f with
  | .jump v => (c.idx + v) % 34 != 0
  | .none | .plain _ | .incFrom _ | .decFrom _ => false

/-- A copy takes the column of the frame with epoch `e`: the copy after it, how many bytes came, and whether it restarted, in which case
only what came since is kept. -/
def EqCopy.frame (c : EqCopy) (e : Nat) (b : List Byte) : EqCopy × Nat × Bool :=
  let t := interpStep c.ip (b.getD 0 0).toNat
  let xs := c.taken t.2 b
  let c' := xs.foldl (EqCopy.byte e) { c with ip := t.1 }
  match t.2 with
  | .jump v =>
    if c.restarts t.2 then ({ c' with last := c'.last.drop (c'.last.length - (34 - v)) }, 34 - v, true)
    else (c', xs.length, false)
  | .none | .plain _ | .incFrom _ | .decFrom _ => (c', xs.length, false)

/-- Place of the byte that comes next, counted in bytes. -/
def EqCopy.pos (c : EqCopy) : Nat := 34 * c.n + (if c.idx = 0 then 34 else c.idx)

/-- The copy of a side, and the group with it set. -/
def EqGroup.copy (g : EqGroup) (prot : Bool) : EqCopy := if prot then g.cp else g.cw
def EqGroup.setCopy (g : EqGroup) (prot : Bool) (c : EqCopy) : EqGroup := if prot then { g with cp := c } else { g with cw := c }

/-- A copy is aligned (R111). -/
def EqCopy.aligned (c : EqCopy) : Bool := c.mon.tagrx.sync

/-! Measuring (R217). -/

/-- Differential delay of two offsets over the shorter way round, and whether protect is the later copy. -/
def eqDelay (w p : Nat) : Nat × Bool :=
  let x := (w + 2 ^ 21 - p) % 2 ^ 21
  if x < 2 ^ 20 then (x, false) else (2 ^ 21 - x, true)

/-- Both copies aligned, at offsets `ow` and `op` (R217, R223, R225); `live`: DRAM is ready and the group lies below CAP. -/
def eqAligned (g : EqGroup) (live : Bool) (ow op : Nat) : EqGroup :=
  let d := eqDelay ow op
  let inside := decide (d.1 ≤ eqWin g.cfg)
  let same := g.agree != 0 && g.offW == ow && g.offP == op
  { g with delay := min d.1 511, offW := ow, offP := op, agree := if same then 2 else 1,
           inWin := if inside && live then min (g.inWin + 1) 2 else 0, outWin := if inside then 0 else min (g.outWin + 1) 2,
           absent := if live && (inside || g.cause != 1) then min (g.absent + 1) 2 else 0 }

/-- An EQUALISED group acts on a value that 2 multiframes agree on (R223): only the earlier copy moved, or it re-anchors. -/
def eqFollow (g : EqGroup) : EqGroup :=
  let d := eqDelay g.offW g.offP
  if g.st != eqEQUALISED || g.agree != 2 || decide (eqWin g.cfg < d.1) then g
  else if d.2 == g.later && (if d.2 then g.offP else g.offW) == g.anchor then { g with held := d.1 }
  else { g with due := true }

/-- A multiframe's measurement, at container 0 of the copy that brings its own last; without alignment of both there is none. -/
def eqMeasure (g : EqGroup) (live : Bool) : EqGroup :=
  match g.cw.off, g.cp.off with
  | some ow, some op =>
    if g.cw.mf && g.cp.mf then
      eqFollow (eqAligned { g with cw := { g.cw with mf := false }, cp := { g.cp with mf := false } } live ow op)
    else g
  | _, _ => { g with agree := 0, inWin := 0, outWin := 0, absent := 0, cw := { g.cw with mf := false }, cp := { g.cp with mf := false } }

/-- DRAM is ready and group `q` lies below CAP. -/
def State.eqLive (s : State) (q : Nat) : Bool := s.dramReady && decide (q < s.eqCap)

/-- EQ_MULTIFRAME: the equaliser takes d at container 0 of a multiframe (R217), which the copy of side `side` is receiving
(DESIGN CHOICE, log entry 69). -/
def execEqMultiframe (q : Fin 65536) (side : Side) (tag : BitVec 16) (s : State) : Host.Outcome State Fault Refusal :=
  let s := s.start
  let g := s.eqg q
  if g.st = eqOFF ∨ (g.copy (side == .protect)).n ≠ 32 * tag.toNat then ok s else ok (s.setEq q (eqMeasure g (s.eqLive q)))

/-! The ring (R218). -/

/-- WTAG of the multiframe of container `n`, and the container's place in its slab. -/
def seqTag (n : Nat) : Nat := n / 32 % 65536
def slabByte (n : Nat) : Nat := 34 * (n % 32)

/-- Burst address of burst `u` of slab `p` of group `q` (R210, R218). -/
def slabBurst (q p u : Nat) : Nat := 160 * q + 17 * p + u

/-- A byte of the earlier copy goes into the gather line of group `q`, and the line, when it is full, into memory. The slab pointer moves
on with container 0 (R218). -/
def State.eqStore (q : Nat) (t : State × EqRing) (x : EqByte) : State × EqRing :=
  let s := t.1
  let r := t.2
  let r := if x.idx ≠ 0 then r
    else { r with slab := if x.n % 32 = 0 ∧ r.first.isSome then (r.slab + 1) % 9 else r.slab, first := some (r.first.getD x.n) }
  if r.first.isNone then (s, r)
  else
    let o := slabByte x.n + x.idx
    let line := match r.gather with
      | some g => if g.1 = o / 64 ∧ g.2.1 = seqTag x.n then g.2.2 else List.replicate 64 0
      | none => List.replicate 64 0
    let line := patchBytes line (o % 64) [x.b]
    if o % 64 = 63 then (s.burstPut rgEqualiser (seqTag x.n) (slabBurst q r.slab (o / 64)) line, { r with gather := none })
    else (s, { r with gather := some (o / 64, seqTag x.n, line) })

/-- Burst `u` of the slab that holds the multiframe with tag `tag`, while tag `now` is being written: out of the gather line, the fetch
line, or memory (R218). -/
def State.eqLine (s : State) (q : Nat) (r : EqRing) (now tag u : Nat) : State × EqRing × Option (List Byte) :=
  let back := (now + 65536 - tag) % 65536
  let p := (r.slab + 9 - back % 9) % 9
  let gathered := match r.gather with
    | some g => if back = 0 ∧ g.1 = u ∧ g.2.1 = tag then some g.2.2 else none
    | none => none
  match gathered with
  | some l => (s, r, some l)
  | none =>
    let again := match r.fetch with
      | some f => f.1 == 17 * p + u && f.2.1 == tag
      | none => false
    if again then (s, r, (r.fetch.bind (fun f => f.2.2)))
    else
      let t := s.burstGet rgEqualiser tag (slabBurst q p u)
      (t.1, { r with fetch := some (17 * p + u, tag, t.2) }, t.2)

/-- Container `n` of the earlier copy is fetched: its bytes, or none where a burst raised a detection. -/
def State.eqFetch (s : State) (q : Nat) (r : EqRing) (now n : Nat) : State × EqRing × Option (List Byte) :=
  let o := slabByte n
  let a := s.eqLine q r now (seqTag n) (o / 64)
  if (o + 33) / 64 = o / 64 then (a.1, a.2.1, a.2.2.map (fun x => sliceBytes x (o % 64) 34))
  else
    let b := a.1.eqLine q a.2.1 now (seqTag n) (o / 64 + 1)
    (b.1, b.2.1, match a.2.2, b.2.2 with
      | some x, some y => some (sliceBytes (x ++ y) (o % 64) 34)
      | _, _ => none)

/-- Container `n` has been stored since the group was anchored. -/
def EqRing.holds (r : EqRing) (n : Nat) : Bool :=
  match r.first with
  | none => false
  | some f => decide ((n + 2 ^ 21 - f) % 2 ^ 21 < 2 ^ 20)

/-! Choosing (R220, R224). -/

/-- What is known of one copy's container: it came whole, its BIP-2 violations, and whether a detection touched what held it. -/
structure EqSight where
  present : Bool := false
  viol    : Nat := 0
  det     : Bool := false
  deriving DecidableEq, Repr

/-- A copy is clean; its rank when it is not. -/
def EqSight.clean (c : EqSight) (sf : Bool) : Bool := c.present && c.viol == 0 && !sf && !c.det
def EqSight.rank (c : EqSight) : Nat := if !c.present || c.det then 3 else c.viol

/-- What copy `c` knows of its container `n`, once container n + 1 has begun. -/
def EqCopy.sight? (c : EqCopy) (n : Nat) : Option EqSight :=
  (c.done.find? (fun e => e.1 == n)).map (fun e => { present := e.2.2, viol := e.2.1 })

/-- The lookahead store lost a byte of container `n`. -/
def EqCopy.lostByte (c : EqCopy) (n : Nat) : Bool := c.last.any (fun x => x.n == n && x.bad)

/-- The side that a container is taken from (true for protect), and whether that is a substitution. `prot` is the preferred side. -/
def eqChoose (u : Sel) (prot : Bool) (w p : EqSight) : Bool × Bool :=
  if u.cmd = cmdLO then (false, false)
  else if u.cmd = cmdFS then (true, false)
  else
    let cw := w.clean (u.w.cond == 2)
    let cp := p.clean (u.p.cond == 2)
    let mine := if prot then cp else cw
    let other := if prot then cw else cp
    let rMine := if prot then p.rank else w.rank
    let rOther := if prot then w.rank else p.rank
    if mine then (prot, false)
    else if other || decide (rOther < rMine) then (!prot, true)
    else (prot, false)

/-- A container of the earlier copy is lost to a detection (MEM_DET). -/
def State.eqLost (s : State) (q : Nat) : State :=
  ((s.setEq q { s.eqg q with memDet := satAdd 8 (s.eqg q).memDet 1 }).count .eq 0 2).raise .eq 0 3

/-- Container `n` of group `q` is released (R219 to R221, R224): the earlier copy's is fetched, and the choice made. In FALLBACK the
preferred side is taken. A container of the earlier copy that cannot be had and is taken all the same is sent as 0xFF (DESIGN
CHOICE, log entry 78). -/
def State.eqRelease (s : State) (q n : Nat) : State :=
  let g := s.eqg q
  let early := g.copy !g.later
  let late := g.copy g.later
  let se := (early.sight? n).getD {}
  let read := s.eqLive q && se.present && g.ring.holds n
  let t := if read then s.eqFetch q g.ring (seqTag early.n) n else (s, g.ring, none)
  let s := t.1.setEq q { g with ring := t.2.1 }
  let s := if read && t.2.2.isNone then s.eqLost q else s
  let e : EqSight := { se with present := read, det := read && t.2.2.isNone }
  let l : EqSight := { (late.sight? n).getD {} with det := late.lostByte n }
  let u := s.sel (eqOut g.cfg)
  let ch := if g.st ≠ eqEQUALISED then (u.prot, false) else if g.later then eqChoose u u.prot e l else eqChoose u u.prot l e
  let s := if ch.2 then s.count .eq 0 1 else s
  let g := s.eqg q
  let take := if ch.1 == g.later then none else some (t.2.2.getD (List.replicate 34 0xFF))
  s.setEq q { g with out := { g.out with rel := some (n, take) }, other := ch.1 != u.prot, subst := satAdd 16 g.subst (b2n ch.2) }

/-- EQ_CONTAINER_RELEASE: container `n` is released as soon as the H byte of container n + 1 has come in the later copy (R219); one that
is not released so is released when it is sent. -/
def execEqContainerRelease (q : Fin 65536) (tag : BitVec 16) (i : Fin 32) (altered : List (Nat × List Byte)) (s : State) :
    Host.Outcome State Fault Refusal :=
  let s := s.start
  let g := s.eqg q
  let n := 32 * tag.toNat + i.val
  if !g.path || g.out.gen != .run || ((g.copy g.later).sight? n).isNone || (g.out.rel.map (fun r => r.1)) == some n then ok s
  else ok ((s.upset altered).eqRelease q n)

/-! The output on the delayed path (R219, R222, R224). -/

/-- The rows of a column used as `us` says, filled with the bytes `bs`; drawer AIS from where they end (R104). -/
def fillRows (us : List RowUse) (bs : List Byte) : List Byte :=
  match us with
  | [] => []
  | .p b :: r => b :: fillRows r bs
  | .pad :: r => 0 :: fillRows r bs
  | .data :: r =>
    match bs with
    | [] => List.replicate (r.length + 1) 0xFF
    | b :: bs => b :: fillRows r bs

/-- A byte leaves: `x` is that of the later copy, or only its place where the output follows the earlier one. With an H byte the next
container begins. A byte that the lookahead store lost is replaced (R220). -/
def State.eqByte (q : Nat) (early : Bool) (t : State × List Byte) (x : EqByte) : State × List Byte :=
  let begins := x.idx == 0 || (early && (t.1.eqg q).out.cur.isNone)
  let s := if begins && (((t.1.eqg q).out.rel.map (fun r => r.1)) != some x.n) then t.1.eqRelease q x.n else t.1
  let g := s.eqg q
  let o := if begins then { g.out with cur := (g.out.rel.map (fun r => r.2)).getD none } else g.out
  (s.setEq q { g with out := o },
   t.2 ++ [match o.cur with
     | some bs => bs.getD x.idx 0xFF
     | none => if early then 0xFF else if x.bad then BitVec.ofNat 8 (s.rd R.DFAB_CTL_IDLE_BYTE) else x.b])

/-- The `n` byte places from container `c`, index `i` on. -/
def places (n c i : Nat) : List EqByte := (List.range n).map (fun j => { b := 0xFF, idx := (i + j) % 34, n := (c + (i + j) / 34) % 2 ^ 21 })

/-- Bytes that the earlier copy is ahead of the output, by which it lags (R224). -/
def EqGroup.lag (g : EqGroup) : Int :=
  let m := 34 * 2 ^ 21
  let d : Nat := ((g.copy !g.later).pos + m - (34 * g.out.n + g.out.idx)) % m
  if d < m / 2 then (d : Int) else (d : Int) - (m : Int)

/-- F_h of the output (R103, R219): what the lookahead store holds beyond the 33 bytes of a frame, or what it lags the earlier copy by
beyond its delay. -/
def EqGroup.fh (g : EqGroup) : Int := if g.out.early then g.lag - g.out.base else (g.out.fill : Int) - 33

/-- A frame of group `q` on the delayed path, in which `pre` was what its lookahead store held when it began: the column. `came` bytes
of the later copy came in the frame. -/
def State.eqSend (s : State) (q : Nat) (pre : List EqByte) (came : Nat) (restart : Bool) : State × Col :=
  let g := s.eqg q
  let o := g.out
  let late := (g.copy g.later).last
  match o.gen with
  | .run =>
    let f := g.fh
    let inc := decide (f ≤ 0) && decide (3 ≤ o.gap)
    let dec := decide (3 ≤ f) && decide (3 ≤ o.gap)
    let n := if inc then 33 else if dec then 35 else 34
    let stream := if o.early then places n o.n o.idx else (pre.drop (pre.length - o.fill) ++ late.drop (late.length - came)).take n
    let first := (stream.headD { b := 0, idx := 0, n := 0 }).idx
    let p := (34 - first) % 34
    let pb := if inc then incByte p else if dec then decByte p else BitVec.ofNat 8 (0x40 + p)
    let h := if inc then (p + 1) % 34 else if dec then (p + 33) % 34 else p
    let t := stream.foldl (State.eqByte q o.early) (s, [])
    let s := t.1
    let g := s.eqg q
    let fill := o.fill + came - n
    let slip := !o.early && (restart || decide (stream.length < n) || decide (36 < fill))
    let out := { g.out with gap := if inc || dec then 0 else gapNext o.gap, fill := fill,
                            n := (o.n + (o.idx + n) / 34) % 2 ^ 21, idx := (o.idx + n) % 34, gen := if slip then .ndf else .run }
    (s.setEq q { g with out := out },
     if !o.early && (restart || decide (36 < fill)) then aisCol else { b := fillRows (frameUse pb inc dec) t.2, h := h, just := inc || dec, ais := false })
  | .ndf | .wait | .off =>
    if pre.length < 34 then (s.setEq q { g with out := { o with gap := gapNext o.gap, gen := .ndf } }, aisCol)
    else
      let stream := pre.drop (pre.length - 34)
      let p := (34 - (stream.headD { b := 0, idx := 0, n := 0 }).idx) % 34
      let t := stream.foldl (State.eqByte q false) (s.setEq q { g with out := { o with cur := none } }, [])
      let s := t.1
      let g := s.eqg q
      (s.setEq q { g with out := { g.out with gap := gapNext o.gap, fill := came, gen := if restart then .ndf else .run } },
       if restart then aisCol else { b := fillRows (frameUse (BitVec.ofNat 8 (0x80 + p)) false false) t.2, h := p, just := false, ais := false })

/-- Lookahead bytes whose parity failed, at the places `ps` from the oldest byte held on (R220). -/
def markLost (fill : Nat) (ps : List Nat) (bs : List EqByte) : List EqByte :=
  (bs.zip (List.range bs.length)).map (fun x => if ps.any (fun p => x.2 == bs.length - fill + p) then { x.1 with bad := true } else x.1)

/-- Group `q` over the frame with epoch `e`: `col` gives the columns of its copies (none where one is not known yet), `ps` the lookahead
places whose parity failed. The group after it, and its column. -/
def State.eqFrame (s : State) (e q : Nat) (col : Bool → Option Col) (ps : List Nat) : State × Col :=
  let g := s.eqg q
  let bad := if g.path then ps.filter (fun p => decide (p < g.out.fill)) else []
  let l0 := g.copy g.later
  let g := g.setCopy g.later { l0 with last := markLost g.out.fill bad l0.last }
  let s := s.count .eq 0 4 bad.length
  let pre := (g.copy g.later).last
  let feed (side : Bool) (g : EqGroup) : EqGroup × Nat × Bool :=
    match col side with
    | none => (g, 0, false)
    | some c =>
      let t := (g.copy side).frame e c.b
      (g.setCopy side t.1, t.2)
  let el := feed (!g.later) g
  let la := feed g.later el.1
  let came := (la.1.copy (!g.later)).last
  let s := s.setEq q la.1
  if !g.path then (s, aisCol)
  else
    let t := if s.eqLive q then (came.drop (came.length - el.2.1)).foldl (State.eqStore q) (s, la.1.ring) else (s, { slab := la.1.ring.slab })
    (t.1.setEq q { la.1 with ring := t.2 }).eqSend q pre la.2.1 la.2.2

/-! The states (R216, R223 to R226). -/

/-- What a group meets at a hinge: its selector acts and directs protect, both words are routes to different drawers, a commit changed a
source, DRAM is ready, the group lies below CAP. -/
structure EqIn where
  acts    : Bool
  prot    : Bool
  srcOk   : Bool
  changed : Bool
  ready   : Bool
  cap     : Bool
  deriving DecidableEq, Repr

/-- What a hinge did: a re-anchoring, and the entries into FALLBACK and EQUALISED. -/
structure EqEv where
  anchored : Bool := false
  fallback : Bool := false
  entered  : Bool := false
  deriving DecidableEq, Repr

/-- A group with its measurement forgotten and off the delayed path. -/
def EqGroup.restart (g : EqGroup) (st cause : Nat) : EqGroup :=
  { g with st := st, cause := cause, path := false, due := false, inWin := 0, outWin := 0, absent := 0, agree := 0, other := false,
           cw := {}, cp := {}, ring := {}, out := {} }

/-- The output begins to follow the later copy, one frame behind it. -/
def EqGroup.followLate (g : EqGroup) : EqGroup :=
  { g with out := { gen := if (g.copy g.later).last.length < 34 then .ndf else .run, fill := 34 } }

/-- The output begins to follow the earlier copy at its delay (R224). -/
def EqGroup.followEarly (g : EqGroup) : EqGroup :=
  let c := g.copy !g.later
  { g with out := { gen := .run, early := true, n := (c.n + 2 ^ 21 - (g.held + 1) + b2n (c.idx == 0)) % 2 ^ 21, idx := c.idx, base := 34 * g.held + 33 } }

/-- The output, which sent the chosen containers, goes on with those of the earlier copy without a break (R224). -/
def EqGroup.keepEarly (g : EqGroup) : EqGroup :=
  let l := (g.copy g.later).last
  match (l.drop (l.length - g.out.fill)).head? with
  | none => g.followEarly
  | some x =>
    let g := { g with out := { g.out with early := true, n := x.n, idx := x.idx } }
    { g with out := { g.out with base := g.lag - 1 } }

/-- The output, which followed the earlier copy, goes on with the containers chosen out of the lookahead store, where that holds the next
byte due (R225). -/
def EqGroup.keepLate? (g : EqGroup) : Option EqGroup :=
  let l := ((g.copy g.later).last.dropWhile (fun x => !(x.n == g.out.n && x.idx == g.out.idx))).length
  if 33 ≤ l then some { g with out := { g.out with early := false, fill := l } } else none

/-- The group is anchored at the offsets measured last. -/
def EqGroup.anchorNow (g : EqGroup) : EqGroup :=
  let d := eqDelay g.offW g.offP
  { g with held := min d.1 511, later := d.2, anchor := if d.2 then g.offP else g.offW, ring := {}, due := false, path := true }.followLate

/-- A copy's alignment was had and is lost. -/
def EqCopy.lostTag (c : EqCopy) : Bool := c.had && !c.aligned

/-- The cause of FALLBACK that holds now: 0 for none (R216). -/
def eqCause (g : EqGroup) (i : EqIn) : Nat :=
  if !i.ready then 3
  else if !i.cap then 6
  else if g.cw.lostTag || g.cp.lostTag then 2
  else if 2 ≤ g.outWin then 1
  else 0

/-- The group enters FALLBACK under cause `c`; an output on the delayed path keeps the path of the preferred side (R224). -/
def EqGroup.fallBack (g : EqGroup) (c : Nat) (prot : Bool) : EqGroup :=
  let g := { g with st := eqFALLBACK, cause := c, inWin := 0, absent := 0, due := false }
  if g.path && prot != g.later then g.keepEarly else g

/-- A group in FALLBACK whose selector moved follows the side that is now preferred (R224). -/
def EqGroup.followSide (g : EqGroup) (prot : Bool) : EqGroup :=
  if !g.path || g.out.early == (prot != g.later) then g else if prot != g.later then g.followEarly else g.followLate

/-- A group in FALLBACK at a hinge: its cause, and its return after 2 multiframes without one (R225). -/
def eqReturn (g : EqGroup) (i : EqIn) : EqGroup × EqEv :=
  let c := eqCause g i
  let d := eqDelay g.offW g.offP
  let same := g.path && d.1 == g.held && d.2 == g.later
  let kept := if !same then none else if g.out.early then g.keepLate? else some g
  if c ≠ 0 then ({ g with cause := c, absent := 0 }, {})
  else if g.absent < 2 then (g, {})
  else
    match kept with
    | some g => ({ g with st := eqEQUALISED, cause := 0, anchor := if d.2 then g.offP else g.offW }, { entered := true })
    | none =>
      if g.agree = 2 then ({ g.anchorNow with st := eqEQUALISED, cause := 0, reanchors := satAdd 8 g.reanchors 1 }, { anchored := true, entered := true })
      else (g, {})

/-- A group at a hinge, but for what DRAM that is not ready makes it show. -/
def eqState (g : EqGroup) (i : EqIn) : EqGroup × EqEv :=
  if !(eqEn g.cfg && i.acts) then (g.restart eqOFF 0, {})
  else if !i.srcOk then (g.restart eqACQUIRE 5, {})
  else if i.changed then (g.restart eqACQUIRE 4, {})
  else
    match g.st with
    | 0 => (g.restart eqACQUIRE 0, {})
    | 1 =>
      let c := eqCause g i
      if c ≠ 0 then (g.fallBack c i.prot, { fallback := true })
      else if 2 ≤ g.inWin then ({ g.anchorNow with st := eqEQUALISED, cause := 0 }, { entered := true })
      else ({ g with cause := if g.cause = 4 then 4 else 0 }, {})
    | 2 =>
      let c := eqCause g i
      if c ≠ 0 then (g.fallBack c i.prot, { fallback := true })
      else if g.due then ({ g.anchorNow with reanchors := satAdd 8 g.reanchors 1 }, { anchored := true })
      else (g, {})
    | _ => eqReturn (g.followSide i.prot) i

/-- A group at a hinge: while DRAM is not ready every enabled one shows cause MEM (R215). -/
def eqHinge (g : EqGroup) (i : EqIn) : EqGroup × EqEv :=
  let t := eqState g i
  (if eqEn g.cfg && !i.ready then { t.1 with cause := 3 } else t.1, t.2)

/-- The output is carried on the direct path although its group has one of its own: the earlier copy, when it is preferred, under
cause MEM or CAP (R224). -/
def EqGroup.direct (g : EqGroup) (prot : Bool) : Bool :=
  !g.path || (g.st == eqFALLBACK && (g.cause == 3 || g.cause == 6) && prot != g.later)

/-- The enabled group of output `a`, if there is one. -/
def State.eqOf (s : State) (a : Nat) : Option (Nat × EqGroup) :=
  s.eqs.find? (fun e => eqEn e.2.cfg && eqOut e.2.cfg == a)

/-- Group `q` at a hinge; `nw`, `np` say that a commit changed the source of its output's words. -/
def State.eqTurn (s : State) (q : Nat) (changed : Bool) : State × EqEv :=
  let g := s.eqg q
  let a := eqOut g.cfg
  let w := s.mc.act.source a false
  let p := s.mc.act.source a true
  let srcOk := match w, p with
    | .drawer x, .drawer y => x != y
    | _, _ => false
  let t := eqHinge g { acts := (selPar (s.sel a).cfg).en, prot := (s.sel a).prot, srcOk := srcOk, changed := changed, ready := s.dramReady,
                       cap := decide (q < s.eqCap) }
  let s := s.setEq q t.1
  let s := if t.2.fallback then s.raise .eq 0 0 else s
  let s := if t.2.entered then s.raise .eq 0 1 else s
  (if t.2.anchored then (s.count .eq 0 3).raise .eq 0 2 else s, t.2)

/-! The port of EQ (R215). -/

/-- Q_CFG as a word. -/
def State.qCfgWord (s : State) : Nat :=
  s.rd R.EQ_Q_CFG_EN * 2 ^ 31 + s.rd R.EQ_Q_CFG_WIN_M1 * 2 ^ 20 + s.rd R.EQ_Q_CFG_OUT

/-- Q_CMD is written: bits READ 1, WRITE 2, CLR 4. -/
def State.qCmd (s : State) (v : Nat) : State :=
  s.portLatch .eq { op := v % 8, idx := s.rd R.EQ_Q_IDX_GROUP, cfg := [s.qCfgWord] }

/-- Q_READ, Q_READ_CLEAR and Q_WRITE. -/
def execQRead (s : State) : Host.Outcome State Fault Refusal := s.onPage .eq 0 (fun s => s.qCmd 1)
def execQReadClear (s : State) : Host.Outcome State Fault Refusal := s.onPage .eq 0 (fun s => s.qCmd 5)
def execQWrite (s : State) : Host.Outcome State Fault Refusal := s.onPage .eq 0 (fun s => s.qCmd 2)

/-- An enable of group `q` that R215 refuses. -/
def State.eqRefused (s : State) (q w : Nat) : Bool :=
  decide (s.eqCap ≤ q) || s.void (eqOut w) ||
  s.eqs.any (fun e => e.1 != q && eqEn e.2.cfg && eqOut e.2.cfg == eqOut w)

/-- Settings written to group `q` (R215, R287, R297): a group moved to another output starts anew. -/
def State.eqWrite (s : State) (q w : Nat) : State :=
  if !s.decides || (eqEn w && s.eqRefused q w) then s.wr R.EQ_Q_CMD_ERR 1
  else
    let g := s.eqg q
    let g := if eqOut g.cfg = eqOut w then g else g.restart eqOFF 0
    let s := s.setEq q { g with cfg := w }
    if s.mode = mPRIMARY then s.mirrorSend 5 (36 * (s.frame + 1)) (beBytes 8 (q * 2 ^ 32 + w)) else s

/-- Group `q` is captured; `clr` clears Q_CNT. -/
def State.eqCapture (s : State) (q : Nat) (clr : Bool) : State :=
  let g := s.eqg q
  let s := ((s.wr R.EQ_Q_CFG_EN (b2n (eqEn g.cfg))).wr R.EQ_Q_CFG_WIN_M1 (bits g.cfg 20 8)).wr R.EQ_Q_CFG_OUT (eqOut g.cfg)
  let s := ((s.wr R.EQ_Q_STAT_DELAY g.delay).wr R.EQ_Q_STAT_HELD g.held).wrB R.EQ_Q_STAT_TAG_P g.cp.aligned
  let s := ((s.wrB R.EQ_Q_STAT_TAG_W g.cw.aligned).wrB R.EQ_Q_STAT_LATER g.later).wrB R.EQ_Q_STAT_OTHER g.other
  let s := (s.wr R.EQ_Q_STAT_CAUSE g.cause).wr R.EQ_Q_STAT_STATE g.st
  let s := ((s.wr R.EQ_Q_CNT_SUBST g.subst).wr R.EQ_Q_CNT_MEM_DET g.memDet).wr R.EQ_Q_CNT_REANCHOR g.reanchors
  if clr then s.setEq q { g with subst := 0, memDet := 0, reanchors := 0 } else s

/-- The command at the EQ port completes. -/
def State.qDone (s : State) (c : PortCmd) : State :=
  let s := s.portFree .eq
  let s := if c.op.testBit 1 then s.eqWrite c.idx (c.cfg.headD 0) else s
  if c.op.testBit 0 then s.eqCapture c.idx (c.op.testBit 2) else s

end Sys2Proof.Machine
end

