-- ==== Sys2Proof/Machine/Timing.lean ====
section
/-! DEFINITION. The timing unit: monitors of the 13 references, qualification, selection, transitions, holdover and the clock
outputs (R247 to R268). Offsets are in 0.01 ppm. -/
namespace Sys2Proof.Machine

/-- DPLL states, in the codes of DPLL_STAT (R263). -/
def dFREERUN : Nat := 0
def dLOCKING : Nat := 1
def dLOCKED : Nat := 2
def dTRANSITION : Nat := 3
def dHOLDOVER : Nat := 4

/-- The DPLL's state. -/
def State.dpll (s : State) : Nat := s.rd R.TIMING_DPLL_STAT_STATE

/-- LO_FAIL is declared (R266). -/
def State.loFail (s : State) : Bool := s.on R.TIMING_DPLL_STAT_LO_FAIL

/-- What is held beside its registers for reference `r`. -/
def State.ref (s : State) (r : Nat) : Ref := mapGet {} s.tm.refs r
def State.setRef (s : State) (r : Nat) (x : Ref) : State := { s with tm := { s.tm with refs := mapSet {} s.tm.refs r x } }

/-- An offset as a 20-bit field. -/
def off20 (i : Int) : Nat := ofSigned 20 (clampInt (-524288) 524287 i)

/-- Reference `r` takes part in selection (R247). -/
def State.refPart (s : State) (r : Nat) : Bool := s.on R.TIMING_REF_CFG_EN 0 r && s.rd R.TIMING_REF_CFG_PRIO 0 r != 0

/-- Reference `r` is qualified. -/
def State.refQual (s : State) (r : Nat) : Bool := s.on R.TIMING_REF_STAT_QUAL 0 r

/-- The unit selects its reference itself: it does not follow the mate's hinges (R259, R294). -/
def State.selectsRef (s : State) : Bool := s.mode != mSTANDBY && s.mode != mISOLATE && !s.loFail

/-! Withdrawal and activity (R249, R250, R252). -/

/-- A line reference's lane withdraws it: lane failure action (b), FRX declared, or a near-end loop. -/
def State.lineWithdrawn (s : State) (n : Nat) : Bool := s.actionB n || (s.laneDef n).testBit 9 || s.nearLoop n

/-- A reference from 8 on follows its lane's SYNC, or the servo's lock; a withdrawn one is inactive. -/
def State.refFollow (s : State) (r : Nat) : State :=
  if r < 8 then s
  else if r < 12 then
    let n := s.rd R.TIMING_REF_CFG_LANE 0 r
    let w := s.lineWithdrawn n
    (s.wrB R.TIMING_REF_STAT_WITHDRAWN w 0 r).wrB R.TIMING_REF_STAT_ACTIVE (s.running n && s.inSync n && !w) 0 r
  else
    let l := s.rd R.NTIME_STAT_STATE == 2
    (s.wrB R.TIMING_REF_STAT_WITHDRAWN (!l) 0 r).wrB R.TIMING_REF_STAT_ACTIVE l 0 r

/-- The activity monitor of an external reference that is not enabled reports nothing (REF_CFG.EN enables the monitors). -/
def State.refOff (s : State) (r : Nat) : State :=
  if r < 8 ∧ !s.on R.TIMING_REF_CFG_EN 0 r then (s.wr R.TIMING_REF_STAT_ACTIVE 0 0 r).wr R.TIMING_REF_STAT_UNSTABLE 0 0 r else s

/-! Qualification (R257, R258). -/

/-- A reference is active for its monitors: enabled, with activity, and not UNSTABLE (R252). -/
def State.refActive (s : State) (r : Nat) : Bool :=
  s.on R.TIMING_REF_CFG_EN 0 r && s.on R.TIMING_REF_STAT_ACTIVE 0 r && !s.on R.TIMING_REF_STAT_UNSTABLE 0 r

/-- Everything that makes a reference good but its frequency. -/
def State.refSound (s : State) (r : Nat) : Bool := s.refActive r && !s.on R.TIMING_REF_STAT_WITHDRAWN 0 r && !s.loFail

/-- The frequency condition lets it be good: within DISQ, and measured below SOFT since it was disqualified on frequency. -/
def State.refFreqOk (s : State) (r : Nat) : Bool := !(s.ref r).freqDis && !s.on R.TIMING_REF_STAT_OUT 0 r

/-- WTR_RUN and CYCLES follow. -/
def State.refShow (s : State) (r : Nat) : State :=
  let x := s.ref r
  (s.wrB R.TIMING_REF_STAT_WTR_RUN (x.good && !s.refQual r && !s.on R.TIMING_REF_STAT_LOCKOUT 0 r) 0 r).wr
    R.TIMING_REF_STAT_CYCLES (min x.cycles.length 15) 0 r

/-- A reference is disqualified. -/
def State.disqualify (s : State) (r : Nat) : State :=
  if !s.refQual r then s else ((s.wr R.TIMING_REF_STAT_QUAL 0 0 r).wr R.TIMING_REF_STAT_PERSIST_RUN 0 0 r).raise .timing 0 0

/-- A reference stops being good: a cycle begins, and the fourth within 10 s (80,000 frames) locks it out. -/
def State.refCycle (s : State) (r : Nat) : State :=
  let x := s.ref r
  let cs := (s.frame :: x.cycles).filter (fun f => decide (s.frame < f + 80000))
  let s := s.setRef r { x with good := false, cycles := cs }
  if 4 ≤ cs.length && !s.on R.TIMING_REF_STAT_LOCKOUT 0 r then
    ((((s.mark (.lockout r)).wr R.TIMING_REF_STAT_LOCKOUT 1 0 r).count .timing 0 4).raise .timing 0 9).disqualify r
  else s

/-- A reference is judged again; `hit` says that a phase hit falls now. It keeps its qualification when only its frequency makes
it not good, until PERSIST. -/
def State.refJudge (s : State) (r : Nat) (hit : Bool) : State :=
  let sound := s.refSound r && !hit
  let good := sound && s.refFreqOk r
  let was := (s.ref r).good
  let s := if was && !good then s.refCycle r
    else if good && !was then s.setRef r { s.ref r with good := true, since := s.frame }
    else s
  (if sound then s else s.disqualify r).refShow r

/-! Selection (R259 to R261). -/

/-- What the DPLL is to follow. -/
inductive RefTarget where
  | free | hold | ref (r : Nat)
  deriving DecidableEq, Repr

/-- The candidates of R259, best first: lowest PRIO, then lowest number; the origin of a running transition is left out. -/
def State.candidates (s : State) : List Nat :=
  let ok (r : Nat) : Bool := s.refQual r && s.refPart r && !(s.dpll == dTRANSITION && s.tm.origin == some r)
  (List.range 16).flatMap (fun p => (List.range 13).filter (fun r => ok r && s.rd R.TIMING_REF_CFG_PRIO 0 r == p))

/-- The reference that is selected as the decision meets it: the target of a running transition, else the one followed; 15 none. -/
def State.selected (s : State) : Nat :=
  if s.dpll = dTRANSITION then s.tm.retarget.getD (s.rd R.TIMING_DPLL_STAT_TARGET) else s.rd R.TIMING_DPLL_STAT_SELECTED

/-- The target that R259 gives. -/
def State.refTarget (s : State) : RefTarget :=
  let cs := s.candidates
  match s.rd R.TIMING_CTL_MODE with
  | 0 =>
    match cs with
    | [] => .hold
    | best :: _ => if s.on R.TIMING_CTL_REVERT || !cs.contains s.selected then .ref best else .ref s.selected
  | 1 => if cs.contains (s.rd R.TIMING_CTL_FORCE_REF) then .ref (s.rd R.TIMING_CTL_FORCE_REF) else .hold
  | 2 => .hold
  | _ => .free

/-- The holdover timer stops (R265). -/
def State.hoStop (s : State) : State :=
  { (s.wr R.TIMING_DPLL_STAT_HO_OOS 0).wr R.TIMING_HO_ELAPSED_SECONDS 0 with tm := { s.tm with hoTicks := 0 } }

/-- No transition runs and nothing is followed. -/
def State.unfollow (s : State) (st : Nat) : State :=
  let s := ((s.hoStop.wr R.TIMING_DPLL_STAT_STATE st).wr R.TIMING_DPLL_STAT_SELECTED 15).wr R.TIMING_DPLL_STAT_STEP 0
  { s with tm := { s.tm with origin := none, retarget := none, phases := [], inPhase := 0 } }

/-- The DPLL enters FREERUN. -/
def State.enterFreerun (s : State) : State :=
  if s.dpll = dFREERUN then s
  else
    let s := ((s.unfollow dFREERUN).wr R.TIMING_DPLL_STAT_HISTORY 0).wr R.TIMING_DPLL_STAT_TARGET 0
    { s with tm := { s.tm with hist := [] } }.raise .timing 0 8

/-- The mean of a list of offsets, rounded down. -/
def meanInt (l : List Int) : Int := if l.isEmpty then 0 else l.foldl (· + ·) 0 / (l.length : Int)

/-- The DPLL enters holdover with the average of its history, or FREERUN when less than 1 s of history remains (R264). -/
def State.enterHoldover (s : State) : State :=
  if s.dpll = dHOLDOVER ∨ s.dpll = dFREERUN then s
  else
    let w := (s.tm.hist.drop 10).take (10 * s.rd R.TIMING_HO_AVG_AVG)
    if w.length < 10 then s.enterFreerun
    else
      let s := (s.unfollow dHOLDOVER).wr R.TIMING_DPLL_STAT_TARGET 15
      { s with tm := { s.tm with held := meanInt w } }.raise .timing 0 6

/-- A transition to reference `r` begins (R260). -/
def State.transition (s : State) (r : Nat) : State :=
  let o := s.rd R.TIMING_DPLL_STAT_SELECTED
  let s := (s.unfollow dTRANSITION).wr R.TIMING_DPLL_STAT_TARGET r
  let s := { s with tm := { s.tm with origin := if o = 15 then none else some o } }
  ((s.wr R.TIMING_DPLL_STAT_STEP 1).count .timing 0 1).raise .timing 0 2

/-- A running transition is to end at target `r` (15 holdover): a change waits for the next step boundary (R261). -/
def State.retargetTo (s : State) (r : Nat) : State :=
  { s with tm := { s.tm with retarget := if s.rd R.TIMING_DPLL_STAT_TARGET = r then none else some r } }

/-- A selection is made (R259): at each update and at each disqualification. -/
def State.selectRef (s : State) : State :=
  if !s.selectsRef then s
  else
    match s.refTarget with
    | .free => s.enterFreerun
    | .hold => if s.dpll = dTRANSITION then s.retargetTo 15 else s.enterHoldover
    | .ref r =>
      if s.dpll = dTRANSITION then s.retargetTo r
      else if s.rd R.TIMING_DPLL_STAT_SELECTED = r then s
      else s.transition r

/-- A selection follows when the qualification of some reference was lost since `old`. -/
def State.selectAfter (old s : State) : State :=
  if (List.range 13).any (fun r => old.refQual r && !s.refQual r) then s.selectRef else s

/-- Reference `r` is judged, and a disqualification makes a selection. -/
def State.refEvent (s : State) (r : Nat) (hit : Bool) : State := s.selectAfter (s.refJudge r hit)

/-- REF_ACTIVITY_CHANGE (R252): of an external reference, whose monitors EN enables; the others follow their lane or the servo. The
command is what the monitor has made of its samples: accepted in three, or UNSTABLE by eight changes in 128. -/
def State.refActivity (s : State) (r : Nat) (a : Activity) : State :=
  if 8 ≤ r then (s.refFollow r).refEvent r false
  else if !s.on R.TIMING_REF_CFG_EN 0 r then s
  else
    match a with
    | .active => (s.wr R.TIMING_REF_STAT_ACTIVE 1 0 r).refEvent r false
    | .inactive => (s.wr R.TIMING_REF_STAT_ACTIVE 0 0 r).refEvent r false
    | .unstable => ((s.wr R.TIMING_REF_STAT_UNSTABLE 1 0 r).raise .timing 0 10).refEvent r false

/-- The timing domain is usable. -/
def State.timingUp (s : State) : Bool := s.domUp 2

/-- REF_ACTIVITY_CHANGE. -/
def execRefActivityChange (r : Fin 13) (a : Activity) (s : State) : Host.Outcome State Fault Refusal :=
  let s := s.start
  if !s.timingUp then ok s else ok (s.refActivity r.val a)

/-- UNSTABLE_CLEAR. -/
def execUnstableClear (r : Fin 13) (s : State) : Host.Outcome State Fault Refusal :=
  let s := s.start
  if !s.timingUp then ok s else ok ((s.wr R.TIMING_REF_STAT_UNSTABLE 0 0 r).refEvent r false)

/-- HIT (R256): the phase departs by more than HIT × 100 ns, and the reference is disqualified at once; the monitor is off with
HIT = 0, and reference 12 has none. -/
def execHit (p : PhaseHit) (s : State) : Host.Outcome State Fault Refusal :=
  let s := s.start
  let r := p.ref
  let lim := s.rd R.TIMING_REF_CFG_HIT 0 r
  if !s.timingUp || r.val == 12 || lim == 0 || decide (p.departure ≤ 100 * lim) || !s.refActive r then ok s
  else ok ((((s.wr R.TIMING_REF_STAT_HIT 1 0 r).count .timing 0 3).raise .timing 0 11).refEvent r true)

/-- REF_QUALIFY (R257): good without a break for WTR seconds, of 8,000 frames each, since it became good or its lockout ended (R258).
The selection follows at the next update. -/
def execRefQualify (r : Fin 13) (run : Nat) (s : State) : Host.Outcome State Fault Refusal :=
  let s := s.start
  let wtr := s.rd R.TIMING_REF_CFG_WTR 0 r
  if !s.timingUp || !(s.ref r).good || s.refQual r || s.on R.TIMING_REF_STAT_LOCKOUT 0 r || s.loFail || decide (run < wtr) ||
      decide (s.frame < (s.ref r).since + 8000 * wtr) then ok s
  else ok (((s.wr R.TIMING_REF_STAT_QUAL 1 0 r).raise .timing 0 0).refShow r)

/-- LOCKOUT_END (R258), 60 s after the fourth cycle: the wait-to-restore counts from here. -/
def execLockoutEnd (r : Fin 13) (s : State) : Host.Outcome State Fault Refusal :=
  let s := s.start
  if !s.on R.TIMING_REF_STAT_LOCKOUT 0 r || !s.ran (.lockout r) 36000000000 then ok s
  else ok (((s.wr R.TIMING_REF_STAT_LOCKOUT 0 0 r).setRef r { s.ref r with since := s.frame }).refShow r)

/-- A reference is disqualified on frequency (R255). -/
def State.freqDisqualify (s : State) (r : Nat) : State :=
  if !s.refQual r then s
  else ((s.setRef r { s.ref r with freqDis := true }).disqualify r |>.count .timing 0 6).refShow r

/-- PERSIST_EXPIRE (R255): beyond DISQ at every update for PERSIST × 100 ms; `run` is no more than has run (log entry 89). -/
def execPersistExpire (r : Fin 13) (run : Nat) (s : State) : Host.Outcome State Fault Refusal :=
  let s := s.start
  if !s.timingUp || !s.on R.TIMING_REF_STAT_PERSIST_RUN 0 r || decide (run < s.rd R.TIMING_THRESH_PERSIST) ||
    decide ((s.ref r).beyond < run) then ok s
  else ok (s.selectAfter (s.freqDisqualify r))

/-! The update of 100 ms (R253 to R255, R262 to R265). -/

/-- Q_r: the references other than `r` that were qualified at the previous update, with their offsets (R254, R258). -/
def State.voters (s : State) (offs : List (Nat × Int)) (r : Nat) : List Int :=
  (offs.filter (fun x => x.1 != r && s.tm.quals.testBit x.1 && !s.on R.TIMING_REF_STAT_LOCKOUT 0 x.1)).map (·.2)

/-- `x` lies beyond `lim` against the majority of `qs` (R254). -/
def beyondVote (lim : Nat) (x : Int) (qs : List Int) : Bool :=
  decide (qs.length < 2 * (qs.filter (fun q => decide (lim < (x - q).natAbs))).length)

/-- `x` put in its place in a rising list. -/
def insertInt (x : Int) (l : List Int) : List Int :=
  match l with
  | [] => [x]
  | y :: r => if x ≤ y then x :: y :: r else y :: insertInt x r

/-- The median; of an even number of values, the mean of the middle two, rounded down. -/
def medianInt (l : List Int) : Int :=
  let t := l.foldr insertInt []
  if t.length % 2 = 1 then t.getD (t.length / 2) 0 else (t.getD (t.length / 2 - 1) 0 + t.getD (t.length / 2) 0) / 2

/-- The frequency condition of reference `r`, measured at `x`, with the others' offsets as the update meets them (R255). -/
def State.refFreq (old : State) (offs : List (Nat × Int)) (s : State) (r : Nat) (x : Int) : State :=
  let qs := old.voters offs r
  let vote := decide (2 ≤ qs.length)
  let beyond (lim : Nat) : Bool := if vote then beyondVote lim x qs else decide (lim < x.natAbs)
  let soft := beyond (10 * s.rd R.TIMING_THRESH_SOFT)
  let out := beyond (10 * s.rd R.TIMING_THRESH_DISQ)
  let s := ((s.wr R.TIMING_REF_FREQ_VALID 1 0 r).wr R.TIMING_REF_FREQ_L_OFF (off20 x) 0 r).wrB R.TIMING_REF_VOTE_VALID vote 0 r
  let s := (s.wr R.TIMING_REF_VOTE_V_OFF (if vote then off20 (medianInt (qs.map (fun q => x - q))) else 0) 0 r).wrB
    R.TIMING_REF_STAT_VOTE vote 0 r
  let s := if soft && !s.on R.TIMING_REF_STAT_SOFT 0 r then s.raise .timing 0 1 else s
  let s := (s.wrB R.TIMING_REF_STAT_SOFT soft 0 r).wrB R.TIMING_REF_STAT_OUT out 0 r
  let s := s.setRef r { s.ref r with off := some x, freqDis := (s.ref r).freqDis && soft,
                                     beyond := if out && s.on R.TIMING_REF_STAT_PERSIST_RUN 0 r then (s.ref r).beyond + 1 else 0 }
  let s := s.wrB R.TIMING_REF_STAT_PERSIST_RUN (out && !(s.ref r).freqDis) 0 r
  if out && s.rd R.TIMING_THRESH_PERSIST == 0 then s.freqDisqualify r else s

/-- An inactive reference has no measurement. -/
def State.refNoFreq (s : State) (r : Nat) : State :=
  let s := ((s.wr R.TIMING_REF_FREQ_VALID 0 0 r).wr R.TIMING_REF_VOTE_VALID 0 0 r).wr R.TIMING_REF_STAT_VOTE 0 0 r
  let s := ((s.wr R.TIMING_REF_STAT_SOFT 0 0 r).wr R.TIMING_REF_STAT_OUT 0 0 r).wr R.TIMING_REF_STAT_PERSIST_RUN 0 0 r
  s.setRef r { s.ref r with off := none }

/-- A measured offset as the monitor reports it (R253): for 1 PPS in steps of 0.05 ppm, rounded down (DESIGN CHOICE, log entry 102). -/
def State.quantum (s : State) (r : Nat) (x : Int) : Int := if r < 8 ∧ s.rd R.TIMING_REF_CFG_KIND 0 r = 3 then x / 5 * 5 else x

/-- The offset that an active reference is measured at; reference 12's is the servo's F on top of the DPLL's output. Without a new
measurement the last one stands. -/
def State.measured (s : State) (m : TimingMeas) (r : Nat) : Option Int :=
  if !s.refActive r then none
  else if r = 12 then some (s.nt.f + toSigned 20 (s.rd R.TIMING_DPLL_FREQ_OFF))
  else
    match m.refs.find? (fun x => x.1.val == r) with
    | some x => some (s.quantum r x.2)
    | none => (s.ref r).off

/-- Every reference's measurement and judgement at an update. -/
def State.refsUpdate (s : State) (m : TimingMeas) : State :=
  let s := (List.range 13).foldl (fun s r => s.refFollow r) s
  let offs := (List.range 13).filterMap (fun r => (s.measured m r).map (fun x => (r, x)))
  let old := s
  let s := (List.range 13).foldl (fun (s : State) r =>
    match offs.find? (fun x => x.1 == r) with
    | some x => State.refFreq old offs s r x.2
    | none => s.refNoFreq r) s
  let s := (List.range 13).foldl (fun (s : State) r =>
    let s := s.setRef r { s.ref r with cycles := (s.ref r).cycles.filter (fun f => decide (s.frame < f + 80000)) }
    s.refJudge r false) s
  let q := (List.range 13).filter s.refQual
  let s := { s with tm := { s.tm with quals := q.foldl (fun m r => setBit m r) 0 } }
  let s := s.wrB R.TIMING_LO_STAT_VALID (decide (2 ≤ q.length))
  s.wr R.TIMING_LO_STAT_LO_VOTE (off20 (-(meanInt (q.filterMap (fun r => (s.ref r).off)))))

/-- The offset of the reference that the DPLL follows, as last measured. -/
def State.followed (s : State) : Option Int := (s.ref (s.rd R.TIMING_DPLL_STAT_SELECTED)).off

/-- Where the DPLL is to take the output, now at `f`, at an update (R260 to R264, R294): in STANDBY and ISOLATE against δ until it lies
within 50 ns, and nowhere while the heartbeat is lost; in LOCKING to the reference's frequency; in LOCKED as its loop says. -/
def State.dpllGoal (s : State) (f phase : Int) : Int :=
  if s.mode = mSTANDBY ∨ s.mode = mISOLATE then
    let d := toSigned 16 (s.rd R.MATE_PHASE_DELTA)
    let step : Int := ((Config.mateSteer s.fresh % 76 : Nat) : Int)
    if s.on R.MATE_STAT_HB_LOST then f else if 50 < d then f - step else if d < -50 then f + step else f
  else if s.dpll = dFREERUN then 0
  else if s.dpll = dHOLDOVER then s.tm.held
  else if s.dpll = dLOCKING then s.followed.getD f
  else if s.dpll = dLOCKED then (Config.dpllLoop s.fresh (s.rd R.TIMING_CTL_BW) phase (s.followed.getD f)).toInt
  else f

/-- The output frequency moves (R262): at most 0.75 ppm in 100 ms, within ±50 ppm. -/
def State.dpllMove (s : State) (phase : Int) : State :=
  let f := toSigned 20 (s.rd R.TIMING_DPLL_FREQ_OFF)
  let f' := clampInt (-5000) 5000 (f + clampInt (-75) 75 (s.dpllGoal f phase - f))
  let lim := f' == 5000 || f' == -5000
  let s := if lim && !s.on R.TIMING_DPLL_STAT_LIMIT then s.raise .timing 0 13 else s
  (s.takeFresh.wrB R.TIMING_DPLL_STAT_LIMIT lim).wr R.TIMING_DPLL_FREQ_OFF (off20 f')

/-- The phase in ns that gathers in 100 ms while the output slews from `d` × 0.01 ppm off the reference towards it, at 7.5 ppm a second
(R263). -/
def phaseGathered (d : Int) : Int := if d.natAbs ≤ 75 then d * d.natAbs / 150 else if d < 0 then d + 37 else d - 37

/-- LOCKING at an update (R263): the phase gathered on the way joins the build-out; with the frequencies equal, the time that the phase
error has stayed within ±100 ns goes on. `f` is the output before the update. -/
def State.lockingTick (s : State) (f phase : Int) : State :=
  match s.followed with
  | none => s
  | some x =>
    let near := toSigned 20 (s.rd R.TIMING_DPLL_FREQ_OFF) == x && decide (phase.natAbs ≤ 100)
    { s with tm := { s.tm with buildout := s.tm.buildout + phaseGathered (x - f), inPhase := if near then s.tm.inPhase + 1 else 0 } }

/-- The holdover timer has reached HO_SPEC (R265). -/
def State.hoSpecChk (s : State) : State :=
  if s.dpll = dHOLDOVER ∧ !s.on R.TIMING_DPLL_STAT_HO_OOS ∧ s.rd R.TIMING_HO_CFG_HO_SPEC ≤ s.rd R.TIMING_HO_ELAPSED_SECONDS then
    (s.wr R.TIMING_DPLL_STAT_HO_OOS 1).raise .timing 0 7
  else s

/-- An update in holdover: the timer counts seconds from the entry (R265). -/
def State.holdTick (s : State) : State :=
  let t := s.tm.hoTicks + 1
  let s := { s with tm := { s.tm with hoTicks := t } }
  (if t % 10 = 0 then (s.wr R.TIMING_HO_ELAPSED_SECONDS (min (t / 10) (2 ^ 20 - 1))).count .timing 0 5 else s).hoSpecChk

/-- The DPLL at an update (R262 to R265): history while LOCKED; `held` says that it was in holdover before this update. -/
def State.dpllTick (s : State) (phase : Int) (held : Bool) : State :=
  let f := toSigned 20 (s.rd R.TIMING_DPLL_FREQ_OFF)
  let s := s.dpllMove phase
  if s.dpll = dLOCKING then s.lockingTick f phase
  else if s.dpll = dLOCKED then
    let h := (toSigned 20 (s.rd R.TIMING_DPLL_FREQ_OFF) :: s.tm.hist).take 10010
    { s with tm := { s.tm with hist := h } }.wrB R.TIMING_DPLL_STAT_HISTORY (decide (20 ≤ h.length))
  else if held && s.dpll == dHOLDOVER then s.holdTick
  else s

/-- TIMING_UPDATE. -/
def execTimingUpdate (m : TimingMeas) (s : State) : Host.Outcome State Fault Refusal :=
  let s := s.start
  if !s.timingUp then ok s
  else ok ((if s.loFail then s else s.refsUpdate m).selectRef.dpllTick m.phase (s.dpll == dHOLDOVER))

/-- A transition ends: the build-out is the mean of the phases measured, and the DPLL enters LOCKING (R260). -/
def State.transitionEnd (s : State) : State :=
  let r := s.rd R.TIMING_DPLL_STAT_TARGET
  let b := meanInt s.tm.phases
  let s := (((s.unfollow dLOCKING).wr R.TIMING_DPLL_STAT_SELECTED r).wr R.TIMING_DPLL_STAT_HISTORY 0)
  { s with tm := { s.tm with buildout := b, hist := [] } }.raise .timing 0 4

/-- TRANSITION_STEP: a step of 10 ms ends with the target's phase measured, in ns (R260, R261). A retarget to holdover enters it at the
step boundary (DEDUCED, log entry 102). There is no transition in STANDBY and ISOLATE (R294). -/
def execTransitionStep (phase : Int) (s : State) : Host.Outcome State Fault Refusal :=
  let s := s.start
  if s.dpll ≠ dTRANSITION ∨ !s.timingUp ∨ s.mode = mSTANDBY ∨ s.mode = mISOLATE then ok s
  else
    match s.tm.retarget with
    | some t =>
      let s := (s.wr R.TIMING_DPLL_STAT_TARGET t).wr R.TIMING_DPLL_STAT_STEP 1
      let s := ({ s with tm := { s.tm with retarget := none, phases := [] } }.count .timing 0 2).raise .timing 0 3
      ok (if t = 15 then s.enterHoldover else s)
    | none =>
      let s := { s with tm := { s.tm with phases := s.tm.phases ++ [phase] } }
      if 10 ≤ s.rd R.TIMING_DPLL_STAT_STEP then ok s.transitionEnd
      else ok (s.bump R.TIMING_DPLL_STAT_STEP)

/-- DPLL_LOCKED (R263): the frequencies agree, and the phase error has stayed within ±100 ns for 1 s, which is 10 updates. -/
def execDpllLocked (s : State) : Host.Outcome State Fault Refusal :=
  let s := s.start
  if s.dpll ≠ dLOCKING ∨ !s.timingUp ∨ s.tm.inPhase < 10 then ok s else ok ((s.wr R.TIMING_DPLL_STAT_STATE dLOCKED).raise .timing 0 5)

/-- HOLDOVER_OOS (R265), at the second that the holdover timer shows (DESIGN CHOICE, log entry 69). -/
def execHoldoverOos (seconds : Nat) (s : State) : Host.Outcome State Fault Refusal :=
  let s := s.start
  if seconds = s.rd R.TIMING_HO_ELAPSED_SECONDS then ok s.hoSpecChk else ok s

/-- LO_FAIL_DECLARE (R266). -/
def execLoFailDeclare (s : State) : Host.Outcome State Fault Refusal :=
  let s := s.start
  if !s.timingUp || s.loFail then ok s
  else
    let s := (((s.wr R.TIMING_DPLL_STAT_LO_FAIL 1).wr R.TIMING_LO_STAT_LO_FAIL 1).setRaw .timing 0 12 true).raise .timing 0 12
    let s := (List.range 13).foldl (fun (s : State) r =>
      ((s.disqualify r).setRef r { s.ref r with good := false }).refNoFreq r |>.refShow r) s
    ok (s.wr R.TIMING_LO_STAT_VALID 0).enterFreerun

/-- LO_FAIL_CLEAR (R266). -/
def execLoFailClear (s : State) : Host.Outcome State Fault Refusal :=
  let s := s.start
  if !s.loFail then ok s
  else ok (((s.wr R.TIMING_DPLL_STAT_LO_FAIL 0).wr R.TIMING_LO_STAT_LO_FAIL 0).setRaw .timing 0 12 false)

/-- Cycles of an output in a frame of 125 µs, by FREQ: 8 kHz, 2.048 MHz, 10 MHz, 25 MHz. -/
def clkCycles (freq : Nat) : Nat := [1, 256, 1250, 3125].getD freq 1

/-- The cycles of each CLK_OUT output in a frame from a hinge on; 0 where it is held low (R267). -/
def State.clkOuts (s : State) : List Nat :=
  (List.range 4).map (fun o =>
    let run := s.on R.TIMING_OUT_CFG_EN 0 o && !(s.dpll == dFREERUN && s.on R.TIMING_OUT_CFG_SQ_FR 0 o) &&
      !(s.dpll == dHOLDOVER && s.on R.TIMING_OUT_CFG_SQ_HO 0 o) &&
      !(s.on R.TIMING_DPLL_STAT_HO_OOS && s.on R.TIMING_OUT_CFG_SQ_OOS 0 o) && s.mode != mISOLATE
    if run then clkCycles (s.rd R.TIMING_OUT_CFG_FREQ 0 o) else 0)

end Sys2Proof.Machine
end

