-- ==== Sys2Proof/Machine/Perf.lean ====
section
/-! DEFINITION. Reports: masks, the event queue, change bits, counters, snapshots, freezes, and trace tagging (R337 to R355). -/
namespace Sys2Proof.Machine

/-- Every page instance, in the order of the slots of R323. -/
def allPages : List (Page × Nat) := (List.range 156).filterMap slotPage

/-- Page `p` has an instance `i`, and it is served (R408). -/
def State.pageServed (s : State) (p : Page) (i : Nat) : Bool := decide (i < pageCount p) && s.served p i

/-! Masks (R339, R410). -/

/-- EVT_MASK of a page is written: bits that name no event read 1, and a source whose mask bit clears while its status is set
becomes pending. -/
def State.evtMaskWrite (s : State) (p : Page) (i v : Nat) : State :=
  let keep := 2 ^ 32 - 2 ^ pageEvents p
  let new := v % 2 ^ 32 ||| keep
  let old := s.rd (R.HDR_EVT_MASK_MASK p) i
  let st := s.rd (R.HDR_EVT_STATUS_STATUS p) i
  let was := s.grpPend (eventGroup p i) != 0
  let s := s.wr (R.HDR_EVT_MASK_MASK p) new i
  (List.range 32).foldl (fun (t : State × Bool) b =>
    if st.testBit b && old.testBit b && !new.testBit b then (becomePending (raiseN 3) p i b t.2 t.1, true) else t) (s, was) |>.1

/-- EVT_MASK_WRITE. -/
def execEvtMaskWrite (p : Page) (i : Nat) (v : W32) (s : State) : Host.Outcome State Fault Refusal :=
  let s := s.start
  if !s.pageServed p i then ok s else ok (s.evtMaskWrite p i v.toNat)

/-! The event queue (R343 to R345). -/

/-- The idle item of an empty queue. -/
def idleItem : Nat := 0xFFFFFFFF

/-- The head of the event queue is taken: the state after it, and the item read. -/
def State.eqPop (s : State) : State × Nat :=
  match s.ev.queue with
  | [] => (s, idleItem)
  | x :: r => ({ s with ev := { s.ev with queue := r } }.count .event 0 2, x.toNat)

/-- EVENT_QUEUE_POP: a read of the lower word of EQ_DATA, which captures the upper word (R14, R344). -/
def execEventQueuePop (s : State) : Host.Outcome State Fault Refusal :=
  let s := s.start
  if !s.served .event 0 then ok s
  else
    let a := R.EVENT_EQ_DATA_ITEM.addr 0 0
    let t := s.eqPop
    ok ({ t.1 with capHi := mapSet 0 t.1.capHi a (t.2 / 2 ^ 32) }.emit (.read a (t.2 % 2 ^ 32)))

/-- The event queue is emptied. -/
def State.eqFlush (s : State) : State := { s with ev := { s.ev with queue := [] } }

/-- EVENT_QUEUE_FLUSH. -/
def execEventQueueFlush (s : State) : Host.Outcome State Fault Refusal :=
  let s := s.start
  if !s.served .event 0 then ok s else ok s.eqFlush

/-- The two fill counters of the event queue disagree (R345). -/
def State.eqMismatch (s : State) : State :=
  ((s.eqFlush.wr R.EVENT_EQ_STAT_QERR 1).bump R.EVENT_EQ_CNT_QERR_N).raise .event 0 0

/-! Change bits (R341, R342). -/

/-- A lane drawer changed its declared defects: its change bit and its shelf's, and DRW_CHG. -/
def State.drwChanged (s : State) (n c : Nat) : State :=
  let sh := 16 * n + c / 512
  { s with ev := { s.ev with chgDrw := mapUpd 0 s.ev.chgDrw sh (fun m => setBit m (c % 512)) } }.raise .lanef n 19

/-- CHG_IDX is written: the change bits of the shelf are captured and cleared; a port that has none ignores it. -/
def State.chgCapture (s : State) (v : Nat) : State :=
  let sel := v.testBit 31
  let port := bits v 4 7
  let sh := 16 * port + v % 16
  if 75 ≤ port ∨ (!sel ∧ 64 ≤ port) then s
  else
    let m := mapGet 0 (if sel then s.ev.chgSel else s.ev.chgDrw) sh
    let s := (List.range 16).foldl (fun s j => s.wr R.EVENT_CHG_MAP_CHANGED (m / 2 ^ (32 * j)) 0 j) s
    if sel then { s with ev := { s.ev with chgSel := mapSet 0 s.ev.chgSel sh 0 } }
    else { s with ev := { s.ev with chgDrw := mapSet 0 s.ev.chgDrw sh 0 } }

/-- CHG_CAPTURE. -/
def execChgCapture (v : W32) (s : State) : Host.Outcome State Fault Refusal :=
  let s := s.start
  if !s.served .event 0 then ok s else ok (s.chgCapture v.toNat)

/-! Counters (R347 to R349). -/

/-- CYCLES of a page: control cycles since its domain powered up, freezes left out. -/
def State.cycles (s : State) (p : Page) (i : Nat) : Nat := (s.ev.ran - mapGet 0 s.ev.base (pageSlot p i)) % 2 ^ 64

/-- CNT_PRESET: both words of CNT are written, the lower one first (R14). -/
def execCntPreset (p : Page) (i : Nat) (k : Fin 8) (v : BitVec 48) (s : State) : Host.Outcome State Fault Refusal :=
  let s := s.start
  if !s.pageServed p i then ok s
  else ok { s.wr (R.HDR_CNT_COUNT p) v.toNat i k with heldLo := mdel s.heldLo ((R.HDR_CNT_COUNT p).addr i k) }

/-- CNT_WRAP: the event follows a counter's wrap (R349). -/
def execCntWrap (p : Page) (i : Nat) (k : Fin 8) (s : State) : Host.Outcome State Fault Refusal :=
  let s := s.start
  let x := pageSlot p i * 8 + k.val
  if !s.ev.wraps.contains x then ok s
  else ok ({ s with ev := { s.ev with wraps := s.ev.wraps.erase x } }.raise .perf 0 0)

/-! Freeze and snapshot (R350, R351). -/

/-- The shadow of one page. -/
def State.shadowPage (s : State) (m : SMap Nat) (p : Page) (i : Nat) : SMap Nat :=
  let b := pageSlot p i * 16
  let m := (List.range 8).foldl (fun m k => mapSet 0 m (b + k) (s.rd (R.HDR_CNT_COUNT p) i k)) m
  mapSet 0 m (b + 8) (s.cycles p i)

/-- A snapshot with SOURCE `src`: 1 register, 2 pin, 3 action. -/
def State.snapTake (s : State) (src : Nat) : State :=
  let sh := allPages.foldl (fun m x => if s.pageUp x.1 x.2 then s.shadowPage m x.1 x.2 else m) s.ev.shadow
  let s := { s with ev := { s.ev with shadow := sh, snapAt := some s.now } }
  let s := ((s.bumpWrap R.PERF_SNAP_STAT_SNAP_SEQ).wr R.PERF_SNAP_STAT_VALID 1).wr R.PERF_SNAP_EPOCH_SOURCE src
  ((s.wr R.PERF_SNAP_EPOCH_EPOCH s.epoch).wr R.PERF_SNAP_OFFSET_CYCLES s.cyc).raise .perf 0 3

/-- A trigger of a snapshot. A second one in the same control cycle takes none, and the lower of the two codes is SOURCE (R351). -/
def State.snapshot (s : State) (src : Nat) : State :=
  if s.ev.snapAt = some s.now then s.wr R.PERF_SNAP_EPOCH_SOURCE (min src (s.rd R.PERF_SNAP_EPOCH_SOURCE)) else s.snapTake src

/-- PERF_SNAP. -/
def execPerfSnap (s : State) : Host.Outcome State Fault Refusal :=
  let s := s.start
  if !s.served .perf 0 then ok s else ok (s.snapshot 1)

/-- PERF_FREEZE: CTL.FREEZE is written. -/
def execPerfFreeze (on : Bool) (s : State) : Host.Outcome State Fault Refusal :=
  let s := s.start
  if !s.served .perf 0 then ok s else ok (s.wrB R.PERF_CTL_FREEZE on)

/-- SNAP_PIN: the pin has sampled `level` for 4 control cycles. -/
def execSnapPin (level : Bool) (s : State) : Host.Outcome State Fault Refusal :=
  let s := s.start
  if !s.pageUp .perf 0 then ok s
  else
    let was := s.ev.snapPin
    let s := { s with ev := { s.ev with snapPin := level } }
    ok (if level && !was && s.rd R.PERF_CTL_PIN_MODE == 1 then s.snapshot 2 else s)

/-! Trace tagging (R353 to R355). -/

/-- The modes in which tagging may run. -/
def traceMode (m : Nat) : Bool := m == mBRINGUP || m == mMAINT || m == mISOLATE

/-- Tagging runs. -/
def State.tracing (s : State) : Bool := s.on R.PERF_TR_CTL_EN && traceMode s.mode

/-- The LFSR after one candidate: x^32 + x^22 + x^2 + x + 1, shifted towards the most significant bit (log entry 26). -/
def lfsrNext (x : W32) : W32 :=
  (x <<< 1) ||| BitVec.ofNat 32 (b2n (x.getLsbD 31 != (x.getLsbD 21 != (x.getLsbD 1 != x.getLsbD 0))))

/-- TR_CTL is written. Reserved codes of RATE and KIND leave their fields as they are (R16). EN = 1 loads the LFSR. -/
def State.trCtlWrite (s : State) (v : Nat) : State :=
  let s := (s.wr R.PERF_TR_CTL_FILTER (v / 2 ^ 10)).wr R.PERF_TR_CTL_DRAIN_EN (v / 2 ^ 9)
  let s := if bits v 4 5 ≤ 24 then s.wr R.PERF_TR_CTL_RATE (bits v 4 5) else s
  let s := if bits v 1 3 ≤ 2 then s.wr R.PERF_TR_CTL_KIND (bits v 1 3) else s
  if !v.testBit 0 then s.wr R.PERF_TR_CTL_EN 0
  else if !traceMode s.mode then s.wr R.PERF_TR_STAT_REFUSED 1
  else if s.on R.PERF_TR_CTL_EN then s
  else
    let seed := s.rd R.PERF_TR_SEED_SEED
    { s.wr R.PERF_TR_CTL_EN 1 with ev := { s.ev with lfsr := BitVec.ofNat 32 (if seed = 0 then 1 else seed) } }

/-- TRACE_ENABLE. -/
def execTraceEnable (v : W32) (s : State) : Host.Outcome State Fault Refusal :=
  let s := s.start
  if !s.served .perf 0 then ok s else ok (s.trCtlWrite (setBit v.toNat 0))

/-- The stages of each KIND, the candidate's first stage, and what FILTER compares (R353). -/
def traceStages (kind : Nat) : List Nat :=
  match kind with
  | 0 => [1, 2, 3, 4]
  | 1 => [8, 9, 0xA]
  | _ => [0x10, 0x11, 0x12]

def traceFilter (kind id info : Nat) : Nat :=
  match kind with
  | 0 => portOf id
  | 1 => slotQuarter id
  | _ => info % 8

/-- A record of the item tagged `tag` is written to the trace FIFO (R354, R355). -/
def State.traceWrite (s : State) (tag : BitVec 16) (kind : Nat) (stage : Byte) (id : W32) (info : BitVec 16) : State :=
  let t := s.cycles .perf 0 % 2 ^ 48
  let w := (((((stage.toNat * 16 + kind) * 2 ^ 4) * 2 ^ 16 + tag.toNat) * 2 ^ 32 + id.toNat) * 2 ^ 16 + info.toNat) * 2 ^ 48 + t
  if s.ev.trace.length < 256 then
    let s := if s.ev.trace.isEmpty then { s with mx := { s.mx with drainAt := s.now } } else s
    let s := { s with ev := { s.ev with trace := s.ev.trace ++ [BitVec.ofNat 128 w] } }
    (s.count .perf 0 1).watermark 1 s.ev.trace.length
  else (((s.wr R.PERF_TR_STAT_OVERRUN 1).bump R.PERF_TR_LOST_COUNT).count .perf 0 2).raise .perf 0 1

/-- A candidate meets the LFSR: the LFSR advances, and the candidate is tagged with the next number when its low RATE bits were 0
and it passes FILTER. -/
def State.traceCandidate (s : State) (kind id info : Nat) : State × Bool :=
  let f := s.rd R.PERF_TR_CTL_FILTER
  let hit := s.ev.lfsr.toNat % 2 ^ s.rd R.PERF_TR_CTL_RATE == 0 && (f == 127 || f == traceFilter kind id info)
  let s := { s with ev := { s.ev with lfsr := lfsrNext s.ev.lfsr } }
  (if hit then { s with ev := { s.ev with tagId := s.ev.tagId + 1 } } else s, hit)

/-- TRACE_RECORD: a new candidate reaches a stage, or the item that carries the tag given does. A transaction of M5 is none. -/
def execTraceRecord (stage : Byte) (id : W32) (info : BitVec 16) (item : Option (BitVec 16)) (s : State) :
    Host.Outcome State Fault Refusal :=
  let s := s.start
  let kind := s.rd R.PERF_TR_CTL_KIND
  if !s.pageUp .perf 0 || !s.tracing || !(traceStages kind).contains stage.toNat || (kind == 2 && info.toNat % 8 == 5) then ok s
  else
    match item with
    | some tag => ok (s.traceWrite tag kind stage id info)
    | none =>
      let t := s.traceCandidate kind id.toNat info.toNat
      ok (if t.2 then t.1.traceWrite t.1.ev.tagId kind stage id info else t.1)

/-- A record is taken from the trace FIFO by a read of TR_DATA0: its word 0; the other words are captured. With DRAIN_EN = 1, and
when the FIFO is empty, the idle record is. -/
def State.tracePop (s : State) : State × Nat :=
  let cap (s : State) (w : Nat) : State :=
    ((s.wr R.PERF_TR_DATA_WORD (w / 2 ^ 32) 0 1).wr R.PERF_TR_DATA_WORD (w / 2 ^ 64) 0 2).wr R.PERF_TR_DATA_WORD (w / 2 ^ 96) 0 3
  match s.ev.trace with
  | [] => (cap s 0, idleItem)
  | x :: r =>
    if s.on R.PERF_TR_CTL_DRAIN_EN then (cap s 0, idleItem)
    else (cap { s with ev := { s.ev with trace := r } } x.toNat, x.toNat % 2 ^ 32)

/-- TRACE_POP. -/
def execTracePop (s : State) : Host.Outcome State Fault Refusal :=
  let s := s.start
  if !s.served .perf 0 then ok s
  else
    let t := s.tracePop
    ok (t.1.emit (.read (R.PERF_TR_DATA_WORD.addr 0 0) t.2))

/-- A write by master M5 (R326, R355). -/
def State.m5Write (s : State) (a : Nat) (bs : List Byte) : Resp :=
  match hostTarget a with
  | 3 => ((s.count .matrix 0 1).spWriteBus a bs).note 5 3 a
  | 4 => ((s.count .matrix 0 1).winWriteBus a bs).note 5 4 a
  | 7 => (Resp.mk s [] cDEFAULT).note 5 defaultTarget a
  | _ => (Resp.mk s [] cDENIED).note 5 defaultTarget a

/-- One record is drained to the ring by M5 (R355). -/
def State.drain (s : State) : State :=
  match s.ev.trace with
  | [] => s
  | x :: r =>
    if !s.on R.PERF_TR_CTL_DRAIN_EN then s
    else
      let i := s.rd R.PERF_TR_WIDX_WIDX
      let t := { s with ev := { s.ev with trace := r }, mx := { s.mx with drainAt := s.now } }.m5Write (s.rd R.PERF_TR_RING_BASE_BASE * 16 + 16 * i) (leBytes 16 x.toNat)
      if t.cause = 0 then t.s.wr R.PERF_TR_WIDX_WIDX ((i + 1) % 2 ^ s.rd R.PERF_TR_RING_SIZE_SIZE)
      else t.s.wr R.PERF_TR_STAT_DRAIN_ERR 1

/-- The trace FIFO is emptied. -/
def State.traceFlush (s : State) : State := { s with ev := { s.ev with trace := [] } }

/-- The two fill counters of the trace FIFO disagree (R345). -/
def State.trMismatch (s : State) : State := (s.traceFlush.wr R.PERF_TR_STAT_TQERR 1).raise .perf 0 2

end Sys2Proof.Machine
end

