-- ==== Sys2Proof/Machine/NTime.lean ====
section
/-! DEFINITION. Network time: the 1588 clock, its servo, steps, the frame epoch, scheduled actions and the pulse (R269 to R285).
Time is a number of 2^-48 ns; frequencies are in 0.01 ppm. -/
namespace Sys2Proof.Machine

/-! The clock (R269 to R271). -/

/-- Bounds of F and S in 0.01 ppm (R270, R278). -/
def fMax : Int := 10000
def State.slewMax (s : State) : Int := ((s.rd R.NTIME_CTL_SLEW_MAX * 100 : Nat) : Int)

/-- The clock runs on from the present time with new F and S, each within its bounds (R270, R278). -/
def State.setRate (s : State) (f sl : Int) : State :=
  let f := clampInt (-fMax) fMax f
  { s with nt := { s.nt with base := s.time, mark := s.now, f := f, s := clampInt (-s.slewMax) s.slewMax sl } }.wr R.NTIME_FREQ_F (off20 f)

/-- The clock set to `t`. -/
def State.setTime (s : State) (t : Nat) : State := { s with nt := { s.nt with base := t % ntRange, mark := s.now } }

/-- Seconds, nanoseconds and 2^-16 ns of a time. -/
def ntSeconds (t : Nat) : Nat := t / ntSec
def ntNanos (t : Nat) : Nat := t % ntSec / ntNs
def ntSub (t : Nat) : Nat := t % ntNs / 2 ^ 32

/-- TIME_READ: a read of TIME_SUB captures NS, SEC_LO and SEC_HI (R271). -/
def State.timeRead (s : State) : State × Nat :=
  let t := s.time
  let s := (s.wr R.NTIME_TIME_SUB_SUB (ntSub t)).wr R.NTIME_TIME_NS_NS (ntNanos t)
  ((s.wr R.NTIME_TIME_SEC_LO_SEC (ntSeconds t)).wr R.NTIME_TIME_SEC_HI_SEC (ntSeconds t / 2 ^ 32), ntSub t)

/-- TIME_READ. -/
def execTimeRead (s : State) : Host.Outcome State Fault Refusal :=
  let s := s.start
  if !s.served .ntime 0 then ok s
  else
    let t := s.timeRead
    ok (t.1.emit (.read (R.NTIME_TIME_SUB_SUB.addr 0 0) t.2))

/-! The servo (R276 to R279). -/

/-- Servo states. -/
def vFREERUN : Nat := 0
def vACQUIRE : Nat := 1
def vLOCKED : Nat := 2

def State.servo (s : State) : Nat := s.rd R.NTIME_STAT_STATE

/-- The servo's state becomes `v`; reference 12 follows it (R250). -/
def State.setServo (s : State) (v : Nat) : State :=
  let was := s.servo
  let s := s.wr R.NTIME_STAT_STATE v
  let s := if v = vLOCKED ∧ was ≠ vLOCKED then s.raise .ntime 0 2 else s
  if (v == vLOCKED) == (was == vLOCKED) then s else (s.refFollow 12).refEvent 12 false

/-- A new SLEW_MAX bounds S at once; while JUMP is set S stays at the bound (R278, R279). -/
def State.slewFollow (s : State) : State :=
  s.setRate s.nt.f (if !s.on R.NTIME_STAT_JUMP then s.nt.s else if s.nt.s < 0 then -s.slewMax else s.slewMax)

/-- The servo enters FREERUN: F is held, S is 0, and TIME_FREERUN is raised (R277). JUMP, which would hold S at its bound, ends with it
(DEDUCED, log entry 24). -/
def State.servoFree (s : State) : State :=
  let s := { s with nt := { s.nt with acqRun := 0, lockRun := 0 } }.wr R.NTIME_STAT_JUMP 0
  ((s.setRate s.nt.f 0).setServo vFREERUN).raise .ntime 0 1

/-- A sample in FREERUN counts towards ACQ_N. -/
def State.servoCount (s : State) (id : Nat) : State :=
  let n := if s.nt.master = some id then s.nt.acqRun + 1 else 1
  let s := { s with nt := { s.nt with master := some id, acqRun := n } }
  if s.rd R.NTIME_SERVO_ACQ_N ≤ n then
    { s with nt := { s.nt with acqRun := 0, lockRun := 0 } }.setServo vACQUIRE
  else s

/-- What a gain of the loop makes of a sample of `off` × 2^-16 ns, in 0.01 ppm: the gain is in 2^-16 per second. -/
def gained (gain : Nat) (off : Int) : Int := off * gain / 42949672960

/-- The loop takes a sample (R277): its proportional part drives S, its integral part F. The gains that SERVO.BW stands for are the
implementation's (log entry 24). -/
def State.servoLoop (s : State) (off : Int) : State :=
  let bw := s.rd R.NTIME_SERVO_BW
  s.setRate (s.nt.f + gained (Config.servoI bw) off) (gained (Config.servoP bw) off)

/-- A sample of `off` × 2^-16 ns in ACQUIRE or LOCKED (R277, R279). -/
def State.servoSample (s : State) (off : Int) : State :=
  if s.rd R.NTIME_LIMITS_STEP_LIMIT * 1000 * 65536 < off.natAbs then
    let s := { s with nt := { s.nt with lockRun := 0 } }.wr R.NTIME_STAT_JUMP 1
    ((s.setRate s.nt.f (if off < 0 then -s.slewMax else s.slewMax)).setServo vACQUIRE).raise .ntime 0 0
  else
    let s := (s.wr R.NTIME_STAT_JUMP 0).servoLoop off
    let n := if off.natAbs ≤ s.rd R.NTIME_SERVO_LOCK_NS * 65536 then s.nt.lockRun + 1 else 0
    let s := { s with nt := { s.nt with lockRun := n } }
    if s.servo = vACQUIRE ∧ s.rd R.NTIME_SERVO_LOCK_N ≤ n then s.setServo vLOCKED else s

/-- SAMP_HI is written: the sample is pushed, held at ±2^31 ns (R276). -/
def State.samplePush (s : State) (hi : Nat) : State :=
  let id := s.rd R.NTIME_MASTER_ID_ID
  let off := clampInt (-(2 ^ 47)) (2 ^ 47) (toSigned 64 (hi % 2 ^ 32 * 2 ^ 32 + s.rd R.NTIME_SAMP_LO_OFFSET))
  let s := ((s.mark .sample).wr R.NTIME_OFFSET_OFFSET (ofSigned 32 (clampInt (-(2 ^ 31)) (2 ^ 31 - 1) (off / 65536)))).count .ntime 0 1
  if s.servo = vFREERUN then s.servoCount id
  else if s.nt.master ≠ some id then s.servoFree.servoCount id
  else s.servoSample off

/-- SAMPLE_PUSH. -/
def execSamplePush (hi : W32) (s : State) : Host.Outcome State Fault Refusal :=
  let s := s.start
  if !s.served .ntime 0 then ok s else ok (s.samplePush hi.toNat)

/-- MASTER_TIMEOUT: no sample for `run` × 100 ms, of 60,000,000 control cycles each (R277). -/
def execMasterTimeout (run : Nat) (s : State) : Host.Outcome State Fault Refusal :=
  let s := s.start
  if !s.timingUp || s.servo == vFREERUN || decide (run < s.rd R.NTIME_LIMITS_MASTER_TMO) ||
    !s.ran .sample (60000000 * run) then ok s else ok s.servoFree

/-! Steps (R280). -/

/-- STEP_CTL is written with GO = 1: the amount is latched, unless a step is pending. -/
def State.stepGo (s : State) (abs neg : Bool) : State :=
  let s := (s.wrB R.NTIME_STEP_CTL_ABS abs).wrB R.NTIME_STEP_CTL_NEG neg
  if s.nt.step.isSome then s.wr R.NTIME_STEP_CTL_REFUSED 1
  else
    let a := (s.rd R.NTIME_STEP_SEC_HI_SEC * 2 ^ 32 + s.rd R.NTIME_STEP_SEC_LO_SEC) * ntSec + s.rd R.NTIME_STEP_NS_NS * ntNs
    ({ s with nt := { s.nt with step := some (abs, neg, a) } }.wr R.NTIME_STEP_CTL_PENDING 1).wr R.NTIME_STAT_STEP_PEND 1

/-- STEP_GO. -/
def execStepGo (abs neg : Bool) (s : State) : Host.Outcome State Fault Refusal :=
  let s := s.start
  if !s.served .ntime 0 then ok s else ok (s.stepGo abs neg)

/-- The pending step takes effect at the hinge. -/
def State.stepTake (s : State) : State :=
  match s.nt.step with
  | none => s
  | some (abs, neg, a) =>
    let s := (s.setTime (stepped (some (abs, neg, a)) s.time)).setRate s.nt.f 0
    let s := { s with nt := { s.nt with step := none } }
    let s := (s.wr R.NTIME_STEP_CTL_PENDING 0).wr R.NTIME_STAT_STEP_PEND 0
    (s.wr R.NTIME_STAT_JUMP 0).raise .ntime 0 3

/-! The frame epoch (R281 to R283, R294). -/

/-- K whose label is `l`, reckoned from `k`: the least above `k`, or `k` itself where the label lies behind it, since K never decreases
(R281, R294; log entry 45). -/
def withLabel (k l : Nat) : Nat :=
  let d := epochStep (k % 2 ^ 40) l
  if d < 2 ^ 39 then k + d else k

/-- The hinge is labelled: `mate` is the label taken from the mate (R294), which the first hinge of all takes as it is. REPEATS and SKIPS
go by the advance of K (R282). -/
def State.labelHinge (s : State) (mate : Option Nat) : State :=
  let s := s.stepTake
  let k := s.nt.k
  let first := !s.nt.labelled
  let k' := match mate with
    | some l => if first then l else withLabel k l
    | none => nextK k s.time
  let adv := k' - k
  let ph : Int := ((s.time : Int) - ((k' * ntFrame : Nat) : Int)) / (ntNs : Int)
  let s := { s with nt := { s.nt with k := k', labelled := true } }.wr R.NTIME_EPOCH_LABEL k'
  let s := if -131072 ≤ ph ∧ ph ≤ 131071 then s.wr R.NTIME_EPOCH_PHASE_PHASE (ofSigned 18 ph)
    else s.takeFresh.wr R.NTIME_EPOCH_PHASE_PHASE (Config.phaseOut s.fresh).toNat
  if first then s
  else if adv = 0 then
    (((s.wr R.NTIME_STAT_EPOCH_HOLD 1).bump R.NTIME_SLIP_CNT_REPEATS).count .ntime 0 2).raise .ntime 0 4
  else
    let s := s.wr R.NTIME_STAT_EPOCH_HOLD 0
    if adv = 1 then s else ((s.bump R.NTIME_SLIP_CNT_SKIPS).count .ntime 0 3).raise .ntime 0 4

/-! Scheduled actions (R284). -/

/-- The epoch of slot `i`. -/
def State.actEpoch (s : State) (i : Nat) : Nat :=
  s.rd R.NTIME_ACT_EPOCH_HI_EPOCH 0 i * 2 ^ 32 + s.rd R.NTIME_ACT_EPOCH_LO_EPOCH 0 i

/-- ACT_CTL[s] is written with ARM = 1. Its epoch is late when the label that the next hinge would carry lies ahead of it (R171). -/
def State.actArm (s : State) (i action : Nat) (drop : Bool) : State :=
  if action = 0 ∨ 5 ≤ action then s.wr R.NTIME_ACT_CTL_ERR 1 0 i
  else
    let s := (s.wr R.NTIME_ACT_CTL_ACTION action 0 i).wrB R.NTIME_ACT_CTL_DROP_LATE drop 0 i
    let late := decide (2 ^ 39 ≤ epochStep (s.labelOf 1) (s.actEpoch i))
    if late && drop then
      (((s.wr R.NTIME_ACT_CTL_PENDING 0 0 i).wr R.NTIME_ACT_CTL_DROPPED 1 0 i).count .ntime 0 4).raise .ntime 0 6
    else
      let s := s.wr R.NTIME_ACT_CTL_PENDING 1 0 i
      { s with nt := { s.nt with lateArmed := putBit s.nt.lateArmed i late } }

/-- ACT_CTL[s] is written with CANCEL = 1. -/
def State.actCancel (s : State) (i : Nat) : State :=
  { s with nt := { s.nt with lateArmed := clrBit s.nt.lateArmed i } }.wr R.NTIME_ACT_CTL_PENDING 0 0 i

/-- ACT_ARM. -/
def execActArm (i : Fin 16) (action : BitVec 4) (dropLate : Bool) (s : State) : Host.Outcome State Fault Refusal :=
  let s := s.start
  if !s.served .ntime 0 then ok s else ok (s.actArm i.val action.toNat dropLate)

/-- ACT_CANCEL. -/
def execActCancel (i : Fin 16) (s : State) : Host.Outcome State Fault Refusal :=
  let s := s.start
  if !s.served .ntime 0 then ok s else ok (s.actCancel i.val)

/-- Slot `i` at a hinge: what it does, if anything. `snap` says that the hinge already took its snapshot. -/
def State.actTurn (s : State) (i : Nat) (snap : Bool) : State × Bool :=
  if !s.on R.NTIME_ACT_CTL_PENDING 0 i then (s, snap)
  else
    let e := s.actEpoch i
    let armedLate := s.nt.lateArmed.testBit i
    let passed := s.epoch != e && epochReached e s.epoch
    if !(armedLate || s.epoch == e || passed) then (s, snap)
    else
      let late := armedLate || passed
      let s := s.actCancel i
      if late && !armedLate && s.on R.NTIME_ACT_CTL_DROP_LATE 0 i then
        (((s.wr R.NTIME_ACT_CTL_DROPPED 1 0 i).count .ntime 0 4).raise .ntime 0 6, snap)
      else
        let a := s.rd R.NTIME_ACT_CTL_ACTION 0 i
        let s := if a = 1 ∧ !snap then s.snapshot 3
          else if a = 2 then { s with ev := { s.ev with actFreeze := true } }
          else if a = 3 then { s with ev := { s.ev with actFreeze := false } }
          else s
        let s := (s.wr R.NTIME_ACT_CTL_DONE 1 0 i)
        let s := if late then (s.wr R.NTIME_ACT_CTL_LATE 1 0 i).count .ntime 0 4 else s
        (s.raise .ntime 0 5, snap || a == 1)

/-- The scheduled actions of a hinge, in slot order. -/
def State.actions (s : State) : State :=
  ((List.range 16).foldl (fun (t : State × Bool) i => t.1.actTurn i t.2) (s, false)).1

/-! The pulse (R275). -/

/-- PPS_OUT may be high. -/
def State.ppsMay (s : State) : Bool := s.on R.NTIME_PPS_EN && s.mode != mISOLATE && s.timingUp

/-- A whole second of the clock begins in the present control cycle. -/
def State.secondNow (s : State) : Bool :=
  s.time % ntSec == 0 || ntSeconds (s.timeAt (s.now + 1)) != ntSeconds s.time

/-- PPS_OUT_EDGE: a whole second of the clock. -/
def execPpsOutEdge (s : State) : Host.Outcome State Fault Refusal :=
  let s := s.start
  ok (if s.ppsMay && s.secondNow then { s with nt := { s.nt with pps := true, ppsAt := s.now } } else s)

/-- PPS_WIDTH_END: the pulse has been high for WIDTH ms, of 600,000 control cycles each. -/
def execPpsWidthEnd (s : State) : Host.Outcome State Fault Refusal :=
  let s := s.start
  ok (if s.now < s.nt.ppsAt + 600000 * s.rd R.NTIME_PPS_WIDTH then s else { s with nt := { s.nt with pps := false } })

/-- PPS.EN = 0 ends a pulse under way. -/
def State.ppsFollow (s : State) : State := if s.on R.NTIME_PPS_EN then s else { s with nt := { s.nt with pps := false } }

/-- PPS_IN: a rising edge on the pin is stamped. -/
def execPpsIn (s : State) : Host.Outcome State Fault Refusal :=
  let s := s.start
  if !s.timingUp then ok s
  else
    let t := s.time
    let s := (s.wr R.NTIME_PPS_IN_SEC_SEC (ntSeconds t)).wr R.NTIME_PPS_IN_NS_NS (ntNanos t)
    ok ((s.wr R.NTIME_PPS_IN_NS_VALID 1).raise .ntime 0 7)

end Sys2Proof.Machine
end

