-- ==== Sys2Proof/Machine/Pw.lean ====
section
/-! DEFINITION. The pseudowire engine: contexts, templates, packets, the jitter buffer, playout and the rebuilt drawers (R231 to
R244). -/
namespace Sys2Proof.Machine

/-! Settings (R232, R233). -/

def Ctx.en (c : Ctx) : Bool := c.c0.testBit 31
def Ctx.satop (c : Ctx) : Bool := c.c0.testBit 30
def Ctx.port (c : Ctx) : Nat := Machine.bits c.c0 27 3
def Ctx.enc (c : Ctx) : Nat := Machine.bits c.c0 25 2
def Ctx.rtp (c : Ctx) : Bool := c.c0.testBit 24
def Ctx.cr (c : Ctx) : Nat := Machine.bits c.c0 22 2
def Ctx.fillIdle (c : Ctx) : Bool := c.c0.testBit 21
def Ctx.jb (c : Ctx) : Nat := Machine.bits c.c0 10 11
def Ctx.p (c : Ctx) : Nat := Machine.bits c.c0 4 6 + 1
def Ctx.mask (c : Ctx) : Nat := c.c1 % 2 ^ 32
def Ctx.template (c : Ctx) : Nat := Machine.bits c.c2 20 10
def Ctx.txKey (c : Ctx) : Nat := Machine.bits c.c2 0 20
def Ctx.launchSlot (c : Ctx) : Nat := Machine.bits c.c3 25 7
def Ctx.rxKey (c : Ctx) : Nat := Machine.bits c.c3 0 20
def Ctx.idle (c : Ctx) : Byte := BitVec.ofNat 8 c.c4

/-- Slots carried, in slot order. -/
def Ctx.slots (c : Ctx) : List Nat := (List.range 32).filter (fun i => c.mask.testBit i)

/-- Bytes of a frame unit in a packet. -/
def Ctx.unitLen (c : Ctx) : Nat := if c.satop then 32 else c.slots.length

/-- Context states (R241). -/
def xOFF : Nat := 0
def xFILL : Nat := 1
def xRUN : Nat := 2
def xLOPS : Nat := 3

/-- The context is failed (R241): protection takes this as SF. -/
def Ctx.failed (c : Ctx) : Bool := c.st == xLOPS || c.st == xFILL || (c.st == xRUN && c.curL)

/-- Context `n`. -/
def State.ctx (s : State) (n : Nat) : Ctx := mapGet {} s.ctxs n
def State.setCtx (s : State) (n : Nat) (c : Ctx) : State := { s with ctxs := mapSet {} s.ctxs n c }

/-- The half of context `n` is powered. -/
def State.ctxUp (s : State) (n : Nat) : Bool := s.domUp (54 + ctxHalf n)

/-- The Ethernet half of port `p` is powered (R229). -/
def State.ethUp (s : State) (p : Nat) : Bool := s.domUp (52 + p / 4)

/-- Only a context's settings. -/
def Ctx.bare (c : Ctx) : Ctx := { c0 := c.c0, c1 := c.c1, c2 := c.c2, c3 := c.c3, c4 := c.c4 }

/-! The drawer to be sent (R233, R234). -/

/-- Majority of three bits of a byte from `lo` on. -/
def vote3 (b : Byte) (lo : Nat) : Bool :=
  decide (2 ≤ b2n (b.getLsbD lo) + b2n (b.getLsbD (lo + 1)) + b2n (b.getLsbD (lo + 2)))

/-- Tributary bits that byte `b` at index `idx` of a sealed container with K byte `k` brings, in their order (R113, R114). -/
def tributary (k b : Byte) (idx : Nat) : List Bool :=
  (if idx = 1 ∧ vote3 k 5 then [k.getLsbD 1] else []) ++
  (if idx = 2 then (beBits 8 b.toNat).drop 1 else if 2 < idx then beBits 8 b.toNat else []) ++
  (if idx = 33 ∧ !vote3 k 2 then [k.getLsbD 0] else [])

/-- The label that stands for an accepted one: for a SAToP context sealed counts as open and open as sealed (R234). -/
def pwLabel (satop : Bool) (l : Option Nat) : Option Nat :=
  if satop then (if l = some 1 then some 2 else if l = some 2 then some 1 else l) else l

/-- Frame units that wait, as many as two of the longest packets hold. -/
def keepUnits (u : List (Nat × Nat × List Byte)) : List (Nat × Nat × List Byte) := u.drop (u.length - 256)

/-- Count of the 8.192 MHz clock, 1,024 to a frame, at the core cycle at which row `row` of frame `k` begins (R20, R21, R235). -/
def tickAt (k row : Nat) : Nat := (150000 * k + 4167 * row - row / 3) * 1024 / 150000

/-- Tributary bits are extracted at count `t` in the frame with epoch `e`, at most nine at a time: 256 make a unit (R233). -/
def Ctx.takeBits (c : Ctx) (e t : Nat) (bs : List Bool) : Ctx :=
  let b := c.bits ++ bs
  if b.length < 256 then { c with bits := b }
  else { c with bits := b.drop 256, txUnits := keepUnits (c.txUnits ++ [(e, t, bitsToBytes (b.take 256))]) }

/-- One byte of a container of context `c`: row, byte and index in the container, in frame `k` with epoch `e`. A CESoPSN unit is complete
with the container's last byte; the bits of a SAToP unit are extracted as their bytes come. -/
def Ctx.takeByte (k e : Nat) (c : Ctx) (x : Nat × Byte × Nat) : Ctx :=
  if x.2.2 = 0 then { c with cont := some (e, [x.2.1]) }
  else
    match c.cont with
    | none => c
    | some (e0, bs) =>
      let bs := bs ++ [x.2.1]
      let c := { c with cont := if x.2.2 = 33 then none else some (e0, bs) }
      if c.satop then c.takeBits e0 (tickAt k x.1) (tributary (bs.getD 1 0) x.2.1 x.2.2)
      else if x.2.2 = 33 then
        { c with txUnits := keepUnits (c.txUnits ++ [(e0, tickAt k x.1, c.slots.map (fun i => bs.getD (i + 2) 0))]) }
      else c

/-- Context `c` receives the column of frame `k` with epoch `e`: interpreter, monitor, class, and the units it brings. While the
class is not VALID a unit of 0xFF falls in every frame. -/
def Ctx.takeFrame (c : Ctx) (k e : Nat) (col : List Byte) : Ctx :=
  let t := interpStep c.ip (col.getD 0 0).toNat
  let jumped := match t.2 with
    | .jump _ => true
    | .none | .plain _ | .incFrom _ | .decFrom _ => false
  let m0 := if t.1.st = .norm ∧ c.ip.st ≠ .norm then { c.mon with whole := false, label := none, lblRun := {} }
    else if jumped then { c.mon with whole := false } else c.mon
  let bs := frameBytes t.2 col
  let m := monBytes m0 false bs
  let cls := groomClass t.1 (pwLabel c.satop m.1.label)
  let c := { c with
    ip := t.1, mon := m.1, cls := cls, cont := if jumped || t.1.st != .norm then none else c.cont }
  if cls = 0 then bs.foldl (Ctx.takeByte k e) c
  else { c with cont := none, bits := [],
                txUnits := keepUnits (c.txUnits ++ [(e, tickAt (k + 1) 0, List.replicate c.unitLen 0xFF)]) }

/-! Packets (R235, R236). -/

/-- The one's complement sum of a list of bytes as 16-bit words. -/
def sum16 (bs : List Byte) : Nat :=
  match bs with
  | [] => 0
  | [a] => a.toNat * 256
  | a :: b :: r => a.toNat * 256 + b.toNat + sum16 r

/-- The Internet checksum of bytes whose checksum field holds 0. -/
def inetSum (bs : List Byte) : Nat :=
  let x := sum16 bs
  let r := if x = 0 then 0 else (x - 1) % 65535 + 1
  65535 - r

/-- Offset of the header behind the VLAN tags, and length of all headers of a template (R236). -/
def Tpl.inner (t : Tpl) : Nat := 14 + 4 * t.vlans
def Tpl.length (t : Tpl) : Nat :=
  match t.enc with
  | 0 => t.inner + 4
  | 1 => t.inner + 4 * t.labels
  | 2 => t.inner + 28
  | _ => t.inner + 48

/-- The headers of a packet from template `t` with key `key`, before the bytes `rest`: the engine's fields are written (R236). -/
def Tpl.headers (t : Tpl) (key : Nat) (rest : List Byte) : List Byte :=
  let h := t.data.take t.length
  let o := t.inner
  match t.enc with
  | 0 => patchBytes h o (beBytes 4 (key % 2 ^ 20 * 2 ^ 12 + 0x102))
  | 1 =>
    let first := ofBe (sliceBytes h o 4)
    let l := o + 4 * (t.labels - 1)
    let last := ofBe (sliceBytes h l 4)
    let h := if t.labels = 2 then patchBytes h o (beBytes 4 (clrBit first 8)) else h
    patchBytes h l (beBytes 4 (key % 2 ^ 20 * 2 ^ 12 + (last % 2 ^ 12 ||| 0x100)))
  | 2 =>
    let u := 8 + rest.length
    let h := patchBytes (patchBytes (patchBytes h (o + 2) (beBytes 2 (20 + u))) (o + 4) [0, 0]) (o + 10) [0, 0]
    let h := patchBytes h (o + 10) (beBytes 2 (inetSum (sliceBytes h o 20)))
    patchBytes h (o + 22) (beBytes 2 key ++ beBytes 2 u ++ [0, 0])
  | _ =>
    let u := 8 + rest.length
    let h := patchBytes h (o + 4) (beBytes 2 u)
    let h := patchBytes h (o + 42) (beBytes 2 key ++ beBytes 2 u ++ [0, 0])
    let c := inetSum (sliceBytes h (o + 8) 32 ++ beBytes 4 u ++ [0, 0, 0, 17] ++ sliceBytes h (o + 40) 8 ++ rest)
    patchBytes h (o + 46) (beBytes 2 (if c = 0 then 0xFFFF else c))

/-- A frame padded to 60 bytes, 64 with its FCS. -/
def padFrame (bs : List Byte) : List Byte := bs ++ List.replicate (60 - bs.length) 0

/-- Control word, RTP header and payload of a packet of context `n` (R235). -/
def Ctx.body (c : Ctx) (n pt ts : Nat) (payload : List Byte) : List Byte :=
  let len := 4 + (if c.rtp then 12 else 0) + payload.length
  let cw := b2n (c.cls != 0) * 2 ^ 27 + b2n (c.st == xLOPS) * 2 ^ 26 + (if len < 64 then len else 0) * 2 ^ 16 + c.seq
  let rtp := if c.rtp then
      [0x80, BitVec.ofNat 8 (pt % 128)] ++ beBytes 2 c.seq ++ beBytes 4 (ts % 2 ^ 32) ++ beBytes 4 n
    else []
  beBytes 4 cw ++ rtp ++ payload

/-- The transmit queue of a port takes an item: 128 KiB and 512 entries (R245). -/
def EthPort.room (e : EthPort) (bs : List Byte) : Bool :=
  decide (e.txq.length < 512) && decide ((e.txq.foldl (fun a x => a + x.bytes.length) 0) + bs.length ≤ 131072)

/-- Port `p`. -/
def State.eth (s : State) (p : Nat) : EthPort := mapGet {} s.eths p
def State.setEth (s : State) (p : Nat) (e : EthPort) : State := { s with eths := mapSet {} s.eths p e }

/-- A frame that a full transmit queue turns away (R245). -/
def State.txQfull (s : State) (p : Nat) : State := (s.count .eth p 6).raise .eth p 3

/-- A packet of context `n` from `us`, P units (R235, R244): SEQ and the time-stamp advance; in ISOLATE the port discards it. -/
def State.sendPacket (s : State) (n : Nat) (us : List (Nat × Nat × List Byte)) : State :=
  let c := s.ctx n
  let payload := if c.cls = 0 then us.flatMap (fun u => u.2.2) else List.replicate (c.p * c.unitLen) 0xFF
  let ts := if c.satop && c.cr == 2 then c.ts + (us.getLast?.map (fun u => u.2.1)).getD 0 else c.ts
  let rest := c.body n (s.rd R.PW_CTL_RTP_PT) ts payload
  let adv := if !c.satop then c.p else if c.cr = 2 then 0 else 256 * c.p
  let s := (s.setCtx n { c with seq := (c.seq + 1) % 65536, ts := (c.ts + adv) % 2 ^ 32 }).count .pw 0 1
  match mget? s.tpls c.template with
  | none => s
  | some t =>
    let f := padFrame (t.headers c.txKey rest ++ rest)
    if s.mode = mISOLATE then s
    else if (s.eth c.port).room f then s.setEth c.port { s.eth c.port with txq := (s.eth c.port).txq ++ [{ bytes := f }] }
    else s.txQfull c.port

/-- The units of the next packet of a CESoPSN context: those of the P frames up to the first whose epoch is P − 1 modulo P
(R244); and the units after them. -/
def cesTake (p : Nat) (u : List (Nat × Nat × List Byte)) : List (Nat × Nat × List Byte) × List (Nat × Nat × List Byte) :=
  match u.findIdx? (fun x => x.1 % p == p - 1) with
  | none => ([], u)
  | some i => (if i + 1 < p then [] else (u.take (i + 1)).drop (i + 1 - p), u.drop (i + 1))

/-- A visit of context `n` (R244): at most two packets. -/
def State.visit (s : State) (n : Nat) : State :=
  let c := s.ctx n
  if c.satop then
    (List.range 2).foldl (fun (s : State) _ =>
      let c := s.ctx n
      if c.txUnits.length < c.p then s
      else (s.setCtx n { c with txUnits := c.txUnits.drop c.p }).sendPacket n (c.txUnits.take c.p)) s
  else
    let t := cesTake c.p c.txUnits
    let s := s.setCtx n { c with txUnits := t.2 }
    if t.1.isEmpty then s else s.sendPacket n t.1

/-- BODY of a PWCTX record (R295): context [63:50], state [49:48], next SEQ [47:32], playout unit [31:0]. -/
def Ctx.mirror (c : Ctx) (n : Nat) : Nat :=
  ((n % 2 ^ 14 * 4 + c.st % 4) * 2 ^ 16 + c.seq % 2 ^ 16) * 2 ^ 32 + c.play.getD 0 % 2 ^ 32

/-- In PRIMARY what changed of context `n` goes to the mate, for the next hinge (R297, R305; log entry 105). -/
def State.mirrorPwctx (s : State) (n : Nat) : State :=
  let c := s.ctx n
  let b := c.mirror n
  if s.mode = mPRIMARY ∧ s.mateListens ∧ c.en ∧ c.sent ≠ b then
    (s.setCtx n { c with sent := b }).mirrorSend 7 (36 * (s.frame + 1)) (beBytes 8 b)
  else s

/-- A visit, and what it changed told to the mate. -/
def State.visitTurn (s : State) (n : Nat) : State := (s.visit n).mirrorPwctx n

/-- Enabled contexts of powered halves that satisfy `f`, in order. -/
def State.ctxsWith (s : State) (f : Ctx → Bool) : List Nat :=
  (s.ctxs.filter (fun e => e.2.en && s.ctxUp e.1 && f e.2)).map (·.1)

/-! The jitter buffer (R239 to R242). -/

/-- How far unit or packet number `a` lies ahead of `b`, modulo `m`: negative when it lies behind. -/
def ahead (m a b : Nat) : Int :=
  let d := (a + m - b % m) % m
  if d < m / 2 then (d : Int) else (d : Int) - m

/-- Unit numbers count modulo this. -/
def Ctx.unitMod (c : Ctx) : Nat := 2 ^ 32 * c.p

/-- The 32-bit packet number of a received SEQ: the value nearest to the expected next packet (R239). -/
def Ctx.packetNo (c : Ctx) (seq : Nat) : Nat :=
  match c.expect with
  | none => seq % 65536
  | some e =>
    let d := ahead 65536 (seq % 65536) (e % 65536)
    ((((e : Int) + d) % (2 ^ 32 : Nat)).toNat)

/-- An empty buffer in state `st`. -/
def Ctx.empty (c : Ctx) (st : Nat) : Ctx :=
  { c with st := st, play := none, expect := none, units := [], line := [], bursts := [], late := [], absent := 0, overruns := 0,
           crLast := none, crBits := 0, crTicks := 0 }

/-- Device address of a unit, its burst, and the burst's WTAG (R240). -/
def unitAddr (n f : Nat) : Nat := 0x28000000 + n * 0x8000 + 32 * (f % 1024)
def unitBurst (n f : Nat) : Nat := unitAddr n f / 64
def unitTag (f : Nat) : Nat := f / 2 % 65536

/-- A unit's place in the data of its burst. -/
def unitIn (f : Nat) (burst : List Byte) : List Byte := sliceBytes burst (32 * (f % 2)) 32

/-- Unit `f` is present, or waits to be merged. -/
def Ctx.has (c : Ctx) (f : Nat) : Bool := (mget? c.units f).isSome || (mget? c.late f).isSome

/-- Unit `f` arrives: into the burst being built, or to be merged into a burst already written; one that is present stays. -/
def Ctx.put (c : Ctx) (f : Nat) (u : List Byte) (l : Bool) : Ctx :=
  if c.has f then c
  else if (mget? c.bursts (f / 2)).isSome then { c with late := mput c.late f (u, l) }
  else { c with units := mput c.units f l, line := mput c.line f u }

/-- The buffer restarts (R241). -/
def State.jbRestart (s : State) (n : Nat) : State :=
  let c := s.ctx n
  (s.setCtx n { c.empty xFILL with restarts := satAdd 8 c.restarts 1 }).raise .pw 0 1

/-- A packet that R238 or R239 discards. -/
def State.pwDiscard (s : State) : State := s.count .pw 0 4

/-- A packet that comes late or early (R239): the eighth early one in a row restarts the buffer. -/
def State.offTime (s : State) (n : Nat) (early : Bool) : State :=
  let c := s.ctx n
  let o := if early then c.overruns + 1 else 0
  let s := (s.setCtx n { c with lateCnt := satAdd 8 c.lateCnt 1, overruns := o }).pwDiscard
  if 8 ≤ o then s.jbRestart n else s

/-- Bits L and R of the packet accepted last; a change of R raises REMOTE. -/
def State.noteLR (s : State) (n : Nat) (l r : Bool) : State :=
  let c := s.ctx n
  let s := (s.setCtx n { c with lRx := l, rRx := r, rxPkts := satAdd 32 c.rxPkts 1 }).count .pw 0 2
  if c.rRx = r then s else s.raise .pw 0 2

/-- The units of a packet are placed (R239). A packet that repeats a unit is counted as a duplicate, by the one counter that there is for
what R239 discards, and not as accepted; the units that it does not repeat are placed (DESIGN CHOICE, log entry 98). -/
def State.placePacket (s : State) (n : Nat) (no : Nat) (us : List (List Byte)) (l r : Bool) : State :=
  let c := s.ctx n
  let m := c.unitMod
  let first := no * c.p % m
  let play := c.play.getD first
  let next := match c.expect with
    | none => (no + 1) % 2 ^ 32
    | some e => if 0 ≤ ahead (2 ^ 32) no e then (no + 1) % 2 ^ 32 else e
  let s := s.setCtx n { c with play := some play, expect := some next }
  if ahead m first play < 0 then s.offTime n false
  else if (c.jb : Int) ≤ ahead m ((first + c.p - 1) % m) play then s.offTime n true
  else
    let fs := (List.range c.p).map (fun i => (first + i) % m)
    let c := s.ctx n
    let t := s.setCtx n ((fs.zip us).foldl (fun (c : Ctx) x => c.put x.1 x.2 l) { c with overruns := 0 })
    if fs.any c.has then t.pwDiscard else t.noteLR n l r

/-- The recovered clock takes offset `x`, within ±100 ppm; reaching the limit is reported (R243). -/
def State.crSet (s : State) (n : Nat) (x : Int) : State :=
  let o := clampInt (-10000) 10000 x
  let s := s.setCtx n { s.ctx n with crOff := o }
  if o == 10000 || o == -10000 then s.raise .pw 0 4 else s

/-- Adaptive recovery: the loop's next offset is a free value (log entry 25). -/
def State.crUpdate (s : State) (n : Nat) : State :=
  if (s.ctx n).satop && (s.ctx n).cr == 1 then s.takeFresh.crSet n (Config.crOffset s.fresh).toInt else s

/-- Differential recovery (R243): received tributary bits against received ticks of 8.192 MHz, four to a bit at the nominal rate, as an
offset in 0.01 ppm. -/
def crRatio (bits ticks : Nat) : Int := if ticks = 0 then 0 else ((4 * bits : Int) - ticks) * 100000000 / ticks

/-- Packet number `no` with time-stamp `ts` has been received: its bits and ticks since the last one counted join those counted since
the buffer began (DESIGN CHOICE of the interval over which the ratio is taken, log entry 98). -/
def State.crPacket (s : State) (n no ts : Nat) : State :=
  let c := s.ctx n
  if !(c.satop && c.cr == 2) then s
  else
    match c.crLast with
    | none => s.setCtx n { c with crLast := some (no, ts) }
    | some (m, t) =>
      let d := ahead (2 ^ 32) no m
      if d ≤ 0 then s
      else
        let b := c.crBits + 256 * c.p * d.toNat
        let k := c.crTicks + (ts + 2 ^ 32 - t % 2 ^ 32) % 2 ^ 32
        (s.setCtx n { c with crLast := some (no, ts), crBits := b, crTicks := k }).crSet n (crRatio b k)

/-- A packet with control word bits L and R, number SEQ and RTP time-stamp `ts` is received for context `n` (R239, R241). In LOPS it counts towards
LOPS_CLR, and the packet that completes the count begins the new buffer. -/
def State.pwReceive (s : State) (n seq ts : Nat) (us : List (List Byte)) (l r : Bool) : State :=
  let c := s.ctx n
  if c.st = xLOPS then
    let run := if c.lopsRun ≠ 0 ∧ seq = (c.lastSeq + 1) % 65536 then c.lopsRun + 1 else 1
    if run < s.rd R.PW_CTL_LOPS_CLR then (s.setCtx n { c with lopsRun := run, lastSeq := seq }).noteLR n l r
    else
      let c := { c.empty xFILL with lopsRun := 0, lastSeq := seq }
      (((s.setCtx n c).raise .pw 0 0).crPacket n (seq % 65536) ts).placePacket n seq us l r
  else ((s.setCtx n { c with lastSeq := seq }).crPacket n (c.packetNo seq) ts).placePacket n (c.packetNo seq) us l r

/-- A unit as the buffer holds it: 32 bytes, slots outside SLOT_MASK 0x00 (R240). -/
def Ctx.unitOf (c : Ctx) (bs : List Byte) : List Byte :=
  if c.satop then sliceBytes bs 0 32
  else ((c.slots.zip (List.range 32)).foldl (fun u x => patchBytes u x.1 [bs.getD x.2 0]) (List.replicate 32 0))

/-- The unit that begins the buffer: the present one that lies least far ahead of the playout point. -/
def Ctx.begin? (c : Ctx) : Option Nat :=
  match c.play with
  | none => none
  | some p => c.units.foldl (fun b u =>
      match b with
      | none => some u.1
      | some f => if ahead c.unitMod u.1 p < ahead c.unitMod f p then some u.1 else b) none

/-- The buffer may enter RUN from unit `f` on: JB_FRAMES / 2 units lie beyond it. -/
def Ctx.filled (c : Ctx) (f : Nat) : Bool :=
  decide (c.jb / 2 ≤ ((c.units.map (·.1) ++ c.late.map (·.1)).filter (fun u => decide (0 < ahead c.unitMod u f))).length)

/-- Unit `f` and all of its burst that lies behind leave the buffer once it is played. -/
def Ctx.played (c : Ctx) (f : Nat) : Ctx :=
  { c with units := mdel c.units f, line := mdel c.line f, late := mdel c.late f, play := some ((f + 1) % c.unitMod),
           bursts := if f % 2 = 1 then mdel c.bursts (f / 2) else c.bursts }

/-- The bits of the unit played join those to be sent in sealed containers; those of a unit with L = 1 are never sent (R243). -/
def Ctx.pushOut (c : Ctx) : Ctx := if c.satop && !c.curL then { c with outBits := c.outBits ++ bytesToBits c.cur } else c

/-- An absent unit at its playout (R241, R242). -/
def State.concealUnit (s : State) (n : Nat) : State :=
  let c := s.ctx n
  let fill := c.fillIdle || !c.had
  let c := { c with cur := if fill then List.replicate 32 c.idle else c.cur, curL := if fill then false else c.curL,
                    conceal := satAdd 16 c.conceal 1, absent := c.absent + 1 }
  let s := (s.setCtx n c.pushOut).count .pw 0 3
  if s.rd R.PW_LOPS_CFG_LOPS_SET ≤ c.absent then
    (s.setCtx n { (s.ctx n).empty xLOPS with lopsRun := 0 }).raise .pw 0 0
  else s

/-- A jitter-buffer burst failed its check (R208). -/
def State.jbDet (s : State) : State := (s.count .pw 0 5).raise .pw 0 3

/-- The content of unit `f` at its playout: out of its burst, or, while that is not written, out of the line that gathers it. A burst that
fails its check makes both of its units absent (R208, R240). -/
def State.unitContent (s : State) (n f : Nat) : State × Option (List Byte) :=
  let c := s.ctx n
  if (mget? c.units f).isNone then (s, none)
  else
    match mget? c.line f with
    | some u => (s, some u)
    | none =>
      match s.burstGet rgJitter (unitTag f) (unitBurst n f) with
      | (s, some b) => (s, some (unitIn f b))
      | (s, none) =>
        let c := s.ctx n
        ((s.setCtx n { c with units := mdel (mdel c.units (f / 2 * 2)) (f / 2 * 2 + 1) }).jbDet, none)

/-- Unit `f` is played (R241). -/
def State.playUnit (s : State) (n f : Nat) : State :=
  let l := (mget? (s.ctx n).units f).getD false
  let t := s.unitContent n f
  let s := match t.2 with
    | some u => t.1.setCtx n { t.1.ctx n with cur := u, curL := l, had := true, absent := 0 }.pushOut
    | none => t.1.concealUnit n
  let c := s.ctx n
  (if c.st = xRUN then s.setCtx n (c.played f) else s).crUpdate n

/-- PLAYOUT_UNIT: a unit time of context `n` (R241). While DRAM is not ready a running context goes back to FILL. -/
def State.playout (s : State) (n : Nat) : State :=
  let c := s.ctx n
  if !c.en || !s.ctxUp n then s
  else if c.st = xRUN then
    if !s.dramReady then s.setCtx n { c with st := xFILL } else s.playUnit n (c.play.getD 0)
  else if c.st = xFILL ∧ s.dramReady then
    match c.begin? with
    | none => s
    | some f => if c.filled f then (s.setCtx n { c with st := xRUN, play := some f }).playUnit n f else s
  else s

/-- PLAYOUT_UNIT. -/
def execPlayoutUnit (n : Fin 16384) (s : State) : Host.Outcome State Fault Refusal := ok ((s.start.playout n.val).mirrorPwctx n.val)

/-- The burst of units `a` and `a + 1` may be written: both are present, or the first is due to play out within 2 frames (R240). -/
def Ctx.burstDue (c : Ctx) (a : Nat) : Bool :=
  ((mget? c.line a).isSome && (mget? c.line (a + 1)).isSome) ||
  (((mget? c.line a).isSome || (mget? c.line (a + 1)).isSome) && c.st == xRUN && decide (ahead c.unitMod a (c.play.getD 0) ≤ 2))

/-- The context's buffer can reach DRAM. -/
def State.jbRuns (s : State) (n : Nat) : Bool := s.dramReady && (s.ctx n).en && s.ctxUp n

/-- The data of the burst that is gathered for units `a` and `a + 1`; a unit that has not arrived holds 0x00. -/
def Ctx.gathered (c : Ctx) (a : Nat) : List Byte :=
  sliceBytes ((mget? c.line a).getD []) 0 32 ++ sliceBytes ((mget? c.line (a + 1)).getD []) 0 32

/-- JB_BURST_WRITE: the burst of units f and f xor 1 is written whole (R240). -/
def execJbBurstWrite (n : Fin 16384) (f : Nat) (s : State) : Host.Outcome State Fault Refusal :=
  let s := s.start
  let c := s.ctx n
  let a := f / 2 * 2
  if !s.jbRuns n || !c.burstDue a then ok s
  else ok ((s.setCtx n { c with line := mdel (mdel c.line a) (a + 1), bursts := mput c.bursts (f / 2) 1 }).burstPut rgJitter
    (unitTag f) (unitBurst n f) (c.gathered a))

/-- JB_MERGE: a unit that arrived after its burst was written is merged: the burst is read, the unit added, and the burst written whole
again; a read that fails R208 discards the unit (R240). -/
def execJbMerge (n : Fin 16384) (f : Nat) (s : State) : Host.Outcome State Fault Refusal :=
  let s := s.start
  let c := s.ctx n
  match mget? c.late f with
  | none => ok s
  | some u =>
    if !s.jbRuns n then ok s
    else
      let s := s.setCtx n { c with late := mdel c.late f }
      match s.burstGet rgJitter (unitTag f) (unitBurst n f) with
      | (s, none) => ok s.jbDet
      | (s, some b) => ok ((s.setCtx n { s.ctx n with units := mput (s.ctx n).units f u.2 }).burstPut rgJitter
          (unitTag f) (unitBurst n f) (patchBytes b (32 * (f % 2)) u.1))

/-! The rebuilt drawer (R243). -/

/-- K and payload of a sealed container, with the tributary bits that are left and the phase after it: C1 or C2 is set when the
phase has moved a whole bit; bits that are missing are sent as 1. -/
def sealedBytes (bs : List Bool) (phase : Int) : List Byte × List Bool × Int :=
  let c1 := decide (100000000 ≤ phase)
  let c2 := decide (phase ≤ -100000000)
  let n := if c1 then 257 else if c2 then 255 else 256
  let b := (bs ++ List.replicate n true).take n
  let s1 := if c1 then b.getD 0 true else false
  let b' := if c1 then b.drop 1 else b
  let s2 := if c2 then false else b'.getD 255 true
  let k := b2n c1 * 0xE0 + b2n c2 * 0x1C + b2n s1 * 2 + b2n s2
  (BitVec.ofNat 8 k :: bitsToBytes (false :: b'.take 255), bs.drop n,
   if c1 then phase - 100000000 else if c2 then phase + 100000000 else phase)

/-- The column that context `n` builds in the frame with epoch `e`, and the context after it. Tributary bits that wait when the context
is failed are not sent later. -/
def Ctx.build (c : Ctx) (e : Nat) : Ctx × Col :=
  let h (label : Nat) : Byte := hByte c.par c.mon.lastErr (c.cls == 1 || c.cls == 2) label (tagTx e)
  let out (c : Ctx) (bs : List Byte) : Ctx × Col := ({ c with par := xorBytes bs }, builtCol bs)
  if !c.en then (c, uneqCol)
  else if c.failed || c.st != xRUN then out { c with outBits := [] } (h 4 :: List.replicate 33 0xFF)
  else if c.satop then
    let t := sealedBytes c.outBits (c.phase + c.crOff * 256)
    out { c with outBits := t.2.1, phase := t.2.2 } (h 2 :: t.1)
  else
    out c (h 1 :: BitVec.ofNat 8 (e % 32 * 8) ::
      (List.range 32).map (fun i => if c.mask.testBit i then c.cur.getD i 0 else c.idle))

/-! The ports of PW (R232, R236). -/

/-- C_CFG0 to C_CFG4 as words. -/
def State.cCfg (s : State) : List Nat :=
  [s.rd R.PW_C_CFG0_EN * 2 ^ 31 + s.rd R.PW_C_CFG0_MODE * 2 ^ 30 + s.rd R.PW_C_CFG0_ETH_PORT * 2 ^ 27 +
     s.rd R.PW_C_CFG0_ENC * 2 ^ 25 + s.rd R.PW_C_CFG0_RTP_EN * 2 ^ 24 + s.rd R.PW_C_CFG0_CR * 2 ^ 22 +
     s.rd R.PW_C_CFG0_LOSS_MODE * 2 ^ 21 + s.rd R.PW_C_CFG0_JB_FRAMES * 2 ^ 10 + s.rd R.PW_C_CFG0_PKT_M1 * 2 ^ 4,
   s.rd R.PW_C_CFG1_SLOT_MASK,
   s.rd R.PW_C_CFG2_TEMPLATE * 2 ^ 20 + s.rd R.PW_C_CFG2_TX_KEY,
   s.rd R.PW_C_CFG3_PHASE * 2 ^ 25 + s.rd R.PW_C_CFG3_RX_KEY,
   s.rd R.PW_C_CFG4_IDLE]

/-- C_CMD is written: READ 1, WRITE 2, CLR 4. -/
def State.cCmd (s : State) (v : Nat) : State :=
  s.portLatch .pwCtx { op := v % 8, idx := s.rd R.PW_C_IDX_CTX, cfg := s.cCfg }

/-- CTX_READ, CTX_READ_CLEAR and CTX_WRITE. -/
def execCtxRead (s : State) : Host.Outcome State Fault Refusal := s.onPage .pw 0 (fun s => s.cCmd 1)
def execCtxReadClear (s : State) : Host.Outcome State Fault Refusal := s.onPage .pw 0 (fun s => s.cCmd 5)
def execCtxWrite (s : State) : Host.Outcome State Fault Refusal := s.onPage .pw 0 (fun s => s.cCmd 2)

/-- The settings of a list of five words. -/
def ctxOf (w : List Nat) : Ctx := { c0 := w.getD 0 0, c1 := w.getD 1 0, c2 := w.getD 2 0, c3 := w.getD 3 0, c4 := w.getD 4 0 }

/-- The ERR_CODE with which an enable of context `n` with settings `c` is refused; 0 where it is not (R232). -/
def State.ctxErr (s : State) (n : Nat) (c : Ctx) : Nat :=
  if (!c.satop && c.cr != 0) || (c.satop && c.cr == 0) || (c.cr == 2 && !c.rtp) || c.cr == 3 then 1
  else if !c.satop && c.mask == 0 then 2
  else if c.jb < 2 * c.p ∨ c.jb < 4 ∨ 1024 < c.jb then 3
  else if (match mget? s.tpls c.template with
      | none => true
      | some t => t.enc != c.enc) then 4
  else if s.ctxs.any (fun e => e.1 != n && e.2.en && e.2.port == c.port && e.2.enc == c.enc && e.2.rxKey == c.rxKey) then 5
  else if !s.ethUp c.port then 6
  else 0

/-- Context `n` takes settings `c`: an enable starts it in FILL, a disable leaves nothing behind. -/
def State.ctxSet (s : State) (n : Nat) (c : Ctx) : State :=
  let old := s.ctx n
  if c.en && !old.en then s.takeFresh.setCtx n { c with st := xFILL, ts := (Config.rtpStart s.fresh).toNat }
  else if c.en then s
  else
    let s := s.setCtx n c.bare
    if old.st = xLOPS then s.raise .pw 0 0 else s

/-- BODY of a PWCFG record: template or context, index, register, value (R295). -/
def pwcfgBody (tpl : Bool) (idx reg v : Nat) : List Byte :=
  beBytes 8 (b2n tpl * 2 ^ 63 + idx % 2 ^ 15 * 2 ^ 48 + reg % 2 ^ 16 * 2 ^ 32 + v % 2 ^ 32)

/-- The PWCFG bodies of a context's settings, C_CFG0 last (R297). -/
def Ctx.cfgBodies (c : Ctx) (n : Nat) : List (List Byte) :=
  [(1, c.c1), (2, c.c2), (3, c.c3), (4, c.c4), (0, c.c0)].map (fun x => pwcfgBody false n x.1 x.2)

/-- In PRIMARY PWCFG records go to the mate, for the next hinge. -/
def State.mirrorPwcfg (s : State) (bodies : List (List Byte)) : State :=
  if s.mode ≠ mPRIMARY then s else bodies.foldl (fun (s : State) b => s.mirrorSend 6 (36 * (s.frame + 1)) b) s

/-- A WRITE of the context port is refused. -/
def State.cErr (s : State) (code : Nat) : State := (s.wr R.PW_C_CMD_ERR 1).wr R.PW_C_CMD_ERR_CODE code

/-- The WRITE of the context port (R232, R287). -/
def State.ctxWrite (s : State) (n : Nat) (c : Ctx) : State :=
  let old := s.ctx n
  let err := if c.en then s.ctxErr n c else 0
  if !s.decides || !s.ctxUp n then s.cErr 0
  else if err ≠ 0 then s.cErr err
  else if old.en && { c with c0 := clrBit c.c0 31 } != { old.bare with c0 := clrBit old.c0 31 } then s.cErr 7
  else (s.ctxSet n c).mirrorPwcfg (c.cfgBodies n)

/-- The fields of C_CFG0 to C_CFG4 set from a context. -/
def State.wrCCfg (s : State) (c : Ctx) : State :=
  let s := (((s.wrB R.PW_C_CFG0_EN c.en).wrB R.PW_C_CFG0_MODE c.satop).wr R.PW_C_CFG0_ETH_PORT c.port).wr R.PW_C_CFG0_ENC c.enc
  let s := ((s.wrB R.PW_C_CFG0_RTP_EN c.rtp).wr R.PW_C_CFG0_CR c.cr).wrB R.PW_C_CFG0_LOSS_MODE c.fillIdle
  let s := ((s.wr R.PW_C_CFG0_JB_FRAMES c.jb).wr R.PW_C_CFG0_PKT_M1 (c.p - 1)).wr R.PW_C_CFG1_SLOT_MASK c.mask
  let s := ((s.wr R.PW_C_CFG2_TEMPLATE c.template).wr R.PW_C_CFG2_TX_KEY c.txKey).wr R.PW_C_CFG3_PHASE c.launchSlot
  (s.wr R.PW_C_CFG3_RX_KEY c.rxKey).wr R.PW_C_CFG4_IDLE c.c4

/-- Context `n` is captured; `clr` clears C_CNT. -/
def State.ctxCapture (s : State) (n : Nat) (clr : Bool) : State :=
  let c := s.ctx n
  let s := s.wrCCfg c
  let s := (s.wr R.PW_C_STAT_CR_OFFSET (off20 c.crOff)).wr R.PW_C_STAT_FILL (c.units.length + c.late.length)
  let s := (((s.wrB R.PW_C_STAT2_R_RX c.rRx).wrB R.PW_C_STAT2_L_RX c.lRx).wr R.PW_C_STAT2_CLASS c.cls).wrB R.PW_C_STAT2_FAILED c.failed
  let s := ((s.wr R.PW_C_STAT2_STATE c.st).wr R.PW_C_CNT_RX_PKTS c.rxPkts).wr R.PW_C_CNT2_CONCEAL c.conceal
  let s := (s.wr R.PW_C_CNT2_LATE c.lateCnt).wr R.PW_C_CNT2_RESTART c.restarts
  if clr then s.setCtx n { c with rxPkts := 0, conceal := 0, lateCnt := 0, restarts := 0 } else s

/-- The command at the context port completes. -/
def State.ctxDone (s : State) (c : PortCmd) : State :=
  let s := s.portFree .pwCtx
  let s := if c.op.testBit 1 then s.ctxWrite c.idx (ctxOf c.cfg) else s
  if c.op.testBit 0 then s.ctxCapture c.idx (c.op.testBit 2) else s

/-- T_CMD is written: READ 1, WRITE 2, INVAL 4. T_CTL and T_DATA go with it. -/
def State.tCmd (s : State) (v : Nat) : State :=
  s.portLatch .pwTpl { op := v % 8, idx := s.rd R.PW_T_IDX_TEMPLATE,
                       cfg := [s.rd R.PW_T_CTL_LABELS, s.rd R.PW_T_CTL_VLANS, s.rd R.PW_T_CTL_ENC] ++
                         (List.range 24).map (fun j => s.rd R.PW_T_DATA_BYTES 0 j) }

/-- TPL_READ, TPL_WRITE and TPL_INVAL. -/
def execTplRead (s : State) : Host.Outcome State Fault Refusal := s.onPage .pw 0 (fun s => s.tCmd 1)
def execTplWrite (s : State) : Host.Outcome State Fault Refusal := s.onPage .pw 0 (fun s => s.tCmd 2)
def execTplInval (s : State) : Host.Outcome State Fault Refusal := s.onPage .pw 0 (fun s => s.tCmd 4)

/-- The template of a latched T_CTL and T_DATA. -/
def tplOf (w : List Nat) : Tpl :=
  { labels := w.getD 0 0, vlans := w.getD 1 0, enc := w.getD 2 0, data := (w.drop 3).flatMap (fun x => leBytes 4 x) }

/-- T_CTL of a template. -/
def Tpl.ctl (t : Tpl) (valid : Bool) : Nat := b2n valid * 128 + t.labels * 16 + t.vlans * 4 + t.enc

/-- The PWCFG bodies of template `i`, T_CTL last (R297). -/
def Tpl.cfgBodies (t : Tpl) (i : Nat) (valid : Bool) : List (List Byte) :=
  (if valid then (List.range 24).map (fun j => pwcfgBody true i (0x200 + 4 * j) (ofLe (sliceBytes t.data (4 * j) 4))) else []) ++
    [pwcfgBody true i 0x148 (t.ctl valid)]

/-- An enabled context names template `i`. -/
def State.tplUsed (s : State) (i : Nat) : Bool := s.ctxs.any (fun e => e.2.en && e.2.template == i)

/-- Template `i` is captured. -/
def State.tplCapture (s : State) (i : Nat) : State :=
  match mget? s.tpls i with
  | none => s.wr R.PW_T_CTL_VALID 0
  | some t =>
    let s := (((s.wr R.PW_T_CTL_VALID 1).wr R.PW_T_CTL_LABELS t.labels).wr R.PW_T_CTL_VLANS t.vlans).wr R.PW_T_CTL_ENC t.enc
    (List.range 24).foldl (fun s j => s.wr R.PW_T_DATA_BYTES (ofLe (sliceBytes t.data (4 * j) 4)) 0 j) s

/-- The command at the template port completes. -/
def State.tplDone (s : State) (c : PortCmd) : State :=
  let s := s.portFree .pwTpl
  let i := c.idx
  let s := if !c.op.testBit 1 then s
    else if !s.decides then s.wr R.PW_T_CMD_ERR 1
    else
      let t := tplOf c.cfg
      { s with tpls := mput s.tpls i t }.mirrorPwcfg (Tpl.cfgBodies t i true)
  let s := if !c.op.testBit 2 then s
    else if !s.decides || s.tplUsed i then s.wr R.PW_T_CMD_ERR 1
    else { s with tpls := mdel s.tpls i }.mirrorPwcfg (Tpl.cfgBodies (tplOf []) i false)
  if c.op.testBit 0 then s.tplCapture i else s

end Sys2Proof.Machine
end

