-- ==== Sys2Proof/Machine/Eth.lean ====
section
/-! DEFINITION. The Ethernet ports: receiving, sending, host rings, time-stamps (R228 to R246, R272 to R274). Frames are lists of
bytes without their FCS. -/
namespace Sys2Proof.Machine

/-- A big-endian field of a frame. -/
def fieldBe (bs : List Byte) (o n : Nat) : Nat := ofBe (sliceBytes bs o n)

/-! Time-stamps (R272, R273), in 1/80 ns. -/

/-- The correction of a port for sending or receiving. -/
def EthPort.correction (e : EthPort) (tx : Bool) : Int :=
  match e.speed, e.fec, tx with
  | false, _, true => 3072
  | false, _, false => -4096
  | true, false, true => 1640
  | true, false, false => -2168
  | true, true, true => 9008
  | true, true, false => -19456

/-- The corrected stamp, in whole ns and on the clock's range, of a frame whose SFD passed the MAC `ago` × 2^-16 ns before the present
time; `extra` is the codeword part of a receive correction, in 2^-16 ns. -/
def State.stampNs (s : State) (p : Nat) (tx : Bool) (ago : Nat) (extra : Int) : Nat :=
  let e := s.eth p
  let adj := toSigned 16 (s.rd R.NTIME_PORT_ADJ_ADJ 0 p)
  let x := if e.speed && e.fec && !tx then extra else 0
  let t : Int := 80 * (s.time : Int) + (e.correction tx + 5 * adj) * ntNs + 80 * (x - ago) * 2 ^ 32
  (t % (80 * ntRange : Nat)).toNat / (80 * ntNs)

/-- The 64-bit form of a stamp in a descriptor: seconds, VALID, nanoseconds. -/
def stampWord (ns : Nat) : Nat := ns / 1000000000 % 2 ^ 32 * 2 ^ 32 + 2 ^ 31 + ns % 1000000000

/-- A port's engine runs: its half is powered and PORT_EN = 1. -/
def State.portRuns (s : State) (p : Nat) : Bool := s.ethUp p && s.on R.ETH_EN_PORT_EN p

/-! Host rings (R246). -/

/-- A ring of 2^size entries is full: the indices differ only in bit `size`. -/
def hostFull (size wr rd : Nat) : Bool := wr % 2 ^ (size + 1) ^^^ rd % 2 ^ (size + 1) == 2 ^ size

/-- Device address of descriptor `i` of a ring. -/
def descAddr (base size i : Nat) : Nat := base * 32 + 32 * (i % 2 ^ size)

/-- A read or write of the host's region; anything else is not the host's memory. -/
def State.hostRead (s : State) (d len : Nat) : State × Option (List Byte) := s.deviceRead (len / 64 + 2) d len
def State.hostWrite (s : State) (d : Nat) (bs : List Byte) : State :=
  if d < hostRegion then s else (s.deviceWrite (bs.length / 64 + 2) d bs).1

/-- A transmit descriptor completes: byte 7 and the stamp are written back, RD advances and HTX_DONE is raised. -/
def State.descDone (s : State) (p : Nat) (x : TxItem) (flags : Nat) (stamp : Option Nat) : State :=
  match x.desc with
  | none => s
  | some d =>
    let s := s.hostWrite (d + 7) [BitVec.ofNat 8 (x.ctl % 64 ||| 0x10 ||| flags)]
    let s := match stamp with
      | none => s
      | some t => s.hostWrite (d + 16) (leBytes 8 (stampWord t))
    let m := 2 ^ (s.rd R.ETH_HTX_SIZE_SIZE p + 1)
    (s.wr R.ETH_HTX_PTR_RD ((s.rd R.ETH_HTX_PTR_RD p + 1) % m) p).raise .eth p 2

/-- A host frame joins the transmit queue, or a full queue drops it. -/
def State.queueHost (s : State) (p : Nat) (x : TxItem) : State :=
  if (s.eth p).room x.bytes then s.setEth p { s.eth p with txq := (s.eth p).txq ++ [x] }
  else (s.txQfull p).descDone p x 0x40 none

/-- Whether the launch instant of epoch `e`, slot `slot` has passed (R171, R246). -/
def State.launchPassed (s : State) (e slot : Nat) : Bool :=
  if s.epoch = e then decide (slot * 600 < s.cyc) else epochReached e s.epoch

/-- A late launch: dropped with DROP_LATE, else queued at once with LATE. -/
def State.launchLate (s : State) (p : Nat) (x : TxItem) : State :=
  if x.ctl.testBit 1 then s.descDone p x 0x40 none else s.queueHost p { x with ctl := setBit x.ctl 5 }

/-- The engine reads the next transmit descriptor (R246). -/
def State.hostTxDesc (s : State) (p : Nat) : State :=
  let e := s.eth p
  let size := s.rd R.ETH_HTX_SIZE_SIZE p
  let m := 2 ^ (size + 1)
  if !s.portRuns p || !s.on R.ETH_EN_HTX_EN p || !s.dramReady || e.hold.isSome || e.next % m == s.rd R.ETH_HTX_PTR_WR p % m then s
  else
    let d := descAddr (s.rd R.ETH_HTX_BASE_BASE p) size e.next
    match s.hostRead d 32 with
    | (s, none) => s
    | (s, some b) =>
      let len := ofLe (sliceBytes b 5 2)
      let ctl := (b.getD 7 0).toNat % 8
      match s.hostRead (ofLe (sliceBytes b 0 5)) len with
      | (s, none) =>
        (s.setEth p { s.eth p with next := (e.next + 1) % m }).descDone p { bytes := [], desc := some d, ctl := ctl } 0x80 none
      | (s, some data) =>
        let x : TxItem := { bytes := padFrame data, desc := some d, ctl := ctl }
        let ep := ofLe (sliceBytes b 8 5)
        let slot := (b.getD 13 0).toNat
        if !ctl.testBit 0 && !e.room x.bytes then s
        else
          let s := s.setEth p { s.eth p with next := (e.next + 1) % m }
          if !ctl.testBit 0 then s.queueHost p x
          else if s.launchPassed ep slot then s.launchLate p x
          else s.setEth p { s.eth p with hold := some (x, ep, slot) }

/-- HOST_TX_DESC. -/
def execHostTxDesc (p : Fin 8) (s : State) : Host.Outcome State Fault Refusal := ok (s.start.hostTxDesc p.val)

/-- The held host frame of port `p` at launch slot `sl`: queued at its slot, or late when that has passed (R246). -/
def State.launchHost (sl : Nat) (s : State) (p : Nat) : State :=
  match (s.eth p).hold with
  | none => s
  | some (x, e, slot) =>
    let free := s.setEth p { s.eth p with hold := none }
    if s.epoch = e ∧ slot = sl then free.queueHost p x
    else if (s.epoch = e ∧ slot < sl) ∨ (s.epoch ≠ e ∧ epochReached e s.epoch) then free.launchLate p x
    else s

/-- LAUNCH_SLOT (R244): the contexts of the slot in order, then the host frames due. -/
def execLaunchSlot (sl : Fin 125) (s : State) : Host.Outcome State Fault Refusal :=
  let s := s.start
  let s := (s.ctxsWith (fun c => c.launchSlot == sl.val)).foldl State.visitTurn s
  ok ((List.range 8).foldl (State.launchHost sl.val) s)

/-- The host receive ring of port `p` is enabled and within reach (R246). -/
def State.ringOpen (s : State) (p : Nat) : Bool := s.on R.ETH_EN_HRX_EN p && s.dramReady

/-- It is open, and has no free descriptor. -/
def State.ringFull (s : State) (p : Nat) : Bool :=
  s.ringOpen p && hostFull (s.rd R.ETH_HRX_SIZE_SIZE p) (s.rd R.ETH_HRX_PTR_WR p) (s.rd R.ETH_HRX_PTR_RD p)

/-- A received frame is written to the host receive ring, or discarded when that is disabled (R230, R246). -/
def State.toHost (s : State) (p : Nat) (f : EthRx) (stamp : Nat) : State :=
  let size := s.rd R.ETH_HRX_SIZE_SIZE p
  let wr := s.rd R.ETH_HRX_PTR_WR p
  if !s.ringOpen p then s.pwDiscard
  else
    let d := descAddr (s.rd R.ETH_HRX_BASE_BASE p) size wr
    match s.hostRead d 32 with
    | (s, none) => s
    | (s, some b) =>
      let cap := ofLe (sliceBytes b 5 2)
      let short := decide (cap < f.bytes.length)
      let s := s.hostWrite (ofLe (sliceBytes b 0 5)) (f.bytes.take cap)
      let s := s.hostWrite (d + 5) (leBytes 2 f.bytes.length ++ [if short then 0x70 else 0x10])
      let s := s.hostWrite (d + 16) (leBytes 8 (stampWord stamp))
      (s.wr R.ETH_HRX_PTR_WR ((wr + 1) % 2 ^ (size + 1)) p).raise .eth p 1

/-! Classification (R230, R237, R238). -/

/-- Number of VLAN tags, and their VLAN IDs. -/
def vlanIds (n : Nat) (bs : List Byte) (o : Nat) : List Nat :=
  match n with
  | 0 => []
  | n + 1 =>
    let t := fieldBe bs o 2
    if t = 0x8100 ∨ t = 0x88A8 then fieldBe bs (o + 2) 2 % 4096 :: vlanIds n bs (o + 4) else []

/-- VLAN IDs of a template. -/
def Tpl.vids (t : Tpl) : List Nat := (List.range t.vlans).map (fun i => fieldBe t.data (14 + 4 * i) 2 % 4096)

/-- Templates of port `p`: those that its enabled contexts name. -/
def State.portTpls (s : State) (p : Nat) : List Tpl :=
  (s.ctxs.filter (fun e => e.2.en && e.2.port == p)).filterMap (fun e => mget? s.tpls e.2.template)

/-- Label entries up to the one with S = 1: offset behind it, its label and how many entries there are. -/
def mplsKey (n : Nat) (bs : List Byte) (o i : Nat) : Option (Nat × Nat × Nat) :=
  match n with
  | 0 => none
  | n + 1 =>
    let w := fieldBe bs o 4
    if w.testBit 8 then some (o + 4, w / 2 ^ 12, i + 1) else mplsKey n bs (o + 4) (i + 1)

/-- What a frame's headers say: a fragment to be discarded, no key, or an encapsulation with its key, label entries, offset of the
control word and end of the payload. -/
inductive PwKey where
  | frag | none | key (enc key labels off stop : Nat)
  deriving DecidableEq, Repr

/-- The encapsulation behind the EtherType at offset `o`. -/
def State.pwKey (s : State) (p : Nat) (bs : List Byte) (o : Nat) : PwKey :=
  let i := o + 2
  match fieldBe bs o 2 with
  | 0x88D8 => .key 0 (fieldBe bs i 4 / 2 ^ 12) 0 (i + 4) bs.length
  | 0x8847 =>
    match mplsKey 3 bs i 0 with
    | some (f, l, n) => .key 1 l n f bs.length
    | none => .none
  | 0x0800 =>
    let hdr := sliceBytes bs i 20
    let fr := fieldBe bs (i + 6) 2
    if (bs.getD i 0).toNat ≠ 0x45 ∨ fieldBe bs (i + 16) 4 ≠ s.rd R.ETH_IP4_ADDR p ∨ (bs.getD (i + 9) 0).toNat ≠ 17 ∨
        (sum16 hdr = 0 ∨ (sum16 hdr) % 65535 ≠ 0) then .none
    else if fr % 2 ^ 14 ≠ 0 then .frag
    else .key 2 (fieldBe bs (i + 22) 2) 0 (i + 28) (min bs.length (i + 20 + fieldBe bs (i + 24) 2))
  | 0x86DD =>
    let dst := (List.range 4).all (fun j => fieldBe bs (i + 24 + 4 * j) 4 == s.rd R.ETH_IP6_ADDR p j)
    if (bs.getD i 0).toNat / 16 ≠ 6 ∨ !dst ∨ (bs.getD (i + 6) 0).toNat ≠ 17 then .none
    else .key 3 (fieldBe bs (i + 42) 2) 0 (i + 48) (min bs.length (i + 40 + fieldBe bs (i + 44) 2))
  | _ => .none

/-- The enabled context of port `p` that a key names (R237). -/
def State.ctxFor (s : State) (p enc key labels : Nat) : Option Nat :=
  (s.ctxs.find? (fun e => e.2.en && s.ctxUp e.1 && e.2.port == p && e.2.enc == enc &&
    (if enc < 2 then e.2.rxKey == key else e.2.rxKey % 2 ^ 16 == key) &&
    (enc != 1 || (match mget? s.tpls e.2.template with
      | some t => t.labels == labels
      | none => false)))).map (·.1)

/-- A packet for context `n` whose control word lies at `o` and whose payload ends at `stop` (R238 items 5 and 6). -/
def State.pwPacket (s : State) (n : Nat) (bs : List Byte) (o stop : Nat) : State :=
  let c := s.ctx n
  let cw := fieldBe bs o 4
  let ts := fieldBe bs (o + 8) 4
  let len := bits cw 16 6
  let hdr := 4 + (if c.rtp then 12 else 0)
  let last := if len = 0 then stop else min stop (o + len)
  let pay := (bs.take last).drop (o + hdr)
  let want := c.p * c.unitLen
  if bits cw 28 4 ≠ 0 ∨ bits cw 22 2 ≠ 0 then s.pwDiscard
  else if pay.length = want ∧ o + hdr ≤ last then
    (s.pwReceive n (cw % 65536) ts ((List.range c.p).map (fun i => c.unitOf (sliceBytes pay (i * c.unitLen) c.unitLen)))
      (cw.testBit 27) (cw.testBit 26)).mirrorPwctx n
  else if cw.testBit 27 ∧ pay.isEmpty then
    (s.pwReceive n (cw % 65536) ts (List.replicate c.p (c.unitOf (List.replicate 32 0xFF))) true (cw.testBit 26)).mirrorPwctx n
  else s.pwDiscard

/-- MAC address of a port, as a number whose most significant byte is byte 0. -/
def State.macOf (s : State) (p : Nat) : Nat := s.rd R.ETH_MAC_HI_MAC p * 2 ^ 32 + s.rd R.ETH_MAC_LO_MAC p

/-- The destination address is accepted (R230). -/
def State.daOk (s : State) (p : Nat) (bs : List Byte) : Bool :=
  let da := fieldBe bs 0 6
  da == s.macOf p || da == 0xFFFFFFFFFFFF || ((bs.getD 0 0).getLsbD 0 && s.on R.ETH_CTL_MCAST p)

/-- A PAUSE frame for port `p`: sent to the address reserved for it or to the port's own (Annex 31B). -/
def State.isPause (s : State) (p : Nat) (bs : List Byte) : Bool :=
  (fieldBe bs 0 6 == 0x0180C2000001 || fieldBe bs 0 6 == s.macOf p) && fieldBe bs 12 2 == 0x8808 && fieldBe bs 14 2 == 1

/-- Where R238 sends a good frame that is no PAUSE: discarded and counted, to the host, or to context `n`, with the offset of its control
word and the end of its payload. -/
inductive RxDest where
  | discard | host | ctx (n o stop : Nat)
  deriving DecidableEq, Repr

/-- The checks of R238, in their order. -/
def State.rxDest (s : State) (p : Nat) (bs : List Byte) : RxDest :=
  let ids := vlanIds 3 bs 12
  if !s.daOk p bs then .discard
  else if !(s.portTpls p).any (fun t => t.vids == ids) then .host
  else
    match s.pwKey p bs (12 + 4 * ids.length) with
    | .none => .host
    | .frag => .discard
    | .key enc k labels o stop =>
      match s.ctxFor p enc k labels with
      | none => .host
      | some n => .ctx n o stop

/-- A frame leaves the receive queue for where it is bound. -/
def State.rxTake (s : State) (p : Nat) (x : EthRx × Nat) : State :=
  match s.rxDest p x.1.bytes with
  | .discard => s.pwDiscard
  | .host => s.toHost p x.1 x.2
  | .ctx n o stop => s.pwPacket n x.1.bytes o stop

/-- The head of the receive queue waits: it is for the host, whose ring is full (DESIGN CHOICE, log entry 99). -/
def State.rxWaits (s : State) (p : Nat) (x : EthRx × Nat) : Bool := s.rxDest p x.1.bytes == .host && s.ringFull p

/-- The receive queue of port `p` empties as far as it can, head first; `n` bounds the frames. -/
def State.rxDrain (n : Nat) (p : Nat) (s : State) : State :=
  match n with
  | 0 => s
  | n + 1 =>
    match (s.eth p).rxq with
    | [] => s
    | x :: r => if s.rxWaits p x then s else State.rxDrain n p ((s.setEth p { s.eth p with rxq := r }).rxTake p x)

/-- The receive queue takes a frame: 128 KiB and 512 entries; a full one discards it (R245). -/
def State.rxEnter (s : State) (p : Nat) (x : EthRx × Nat) : State :=
  let e := s.eth p
  if e.rxq.length < 512 ∧ (e.rxq.foldl (fun a y => a + y.1.bytes.length) 0) + x.1.bytes.length ≤ 131072 then
    State.rxDrain (e.rxq.length + 1) p (s.setEth p { e with rxq := e.rxq ++ [x] })
  else (s.count .eth p 5).raise .eth p 3

/-- A PAUSE frame is honoured: PAUSED for `q` quanta from now (R228). -/
def State.paused (s : State) (p q : Nat) : State :=
  ((s.setEth p { s.eth p with quanta := q }).mark (.pause p)).wrB R.ETH_STAT_PAUSED (q != 0) p

/-- A frame is received (R228, R238, R272). -/
def State.ethRx (s : State) (p : Nat) (f : EthRx) : State :=
  if !s.portRuns p || !s.on R.ETH_STAT_LINK p then s
  else
    let len := f.bytes.length + 4
    let s := (s.count .eth p 1).count .ntime 0 5
    if len < 64 ∨ s.rd R.ETH_CTL_MAX_LEN p < len then s.count .eth p 4
    else if !f.fcsOk then s.count .eth p 3
    else if s.isPause p f.bytes then
      let s := s.count .eth p 7
      if s.on R.ETH_CTL_PAUSE_RX p then s.paused p (fieldBe f.bytes 16 2) else s
    else s.rxEnter p (f, s.stampNs p false f.sfdAgo f.fecPos)

/-- ETH_FRAME_RX. -/
def execEthFrameRx (p : Fin 8) (f : EthRx) (s : State) : Host.Outcome State Fault Refusal := ok (s.start.ethRx p.val f)

/-! Sending (R274). -/

/-- Offset of the PTP message of a frame, with its carrier: 0 EtherType, 2 IPv4, 3 IPv6, and the offset of the UDP header. -/
def ptpAt (bs : List Byte) : Option (Nat × Nat × Nat) :=
  let n := (vlanIds 3 bs 12).length
  let i := 14 + 4 * n
  if 2 < n then none
  else
    match fieldBe bs (i - 2) 2 with
    | 0x88F7 => some (i, 0, 0)
    | 0x0800 =>
      let u := i + 4 * ((bs.getD i 0).toNat % 16)
      if (bs.getD (i + 9) 0).toNat = 17 ∧ fieldBe bs (u + 2) 2 = 319 then some (u + 8, 2, u) else none
    | 0x86DD => if (bs.getD (i + 6) 0).toNat = 17 ∧ fieldBe bs (i + 42) 2 = 319 then some (i + 48, 3, i + 40) else none
    | _ => none

/-- The message at `m` is a Sync with twoStepFlag = 0. -/
def isSync (bs : List Byte) (m : Nat) : Bool :=
  (bs.getD m 0).toNat % 16 == 0 && !(bs.getD (m + 6) 0).getLsbD 1 && decide (m + 44 ≤ bs.length)

/-- Two pad bytes at the end of a UDP datagram that keep its sum: `old` and `new` are the sums of the datagram before and after the
stamp, the pad taken as 0 in `new`. -/
def padBytes (old new len : Nat) : List Byte :=
  let w := (old + 65535 * (new / 65535 + 1) - new) % 65535
  if len % 2 = 0 then beBytes 2 w else leBytes 2 w

/-- A Sync sent one-step with its stamp written in; none where the frame does not meet the conditions (R274). -/
def oneStep (bs : List Byte) (m kind u ns : Nat) : Option (List Byte) :=
  let new := patchBytes bs (m + 34) (beBytes 6 (ns / 1000000000) ++ beBytes 4 (ns % 1000000000))
  match kind with
  | 0 => some new
  | 2 => some (patchBytes new (u + 6) [0, 0])
  | _ =>
    let ul := fieldBe bs (u + 4) 2
    if ul ≠ 8 + fieldBe bs (m + 2) 2 + 2 ∨ bs.length < u + ul then none
    else
      let z := patchBytes new (u + ul - 2) [0, 0]
      some (patchBytes z (u + ul - 2) (padBytes (sum16 (sliceBytes bs u ul)) (sum16 (sliceBytes z u ul)) ul))

/-- What a frame leaves as, and whether a one-step frame had to be sent two-step. -/
def State.txBytes (s : State) (p : Nat) (x : TxItem) (ns : Nat) : List Byte × Bool :=
  if !x.ctl.testBit 2 || !(s.rd R.NTIME_ONESTEP_EN).testBit p then (x.bytes, false)
  else
    match ptpAt x.bytes with
    | none => (x.bytes, false)
    | some (m, kind, u) =>
      if !isSync x.bytes m then (x.bytes, false)
      else
        match oneStep x.bytes m kind u ns with
        | some b => (b, false)
        | none => (x.bytes, true)

/-- The frame at the head of a transmit queue leaves. -/
def State.ethTx (s : State) (p : Nat) (ago : Nat) : State :=
  let e := s.eth p
  match e.txq with
  | [] => s
  | x :: r =>
    if !s.portRuns p || !s.on R.ETH_STAT_LINK p || s.on R.ETH_STAT_PAUSED p then s
    else
      let t := s.stampNs p true ago 0
      let b := s.txBytes p x t
      let s := ((s.setEth p { e with txq := r }).count .eth p 2).count .ntime 0 5
      (s.emit (.eth p b.1)).descDone p x (b2n b.2 * 128) (if x.ctl.testBit 2 then some t else none)

/-- ETH_FRAME_TX: the SFD passed the MAC `sfdAgo` × 2^-16 ns ago. -/
def execEthFrameTx (p : Fin 8) (sfdAgo : Nat) (s : State) : Host.Outcome State Fault Refusal := ok (s.start.ethTx p.val sfdAgo)

/-- ETH_LINK_CHANGE: the PCS gains or loses the link. -/
def execEthLinkChange (p : Fin 8) (up : Bool) (s : State) : Host.Outcome State Fault Refusal :=
  let s := s.start
  if !s.portRuns p || s.on R.ETH_STAT_LINK p == up then ok s
  else
    let s := (s.wrB R.ETH_STAT_LINK up p).wrB R.ETH_STAT_BLOCK_LOCK up p
    let s := s.wrB R.ETH_STAT_FEC_LOCK (up && (s.eth p).speed && (s.eth p).fec) p
    ok ((if up then s else s.wr R.ETH_STAT_PAUSED 0 p).raise .eth p 0)

/-- Control cycles of the pause time: quanta of 512 bit times, 20.48 ns at 25 Gbit/s and 51.2 ns at 10 (R228). -/
def EthPort.pauseTime (e : EthPort) : Nat := e.quanta * (if e.speed then 12288 else 30720) / 1000

/-- PAUSE_EXPIRE: the pause time has run out. -/
def execPauseExpire (p : Fin 8) (s : State) : Host.Outcome State Fault Refusal :=
  let s := s.start
  if !s.portRuns p || !s.ran (.pause p) (s.eth p).pauseTime then ok s else ok (s.wr R.ETH_STAT_PAUSED 0 p)

/-- ETH[p].EN is written: SPEED and FEC are taken when PORT_EN is set; a port that is disabled loses its link, and a ring that is
enabled is read from RD on. -/
def State.ethEnWrite (s : State) (p v : Nat) : State :=
  let was := s.on R.ETH_EN_PORT_EN p
  let htx := s.on R.ETH_EN_HTX_EN p
  let s := ((s.wr R.ETH_EN_PORT_EN v p).wr R.ETH_EN_HTX_EN (v / 2) p).wr R.ETH_EN_HRX_EN (v / 4) p
  let s := if v.testBit 1 && !htx then s.setEth p { s.eth p with next := s.rd R.ETH_HTX_PTR_RD p } else s
  if v.testBit 0 && !was then s.setEth p { s.eth p with speed := s.on R.ETH_CTL_SPEED p, fec := s.on R.ETH_CTL_FEC p }
  else if !v.testBit 0 && was then
    let s := { s with eths := mapUpd {} s.eths p (fun e => { e with txq := [], rxq := [], hold := none }) }
    let s := ((s.wr R.ETH_STAT_BLOCK_LOCK 0 p).wr R.ETH_STAT_FEC_LOCK 0 p).wr R.ETH_STAT_PAUSED 0 p
    if s.on R.ETH_STAT_LINK p then (s.wr R.ETH_STAT_LINK 0 p).raise .eth p 0 else s
  else State.rxDrain (s.eth p).rxq.length p s

end Sys2Proof.Machine
end

