-- ==== Sys2Proof/Machine/Mate.lean ====
section
/-! DEFINITION. The mate unit: the Dexgor lanes, the heartbeat, the mirror, switchover and the return to service (R286 to R308). -/
namespace Sys2Proof.Machine

/-- The mate unit works: its domain is usable. -/
def State.mateUp (s : State) : Bool := s.domUp 3

/-- DX_EN. -/
def State.dxEn (s : State) : Bool := s.mateUp && s.on R.MATE_CTL_DX_EN

/-- The heartbeat counts as lost (R293). -/
def State.hbLost (s : State) : Bool := s.on R.MATE_STAT_HB_LOST

/-- Byte `i` of the last received heartbeat (R292). -/
def State.hbByte (s : State) (i : Nat) : Nat := (s.mate.hb.getD i 0).toNat

/-- The mate unit changed by `f`. -/
def State.updMate (s : State) (f : Mate → Mate) : State := { s with mate := f s.mate }

/-! READY and the currency of the mirror (R298, R307). -/

/-- δ as PHASE shows it (R294). -/
def State.delta (s : State) : Int := toSigned 16 (s.rd R.MATE_PHASE_DELTA)

/-- Whether δ lies within 50 ns. -/
def State.aligned (s : State) : Bool := decide (-50 ≤ s.delta) && decide (s.delta ≤ 50)

/-- STANDBY_READY follows its conditions; the fourth step of R306 sets it ahead of the hinge that makes the unit STANDBY. -/
def State.readyFollow (s : State) : State :=
  let r := (s.mode == mSTANDBY || (s.mode == mISOLATE && s.rd R.MATE_STAT_RTS_STEP == 4)) && s.on R.MATE_STAT_MIR_CUR &&
    s.aligned && s.mate.sumOk
  if s.on R.MATE_STAT_READY = r then s
  else ((s.wrB R.MATE_STAT_READY r).setRaw .mate 0 6 r).raise .mate 0 6

/-- A pull starts (R298, R306). One that runs goes on. The mate is asked for it by a PULL_END record that carries the number of the pull
(DESIGN CHOICE, log entry 106). -/
def State.pullStart (s : State) : State :=
  if s.on R.MATE_STAT_PULL_BUSY then s
  else
    let s := ((s.wr R.MATE_STAT_PULL_BUSY 1).wr R.MATE_STAT_RTS_STEP 2).count .mate 0 7
    (s.updMate (fun m => { m with pullNo := m.pullNo + 1 })).mirrorSend 0xB s.absRow (beBytes 8 s.mate.pullNo)

/-- The mirror is no longer current (R298). -/
def State.dropCur (s : State) : State :=
  if !s.on R.MATE_STAT_MIR_CUR then s
  else
    let s := (s.wr R.MATE_STAT_MIR_CUR 0).readyFollow
    if s.mode = mSTANDBY ∧ s.on R.MATE_CTL_AUTO_RESYNC then s.pullStart else s

/-! FAULT (R300). -/

/-- The causes present and enabled, one bit each; the host's is always enabled. A watchdog recovery is present while WD_FIRED is set
(DEDUCED, log entry 32). -/
def State.faultCause (s : State) : Nat :=
  let en := s.rd R.MATE_FAULT_EN_EN
  let train := s.on R.DRAMC_STAT_TRAIN_FAIL 0 || s.on R.DRAMC_STAT_TRAIN_FAIL 1
  ((b2n s.loFail + 2 * b2n train + 4 * b2n (s.on R.SEQ_STAT_WD_FIRED)) &&& en) + 8 * b2n (s.on R.MATE_CTL_FAULT)

/-- FAULT: set by the primary, and by a standby, whose own FAULT keeps it from taking over (R300, R301; DEDUCED, log entry 103). -/
def State.faultSet (s : State) : Bool := (s.mode == mPRIMARY || s.mode == mSTANDBY) && s.faultCause != 0

/-- FAULT_WRITE. -/
def execFaultWrite (f : Bool) (s : State) : Host.Outcome State Fault Refusal :=
  let s := s.start
  if s.served .mate 0 then ok (s.wrB R.MATE_CTL_FAULT f) else ok s

/-! Serving a pull (R306). -/

/-- BODY of a PULL record (R295): fabric [63], bank [62], word index [61:40], word [25:0]. -/
def pullBody (slot edit : Bool) (w v : Nat) : List Byte :=
  beBytes 8 (b2n slot * 2 ^ 63 + b2n edit * 2 ^ 62 + w % 2 ^ 22 * 2 ^ 40 + v % 2 ^ 26)

/-- Words of a bank, in the order of its image (R178). -/
def bankWords : Nat := 16 * imageBursts

/-- What follows the words in a pull: SEL, GRP, EQCFG, PWCFG and PWCTX of every configured item, as type and body. -/
def State.serveTail (s : State) : List (Nat × List Byte) :=
  s.sels.map (fun e => (3, beBytes 8 (e.1 * 2 ^ 44 + e.2.mirror 20))) ++
  s.groups.map (fun e => (4, beBytes 8 (e.1 * 2 ^ 56 + (s.grpAsk e.1).mirror 32))) ++
  s.eqs.map (fun e => (5, beBytes 8 (e.1 * 2 ^ 32 + e.2.cfg))) ++
  s.tpls.flatMap (fun e => (e.2.cfgBodies e.1 true).map (fun b => (6, b))) ++
  s.ctxs.flatMap (fun e => (e.2.cfgBodies e.1).map (fun b => (6, b))) ++
  (s.ctxs.filter (fun e => e.2.en)).map (fun e => (7, beBytes 8 (e.2.mirror e.1)))

/-- Item `i` of a pull: the words of the active bank, then of the edit bank, then the configured items. -/
def State.serveItem (s : State) (i : Nat) : Option (Nat × List Byte) :=
  if i < 2 * bankWords then
    let edit := decide (bankWords ≤ i)
    let k := rankWord (i % bankWords)
    some (0xA, pullBody (decide (2 ^ 22 ≤ k)) edit (k % 2 ^ 22) ((s.bank edit).word k % 2 ^ 26))
  else s.serveTail[i - 2 * bankWords]?

/-- The next record of a pull that this unit serves; behind the last item goes PULL_END, and the edit sums are computed for the comparison
that follows (R306). -/
def State.serveStep (s : State) : State :=
  match s.mate.serve with
  | none => s
  | some i =>
    match s.serveItem i with
    | some x => (s.updMate (fun m => { m with serve := some (i + 1) })).mirrorSend x.1 (36 * (s.frame + 1)) x.2
    | none => ((s.updMate (fun m => { m with serve := none })).mirrorSend 0xB s.absRow (beBytes 8 s.mate.serveNo)).sumEditing

/-- A frame's room behind the live records is filled with the pull that this unit serves. -/
def State.serveFill (s : State) : State :=
  if s.mode ≠ mPRIMARY ∨ s.mate.serve.isNone then s
  else (List.range (9216 - s.mate.txq.length)).foldl (fun (s : State) _ => s.serveStep) s

/-! The Dexgor lanes (R289, R290). -/

/-- The equalisation record of Dexgor lane `l`. -/
def State.dxRecord (s : State) (l : Nat) : List Byte := (List.range 4).flatMap (fun w => leBytes 4 (s.rd R.MATE_DXEQ_BYTES 0 (4 * l + w)))

/-- DX_EN = 1 is written. -/
def State.dxEnable (s : State) : State :=
  if (List.range 2).all (fun l => recordOk (s.dxRecord l) && recordValid (s.dxRecord l)) then s.wr R.MATE_CTL_DX_EN 1
  else s.wr R.MATE_STAT_DX_REFUSED 1

/-- DX_ENABLE. -/
def execDxEnable (s : State) : Host.Outcome State Fault Refusal :=
  let s := s.start
  if s.served .mate 0 then ok s.dxEnable else ok s

/-- The receiver of Dexgor lane `l` is in SYNC. -/
def State.dxSync (s : State) (l : Nat) : Bool := (s.dxRx l).sync

/-- TX_INV and RX_INV of Dexgor lane `l` (R55, R290). -/
def State.dxTxInv (s : State) (l : Nat) : Bool := (recByte (s.dxRecord l) 0).testBit 0
def State.dxRxInv (s : State) (l : Nat) : Bool := (recByte (s.dxRecord l) 0).testBit 1

/-- The FAS that ends a frame received on a Dexgor lane: 4 errored ones in a row end SYNC (R85 with M = 4, R289). -/
def dxFas (r : DxRx) (errored : Bool) : DxRx :=
  if !errored then { r with errFas := 0 }
  else if 4 ≤ r.errFas + 1 then { r with sync := false, cands := [], errFas := 0 }
  else { r with errFas := r.errFas + 1 }

/-- LANE_FRAME_RX on a Dexgor lane in SYNC: alignment. The heartbeat and the records that the frame carries come as commands of their
own. Too few bits make no frame. -/
def State.laneRxDexgor (s : State) (l : Nat) (f : RxFrame) : Option State :=
  if !s.dxEn || !s.dxSync l then some s
  else
    match lineFrame 2 (polarity (s.dxRxInv l) f.bits) with
    | none => none
    | some x => some (s.setDxRx l (dxFas (s.dxRx l) x.errored))

/-- LO11 (R292). -/
def State.hbFlags (s : State) : Nat :=
  b2n (s.on R.MATE_STAT_CLAIM_OWN) * 128 + b2n (s.on R.MATE_STAT_READY) * 64 + b2n (s.on R.MATE_STAT_MIR_CUR) * 32 +
  b2n s.faultSet * 16 + b2n s.pow.gaspOut * 8 + b2n s.mate.swap * 4 + b2n (s.on R.MAPC_COMMIT_STAT_SUM_VALID) * 2

/-- The overhead of a Dexgor frame (R292); `bip` is the BIP-16 of the lane's last frame. -/
def State.hbOverhead (s : State) (bip : Nat) : List Byte :=
  let b := beBytes 5 s.epoch ++ [0] ++ beBytes 2 bip ++
    [0, BitVec.ofNat 8 s.unitByte, BitVec.ofNat 8 s.mate.hbSeq, BitVec.ofNat 8 s.hbFlags,
     BitVec.ofNat 8 (b2n (s.dxSync 0) + 2 * b2n (s.dxSync 1)), BitVec.ofNat 8 (if s.faultSet then s.faultCause else 0)] ++
    beBytes 4 s.mate.lag ++ beBytes 4 (s.rd R.MAPC_ACT_DSUM_SUM) ++ beBytes 4 (s.rd R.MAPC_ACT_SSUM_SUM) ++
    beBytes 5 (s.rd R.MAPC_LAST_EPOCH_EPOCH) ++ List.replicate 23 0
  b ++ beBytes 2 (crc16 (bytesToBits b))

/-- The mate's last heartbeat is valid now and shows it STANDBY and READY (R301). -/
def State.mateReady (s : State) : Bool := !s.hbLost && s.hbByte 9 % 8 == mSTANDBY && bit (s.hbByte 11) 6

/-- A change to role `m` is decided now: it takes effect at the first hinge that follows by at least 512 control cycles (R301). -/
def State.setRole (s : State) (m : Nat) : State :=
  s.updMate (fun x => { x with role := some (m, if s.cyc ≤ 74488 then s.frame + 1 else s.frame + 2) })

/-- A change to role `m` is due at the present hinge. -/
def State.roleNow (s : State) (m : Nat) : State := s.updMate (fun x => { x with role := some (m, s.frame) })

/-- An overhead that asks for an exchange has been built: the sender of SWAP, or of a FAULT that a READY mate free of fault
receives, becomes STANDBY at the next hinge (R301). -/
def State.exchange (s : State) : State :=
  if s.mode = mPRIMARY ∧ (s.mate.swap ∨ (s.faultSet ∧ s.mateReady ∧ !bit (s.hbByte 11) 4)) then
    s.setRole mSTANDBY
  else s

/-- Records that fill one Dexgor frame, empty ones at the end (R295): 9,216 of 16 bytes. -/
def dxPayload (rs : List (List Byte)) : List Byte := sliceBytes (rs.take 9216).flatten 0 147456

/-- What the transmitter pins of a Dexgor lane do (R65, R289). -/
def State.dxDrive (s : State) : Drive :=
  if s.pow.phase = .unpowered ∨ !s.pow.on.getLsbD 3 then .undriven
  else if s.pow.phase = .resetN ∨ !s.dxEn ∨ !s.dx.pll ∨ s.dx.refRange then .common
  else .frames

/-- FRAME_TICK on a Dexgor lane: the frame being sent is closed with the records that wait, if the mate's receiver of the lane is in
SYNC (R298), and the next one starts with the heartbeat. -/
def State.frameTickDexgor (s : State) (l : Nat) (bits : Nat) : State :=
  if s.dxDrive ≠ .frames then
    (s.updMate (fun m => if l = 0 then { m with oh0 := none } else { m with oh1 := none })).emit (.laneIdle (.dexgor (Fin.ofNat 2 l)) s.dxDrive)
  else
    let old := if l = 0 then s.mate.oh0 else s.mate.oh1
    let s := match old with
      | none => s
      | some lo =>
        let sends := bit (s.hbByte 12) l && !s.hbLost
        let s := if sends then s.serveFill else s
        let region := scramble scrInit (bytesToBits (lo ++ dxPayload (if sends then s.mate.txq else [])))
        let n := 64 + region.length + stuffCount false 0 region
        let bip := bip16 0 0 region
        let s := s.updMate (fun m => { m with
          txq := if sends then m.txq.drop 9216 else m.txq,
          bipTx0 := if l = 0 then bip else m.bipTx0,
          bipTx1 := if l = 0 then m.bipTx1 else bip })
        s.emit (.lane (.dexgor (Fin.ofNat 2 l)) fasWord (stuff false 0 region) (bits - n) (s.dxTxInv l))
    let oh := s.hbOverhead (if l = 0 then s.mate.bipTx0 else s.mate.bipTx1)
    (s.updMate (fun m => if l = 0 then { m with oh0 := some oh } else { m with oh1 := some oh })).exchange

/-- FRAME_TICK. -/
def execFrameTick (l : LaneId) (bits : Nat) (s : State) : Host.Outcome State Fault Refusal :=
  match l with
  | .horale n => ok (s.start.frameTickHorale n.val bits)
  | .dexgor l => ok (s.start.frameTickDexgor l.val bits)

/-- A frame at the receiver of a lane. -/
def State.laneRx (s : State) (l : LaneId) (f : RxFrame) : Option State :=
  match l with
  | .horale n => s.laneRxHorale n.val f
  | .dexgor l => s.laneRxDexgor l.val f

/-- LANE_FRAME_RX. A region that does not hold the bits of a frame at the lane's rate is no frame: no such event can occur, and
nothing changes (log entry 2). -/
def execLaneFrameRx (l : LaneId) (f : RxFrame) (s : State) : Host.Outcome State Fault Refusal :=
  ok ((s.start.laneRx l f).getD s.start)

/-! The heartbeat (R292 to R294, R299). -/

/-- Whether a heartbeat may be received now: in SYNC, before core row 18, with HB_CRC correct and a SIDE that differs from the
receiver's own (R293). -/
def State.hbGood (s : State) (l : Nat) (lo : List Byte) : Bool :=
  s.dxEn && s.dxSync l && decide (s.row < 18) && crc16 (bytesToBits (lo.take 54)) == ofBe (lo.drop 54) &&
  (lo.getD 9 0).getLsbD 7 != s.on R.GLOBAL_STRAP_SIDE

/-- The mode and the unit bits of the heartbeat held before (R75). -/
def unitMode (u : Nat) : Nat := u % 8

/-- Sums are compared once for each commit (R299). -/
def State.hbSums (s : State) : State :=
  let lo := s.mate.hb
  let e := ofBe (sliceBytes lo 26 5)
  if !bit (s.hbByte 11) 1 || !s.on R.MAPC_COMMIT_STAT_SUM_VALID || e != s.rd R.MAPC_LAST_EPOCH_EPOCH || s.mate.sumEpoch == some e ||
     !(s.mode == mSTANDBY || s.mode == mPRIMARY) then s
  else
    let same := ofBe (sliceBytes lo 18 4) == s.rd R.MAPC_ACT_DSUM_SUM && ofBe (sliceBytes lo 22 4) == s.rd R.MAPC_ACT_SSUM_SUM
    let s := s.updMate (fun m => { m with sumEpoch := some e, sumOk := same })
    if same then s
    else
      let s := (s.wr R.MATE_STAT_SUM_MM 1).raise .mate 0 4
      if s.mode = mSTANDBY then s.dropCur else s

/-- What a heartbeat decides in STANDBY (R301). `old` is the unit byte of the heartbeat received before it. -/
def State.hbDecide (s : State) (old : Nat) : State :=
  let u := s.hbByte 9
  let f := s.hbByte 11
  if s.mode = mSTANDBY then
    let swap := bit f 2
    let fault := bit f 4 && !s.faultSet && s.on R.MATE_STAT_READY
    let gone := bit u 5 && bit old 6
    if swap || fault || gone then s.setRole mPRIMARY else s
  else s

/-- A heartbeat, counted as received again or not, shows that both units entered PRIMARY at the hinge that began this frame: the side B unit
enters ISOLATE (R288). -/
def State.hbTwin (s : State) (old : Nat) : State :=
  if s.mode = mPRIMARY ∧ s.mate.entered = some s.frame ∧ unitMode (s.hbByte 9) = mPRIMARY ∧ unitMode old ≠ mPRIMARY ∧
      s.on R.GLOBAL_STRAP_SIDE then s.setRole mISOLATE
  else s

/-- The heartbeat is back after 8 received frames in a row (R293, R304). -/
def State.hbBack (s : State) : State :=
  if s.hbLost && decide (8 ≤ s.mate.hbRun) then
    ((((s.wr R.MATE_STAT_HB_LOST 0).wr R.MATE_STAT_ORPHAN 0).setRaw .mate 0 0 false).setRaw .mate 0 3 false).raise .mate 0 1
  else s

/-- The lag measured on DX0, with δ and the link delay it gives (R292, R294). -/
def State.hbLag (s : State) (lag : Nat) : State :=
  let far := ofBe (sliceBytes s.mate.hb 14 4)
  let s := s.updMate (fun m => { m with lag := lag })
  let d : Int := ((lag : Int) - (far : Int)) / 2
  (s.wr R.MATE_PHASE_DELTA (ofSigned 16 (clampInt (-32768) 32767 d))).wr R.MATE_LINK_DELAY_NS (min ((lag + far) / 2) (2 ^ 20 - 1))

/-- A good heartbeat arrives. -/
def State.hbTake (s : State) (l : Nat) (lo : List Byte) (lag : Nat) : State :=
  let old := s.hbByte 9
  let first := !s.mate.hbNow
  let s := s.updMate (fun m => { m with hb := lo, hbNow := true, hbMiss := 0, hbRun := if first then m.hbRun + 1 else m.hbRun })
  let s := ((s.wr R.MATE_MATE_HB_UNIT (s.hbByte 9)).wr R.MATE_MATE_HB_HB_SEQ (s.hbByte 10)).wr R.MATE_MATE_HB_FLAGS (s.hbByte 11)
  let s := if l = 0 then s.hbLag lag else s
  let s := s.hbBack
  let s := if first then s.hbTwin old else s
  if s.hbLost || !first then s.readyFollow else (s.hbSums.hbDecide old).readyFollow

/-- HEARTBEAT_RX. -/
def execHeartbeatRx (l : Fin 2) (lo : List Byte) (lag : Nat) (s : State) : Host.Outcome State Fault Refusal :=
  let s := s.start
  if lo.length ≠ 56 then .fault .illFormed
  else if s.hbGood l.val lo then ok (s.hbTake l.val lo lag) else ok s

/-- The heartbeat is lost (R293): reported, and recorded as a recovery, when it had been received. -/
def State.hbLose (s : State) : State :=
  if s.hbLost then s
  else (((s.wr R.MATE_STAT_HB_LOST 1).setRaw .mate 0 0 true).raise .mate 0 0).recover 11 0

/-- HB_FRAME_MISSED: the frame's heartbeat has not come by core row 18. -/
def execHbFrameMissed (s : State) : Host.Outcome State Fault Refusal :=
  let s := s.start
  if !s.dxEn || s.mate.hbNow || decide (s.row < 18) then ok s
  else
    let n := s.mate.hbMiss + 1
    let s := (s.updMate (fun m => { m with hbNow := true, hbMiss := n, hbRun := 0 })).count .mate 0 1
    if s.rd R.MATE_CTL_HB_MISS ≤ n then ok s.hbLose else ok s

/-! Records (R295 to R298). -/

/-- The body of a record as a number, its RSEQ and its RELEASE. -/
def recBody (r : List Byte) : Nat := ofBe (sliceBytes r 6 8)
def recSeq (r : List Byte) : Nat := ofBe (sliceBytes r 2 2)

/-- The frame that a record's label names: the one nearest to the present (R295). -/
def State.recFrame (s : State) (r : List Byte) : Nat :=
  let d : Int := (((r.getD 4 0).toNat + 256 - s.epoch % 256 + 128) % 256 : Nat) - 128
  ((s.frame : Int) + d).toNat

/-- The core row from reset at whose start a record is taken. -/
def State.recRow (s : State) (r : List Byte) : Nat := 36 * s.recFrame r + (r.getD 5 0).toNat

/-- The start of core row `row` has been reached: `row` × 75,000 / 36 control cycles (R20, R21). -/
def State.rowReached (s : State) (row : Nat) : Bool := decide (row * 75000 ≤ s.now * 36)

/-- The start of core row `row` has passed. -/
def State.rowPassed (s : State) (row : Nat) : Bool := decide (row * 75000 < s.now * 36)

/-- A record arrives on a lane in SYNC: RCRC and RSEQ are checked (R298). The state, and whether the record is whole. -/
def State.recCheck (s : State) (l : Nat) (r : List Byte) : State × Bool :=
  if !s.dxEn || !s.dxSync l then (s, false)
  else if crc16 (bytesToBits (r.take 14)) ≠ ofBe (r.drop 14) then ((s.count .mate 0 3).dropCur, false)
  else
    let q := recSeq r
    let skip := match s.mate.rxSeq with
      | none => false
      | some e => e != q
    let s := s.updMate (fun m => { m with rxSeq := some ((q + 1) % 65536) })
    (if skip then (s.count .mate 0 3).dropCur else s, true)

/-- A whole record of type `type` arrives; `f` does what it does. A list that is no record of that type is ill-formed. -/
def State.recCome (s : State) (type l : Nat) (r : List Byte) (f : State → State) : Host.Outcome State Fault Refusal :=
  if r.length ≠ 16 ∨ (r.getD 0 0).toNat ≠ type then .fault .illFormed
  else
    let t := s.recCheck l r
    if t.2 then ok (f t.1) else ok t.1

/-- A record that only a unit following the mirror applies. -/
def State.recTake (s : State) (type l : Nat) (r : List Byte) (f : State → State) : Host.Outcome State Fault Refusal :=
  s.recCome type l r (fun s => if s.takesMirror then f s else s)

/-- A REQ or COMMIT record waits for its RELEASE; one that arrives after it is late, and is taken at once (R296, R298). -/
def State.recHold (s : State) (r : List Byte) (k : HeldKind) : State :=
  let row := s.recRow r
  let s := if s.rowPassed row then ((s.raise .mate 0 5).count .mate 0 4).dropCur else s
  s.updMate (fun m => { m with held := m.held ++ [⟨row, false, k⟩] })

/-- What a COMMIT body asks for. -/
def commitOf (b : Nat) : HeldKind := .commit (bit b 63) (bit b 62) (bit b 61) (bit b 60) (bits b 0 40)

/-- MIR_REQ. -/
def execMirReq (l : Fin 2) (r : List Byte) (s : State) : Host.Outcome State Fault Refusal :=
  s.start.recTake 1 l.val r (fun s => s.recHold r (.req (BitVec.ofNat 64 (recBody r)) true false))

/-- MIR_COMMIT. -/
def execMirCommit (l : Fin 2) (r : List Byte) (s : State) : Host.Outcome State Fault Refusal :=
  s.start.recTake 2 l.val r (fun s => s.recHold r (commitOf (recBody r)))

/-- A held record is taken by the compiler at its RELEASE, whatever the role has become (R296): this unit's own commit is pending already,
one received becomes so. -/
def State.heldTake (s : State) (h : Held) : State :=
  match h.kind with
  | .req w auth list => s.enqueue { word := w, auth := auth, list := list }
  | .commit now arm drop cancel e =>
    if cancel then s.commitCancel
    else if h.own then
      { s with mc := { s.mc with commit := s.mc.commit.map (fun c : Commit => { c with held := false, ahead := s.mc.queue.length }) } }
    else if !now && !arm || s.mc.commit.isSome then s
    else s.commitPend (if now then .now else .arm e drop) false

/-- MIR_RELEASE: the first held record whose RELEASE has come. -/
def execMirRelease (s : State) : Host.Outcome State Fault Refusal :=
  let s := s.start
  match s.mate.held.find? (fun h => s.rowReached h.row) with
  | none => ok s
  | some h => ok ((s.updMate (fun m => { m with held := m.held.erase h })).heldTake h)

/-- A state record waits for the hinge it names; one that reaches the unit after it is applied at the next (R297). -/
def State.recDue (s : State) (r : List Byte) : State :=
  let f := s.recFrame r
  let late := decide (f ≤ s.frame)
  let s := if late then s.count .mate 0 5 else s
  s.updMate (fun m => { m with due := m.due ++ [(if late then s.frame + 1 else f, r)] })

/-- MIR_SEL, MIR_GRP, MIR_EQCFG, MIR_PWCFG, MIR_PWCTX, MIR_TIMING and MIR_TIME. -/
def execMirSel (l : Fin 2) (r : List Byte) (s : State) : Host.Outcome State Fault Refusal :=
  s.start.recTake 3 l.val r (fun s => s.recDue r)
def execMirGrp (l : Fin 2) (r : List Byte) (s : State) : Host.Outcome State Fault Refusal :=
  s.start.recTake 4 l.val r (fun s => s.recDue r)
def execMirEqcfg (l : Fin 2) (r : List Byte) (s : State) : Host.Outcome State Fault Refusal :=
  s.start.recTake 5 l.val r (fun s => s.recDue r)
def execMirPwcfg (l : Fin 2) (r : List Byte) (s : State) : Host.Outcome State Fault Refusal :=
  s.start.recTake 6 l.val r (fun s => s.recDue r)
def execMirPwctx (l : Fin 2) (r : List Byte) (s : State) : Host.Outcome State Fault Refusal :=
  s.start.recTake 7 l.val r (fun s => s.recDue r)
def execMirTiming (l : Fin 2) (r : List Byte) (s : State) : Host.Outcome State Fault Refusal :=
  s.start.recTake 8 l.val r (fun s => s.recDue r)
def execMirTime (l : Fin 2) (r : List Byte) (s : State) : Host.Outcome State Fault Refusal :=
  s.start.recTake 9 l.val r (fun s => s.recDue r)

/-- A pulled word is written (R306, R178); the bank has no current sum any more (R177). -/
def State.pullWord (s : State) (b : Nat) : State :=
  if !s.on R.MATE_STAT_PULL_BUSY then s
  else
    let edit := bit b 62
    (s.setBank edit ((s.bank edit).put (b2n (bit b 63) * 2 ^ 22 + bits b 40 22) (bits b 0 26))).sumStale edit

/-- MIR_PULL. -/
def execMirPull (l : Fin 2) (r : List Byte) (s : State) : Host.Outcome State Fault Refusal :=
  s.start.recTake 0xA l.val r (fun s => s.pullWord (recBody r))

/-- PULL_END is received: in PRIMARY it asks for a pull, which this unit serves from its first word on (log entry 106); where the mirror is
followed the pull ends and verification begins (R306). -/
def State.pullEnd (s : State) (no : Nat) : State :=
  if s.mode = mPRIMARY then (if s.mc.inited then s.updMate (fun m => { m with serve := some 0, serveNo := no }) else s)
  else if s.takesMirror ∧ s.on R.MATE_STAT_PULL_BUSY then (s.wr R.MATE_STAT_PULL_BUSY 0).wr R.MATE_STAT_RTS_STEP 3
  else s

/-- MIR_PULL_END. -/
def execMirPullEnd (l : Fin 2) (r : List Byte) (s : State) : Host.Outcome State Fault Refusal :=
  s.start.recCome 0xB l.val r (fun s => s.pullEnd (recBody r))

/-! State records applied at a hinge (R203, R295). -/

/-- A side's hold-off counts as served: the primary holds its request (R203). -/
def SideCond.served (c : SideCond) (b : Bool) : SideCond := if b ∧ c.cond ≠ 0 then { c with done := true } else c

/-- The frames from the hinge labelled `began` (modulo 256) to the one before the present hinge, whose label is `now` (R295). -/
def labelRan (now began : Nat) : Nat := (now + 256 - began) % 256 - 1

/-- A side's hold-off that runs is as old as the mirrored label says (R203). -/
def SideCond.since (c : SideCond) (ran : Nat) : SideCond := if c.holds then { c with ran := ran } else c

/-- A hold-off and a wait-to-restore that the mirror says to have started at other hinges than `old` knew are as old as the mirrored
labels say (R203, R295); the wait-to-restore also where `old` had none. -/
def Sel.mirrorTimers (u old : Sel) (now : Nat) : Sel :=
  let h (c : SideCond) : SideCond := if u.holdAt = old.holdAt then c else c.since (labelRan now u.holdAt)
  { u with w := h u.w, p := h u.p,
           wtrRan := if old.wtr ∧ u.wtrAt = old.wtrAt then old.wtrRan else labelRan now u.wtrAt }

/-- A mirrored selector or group: its request, held command and labels; a wait-to-restore runs exactly under the request WTR; a
side that differs moves. Under a mirrored SF or SD the hold-off of the failing side has run: it is the working one where protect is
selected, else the protect one (DEDUCED, log entry 100). -/
def Sel.mirrored (u : Sel) (b cfgBits now : Nat) : Sel :=
  let prot := bit b (cfgBits + 23)
  let req := bits b (cfgBits + 19) 4
  let fails := req == rqSF || req == rqSD
  let v : Sel :=
  { u with req := req, cmd := bits b (cfgBits + 16) 3, cmdDue := none, wtr := req == rqWTR, wtrDue := false,
           fault := prot && fails, holdAt := bits b 8 8, wtrAt := bits b 0 8,
           w := u.w.served (fails && prot), p := u.p.served (fails && !prot),
           move := if prot = u.prot then none else some prot }
  v.mirrorTimers u now

/-- A SEL record is applied. One that clears EN waits for the selector's own turn at this hinge, where its move is reported in the
order of R25. -/
def State.applySel (s : State) (b : Nat) : State :=
  let a := b / 2 ^ 44 % 2 ^ 20
  let w := bits b 16 20
  let u := s.sel a
  if !(selPar w).en then s.setSel a (if (selPar u.cfg).en then { u with cfgDue := some w } else u.fresh w)
  else s.setSel a ((if (selPar u.cfg).en then { u with cfg := w, cfgDue := none } else u.fresh w).mirrored b 20 (s.epoch % 256))

/-- A GRP record is applied. -/
def State.applyGrp (s : State) (b : Nat) : State :=
  let g := b / 2 ^ 56 % 32
  let w := bits b 16 32
  let s := ((s.wr R.PROT_G_CFG_WTR (w / 2 ^ 22) 0 g).wr R.PROT_G_CFG_HOLDOFF (w / 2 ^ 15) 0 g).wr R.PROT_G_CFG_P_LANE (grpP w) 0 g
  let s := ((s.wr R.PROT_G_CFG_W_LANE (grpW w) 0 g).wr R.PROT_G_CFG_REVERT (w / 4) 0 g).wr R.PROT_G_CFG_DUAL (w / 2) 0 g
  let s := (s.wr R.PROT_G_CFG_EN w 0 g).grpCfg g
  s.setGrp g ((s.grp g).mirrored b 32 (s.epoch % 256))

/-- An EQCFG record is applied. -/
def State.applyEqcfg (s : State) (b : Nat) : State :=
  let q := b / 2 ^ 32 % 65536
  let w := b % 2 ^ 32
  let g := s.eqg q
  let g := if eqOut g.cfg = eqOut w then g else g.restart eqOFF 0
  s.setEq q { g with cfg := w }

/-- A PWCFG record is applied: C_CFG0 comes last and puts the settings into use, as T_CTL does for a template. -/
def State.applyPwcfg (s : State) (b : Nat) : State :=
  let i := bits b 48 15
  let reg := bits b 32 16
  let v := b % 2 ^ 32
  if bit b 63 then
    let t := (mget? s.tpls i).getD (tplOf [])
    if reg = 0x148 then
      if v.testBit 7 then { s with tpls := mput s.tpls i { t with labels := bits v 4 3, vlans := bits v 2 2, enc := bits v 0 2 } }
      else { s with tpls := mdel s.tpls i }
    else { s with tpls := mput s.tpls i { t with data := patchBytes (sliceBytes t.data 0 96) (reg - 0x200) (leBytes 4 v) } }
  else
    let c := s.ctx i
    match reg with
    | 0 => s.ctxSet i { c with c0 := v }
    | 1 => s.setCtx i { c with c1 := v }
    | 2 => s.setCtx i { c with c2 := v }
    | 3 => s.setCtx i { c with c3 := v }
    | _ => s.setCtx i { c with c4 := v }

/-- A PWCTX record is applied to an enabled context. -/
def State.applyPwctx (s : State) (b : Nat) : State :=
  let n := bits b 50 14
  let c := s.ctx n
  if !c.en then s
  else s.setCtx n { c with st := bits b 48 2, seq := bits b 32 16, play := if bits b 48 2 = xRUN then some (b % 2 ^ 32) else c.play }

/-- BODY of the two TIMING records (R295): [63] 0 with the selected reference, the DPLL's offset and the holdover average; [63] 1 with
the servo's state, F and S. -/
def timBodyA (sel : Nat) (dpll hold : Int) : List Byte := beBytes 8 (sel % 16 * 2 ^ 40 + ofSigned 20 dpll * 2 ^ 20 + ofSigned 20 hold)
def timBodyB (servo : Nat) (f sl : Int) : List Byte :=
  beBytes 8 (2 ^ 63 + servo % 4 * 2 ^ 40 + ofSigned 20 f * 2 ^ 20 + ofSigned 20 sl)

/-- A TIMING record is applied: it is held for a role change. -/
def State.applyTiming (s : State) (b : Nat) : State :=
  let t := s.mate.tim.getD (15, 0, 0, 0, 0, 0)
  let x := toSigned 20 (bits b 20 20)
  let y := toSigned 20 (bits b 0 20)
  let t' := if bit b 63 then (t.1, t.2.1, t.2.2.1, bits b 40 2, x, y) else (bits b 40 4, x, y, t.2.2.2)
  s.updMate (fun m => { m with tim := some t' })

/-- BODY of the two TIME records: [63] 0 with the seconds, [63] 1 with the nanoseconds. -/
def timeBodyA (t : Nat) : List Byte := beBytes 8 (ntSeconds t % 2 ^ 48)
def timeBodyB (t : Nat) : List Byte := beBytes 8 (2 ^ 63 + ntNanos t)

/-- A TIME record is applied: the second part sets the clock at the hinge. -/
def State.applyTime (s : State) (b : Nat) : State :=
  if bit b 63 then s.setTime (s.mate.timSec * ntSec + bits b 0 30 * ntNs) else s.updMate (fun m => { m with timSec := bits b 0 48 })

/-- A state record is applied. -/
def State.applyRec (s : State) (r : List Byte) : State :=
  let b := recBody r
  match (r.getD 0 0).toNat with
  | 3 => s.applySel b
  | 4 => s.applyGrp b
  | 5 => s.applyEqcfg b
  | 6 => s.applyPwcfg b
  | 7 => s.applyPwctx b
  | 8 => s.applyTiming b
  | 9 => s.applyTime b
  | _ => s

/-- The state records of the hinge that begins the present frame. -/
def State.applyDue (s : State) : State :=
  let now := s.mate.due.filter (fun x => decide (x.1 ≤ s.frame))
  let s := s.updMate (fun m => { m with due := m.due.filter (fun x => !decide (x.1 ≤ s.frame)) })
  now.foldl (fun s x => s.applyRec x.2) s

/-- TIMING and TIME, which a primary sends once per frame, for the next hinge (R297; log entry 105). The clock there is reckoned from the
present one, F and S. -/
def State.mirrorFrame (s : State) : State :=
  if s.mode ≠ mPRIMARY ∨ !s.mateListens then s
  else
    let row := 36 * (s.frame + 1)
    let s := s.mirrorSend 8 row (timBodyA (s.rd R.TIMING_DPLL_STAT_SELECTED) (toSigned 20 (s.rd R.TIMING_DPLL_FREQ_OFF))
      (meanInt ((s.tm.hist.drop 10).take (10 * s.rd R.TIMING_HO_AVG_AVG))))
    let s := s.mirrorSend 8 row (timBodyB s.servo s.nt.f s.nt.s)
    let t := (s.nt.base + ntElapsed ((s.frame + 1) * 75000 - s.nt.mark) s.nt.f s.nt.s) % ntRange
    (s.mirrorSend 9 row (timeBodyA t)).mirrorSend 9 row (timeBodyB t)

/-! Switchover (R301 to R304). -/

/-- CTL.SWAP on the primary. -/
def State.swapAsk (s : State) : State :=
  if s.mode ≠ mPRIMARY then s
  else if s.mateReady then s.updMate (fun m => { m with swap := true })
  else s.wr R.MATE_STAT_SWAP_REFUSED 1

/-- SWAP. -/
def execSwap (s : State) : Host.Outcome State Fault Refusal :=
  let s := s.start
  if s.served .mate 0 then ok s.swapAsk else ok s

/-- CLAIM_BOTH follows the two CLAIMs. -/
def State.claimFollow (s : State) : State :=
  let both := s.on R.MATE_STAT_CLAIM_OWN && s.on R.MATE_STAT_CLAIM_MATE
  let was := (s.rd (R.HDR_EVT_RAW_RAW .mate)).testBit 10
  let s := s.setRaw .mate 0 10 both
  if both && !was then s.raise .mate 0 10 else s

/-- GASP_IN is sampled asserted: in STANDBY the unit takes over at the first hinge at or after the end of core row r + 1 (R302). -/
def State.gaspSeen (s : State) : State :=
  let s := ((s.wr R.MATE_STAT_GASP_IN 1).setRaw .mate 0 7 true).raise .mate 0 7
  if s.mode = mSTANDBY then s.updMate (fun m => { m with gaspRow := some (s.absRow + 2) }) else s

/-- GASP_IN. -/
def execGaspIn (s : State) : Host.Outcome State Fault Refusal :=
  let s := { s.start with pow := { s.pow with gaspWire := true } }
  if !s.mateUp || s.on R.MATE_STAT_GASP_IN then ok s else ok s.gaspSeen

/-- GASP_IN_RELEASE. -/
def execGaspInRelease (s : State) : Host.Outcome State Fault Refusal :=
  let s := { s.start with pow := { s.pow with gaspWire := false } }
  if s.mateUp then ok ((s.wr R.MATE_STAT_GASP_IN 0).setRaw .mate 0 7 false) else ok s

/-- The mate's CLAIM is sampled at another level. -/
def State.claimSeen (s : State) (asserted : Bool) : State :=
  (s.updMate (fun m => { m with claimAt := s.now })).wrB R.MATE_STAT_CLAIM_MATE asserted |>.claimFollow

/-- CLAIM_MATE_CHANGE. -/
def execClaimMateChange (asserted : Bool) (s : State) : Host.Outcome State Fault Refusal :=
  let s := { s.start with pow := { s.pow with claimWire := asserted } }
  if !s.mateUp || s.on R.MATE_STAT_CLAIM_MATE == asserted then ok s else ok (s.claimSeen asserted)

/-- The mate unit becomes usable: it samples its wires, and a unit that is PRIMARY already asserts its CLAIM (R287, R302, R304). -/
def State.mateStart (s : State) : State :=
  let s := (s.wrB R.MATE_STAT_CLAIM_OWN (s.mode == mPRIMARY)).claimFollow
  let s := if s.pow.claimWire then s.claimSeen true else s
  if s.pow.gaspWire then s.gaspSeen else s

/-- A lane's accepted feedback speaks against side `b` (false A, true B): FB_VALID, and SEL ≠ the side or FAIL for the side (R77,
R304). -/
def fbAgainst (fb : Nat) (b : Bool) : Bool :=
  let lo12 := fb / 2 ^ 24
  bit lo12 7 && (bits lo12 5 2 != (if b then 2 else 1) || bit lo12 (if b then 3 else 4))

/-- Lanes counting against side `b`. -/
def State.quorumCount (s : State) (b : Bool) : Nat :=
  let m := s.rd R.MATE_QMASK_LANES
  ((List.range 64).filter (fun n => m.testBit n && s.inSync n && fbAgainst (s.rd R.LANEF_RX_FB_FB n) b)).length

/-- QCOUNT, DISOWNED and MATE_DISOWNED at a hinge (R304). -/
def State.quorum (s : State) : State :=
  let side := s.on R.GLOBAL_STRAP_SIDE
  let own := s.quorumCount side
  let far := s.quorumCount (!side)
  let q := s.rd R.MATE_QUORUM_QUORUM
  let s := (s.wr R.MATE_QCOUNT_OWN own).wr R.MATE_QCOUNT_MATE far
  (s.wrB R.MATE_STAT_DISOWNED (s.hbLost && decide (q ≤ own))).wrB R.MATE_STAT_MATE_DISOWNED (s.hbLost && decide (q ≤ far))

/-- The inputs of R304 as they stand. -/
def State.seenNow (s : State) : MateSeen :=
  let side := s.on R.GLOBAL_STRAP_SIDE
  let q := s.rd R.MATE_QUORUM_QUORUM
  ⟨s.hbLost, s.on R.MATE_STAT_CLAIM_MATE, s.hbLost && decide (q ≤ s.quorumCount side), s.hbLost && decide (q ≤ s.quorumCount (!side))⟩

/-- 512 control cycles before the hinge they are settled: what changes later comes too late for it (R301). -/
def State.mateSettle (s : State) : State := if s.mateUp then s.updMate (fun m => { m with seen := some s.seenNow }) else s

/-- R304 at a hinge, on the inputs `v`. -/
def State.lossRule (s : State) (v : MateSeen) : State :=
  if !v.lost then s.updMate (fun m => { m with bothClaim := 0 })
  else
    let both := if v.claim && s.on R.MATE_STAT_CLAIM_OWN then s.mate.bothClaim + 1 else 0
    let s := s.updMate (fun m => { m with bothClaim := both })
    if s.mode = mSTANDBY then
      if (!v.claim || v.far) && !v.own then s.roleNow mPRIMARY
      else if s.on R.MATE_STAT_ORPHAN then s
      else ((s.wr R.MATE_STAT_ORPHAN 1).setRaw .mate 0 3 true).raise .mate 0 3
    else if s.mode = mPRIMARY ∧ v.claim ∧ (v.own ∨ (16 ≤ both ∧ s.on R.GLOBAL_STRAP_SIDE)) then s.roleNow mSTANDBY
    else s

/-- Both units entered PRIMARY at the hinge before this one, without a heartbeat to say so: the mate's CLAIM came in the frame that
ended, which this unit began as a new PRIMARY. The side B unit enters ISOLATE (R288; DESIGN CHOICE, log entry 103). -/
def State.twinRule (s : State) (v : MateSeen) : State :=
  if s.mode = mPRIMARY ∧ v.lost ∧ v.claim ∧ s.on R.GLOBAL_STRAP_SIDE ∧ s.mate.entered = some (s.frame - 1) ∧
      s.mate.claimAt / 75000 = s.frame - 1 then s.roleNow mISOLATE
  else s

/-- A gasp acts at the first hinge at or after its row (R302). -/
def State.gaspRule (s : State) : State :=
  match s.mate.gaspRow with
  | none => s
  | some r =>
    if 36 * s.frame < r then s
    else
      let s := s.updMate (fun m => { m with gaspRow := none })
      if s.mode = mSTANDBY then s.roleNow mPRIMARY
      else if s.mode = mPRIMARY ∧ s.pow.gaspOut then s.roleNow mSTANDBY
      else s

/-- The framer of a Dexgor lane that is not enabled: it is in SEARCH, and remembers no candidate. -/
def State.dxStop (s : State) (l : Nat) : State := s.setDxRx l { s.dxRx l with sync := false, cands := [], errFas := 0 }

/-- The heartbeat's hinge: lost at every hinge while DX_EN = 0; a new frame's has not come; HB_SEQ advances (R292, R293). -/
def State.hbHinge (s : State) : State :=
  let s := if s.dxEn then s
    else ((s.updMate (fun m => { m with hbRun := 0 })).dxStop 0 |>.dxStop 1).hbLose
  s.updMate (fun m => { m with hbNow := false, hbSeq := (m.hbSeq + 1) % 256 })

/-- The mate unit at a hinge, before the role change it may decide. -/
def State.mateHinge (s : State) : State :=
  if !s.mateUp then s
  else
    let v := s.mate.seen.getD s.seenNow
    let s := s.updMate (fun m => { m with seen := none })
    (((s.hbHinge.quorum.lossRule v).twinRule v).gaspRule).applyDue

/-- A mode is one of the pair's switching roles. -/
def pairRole (m : Nat) : Bool := m == mPRIMARY || m == mSTANDBY

/-- A new primary takes over timing and network time from the mirror (R303). It has followed no reference of its own until now, so that
whatever it selects begins a transition. -/
def State.takeTiming (s : State) : State :=
  let tim := s.mate.tim
  let s := match tim with
    | none => s
    | some t => s.setRate t.2.2.2.2.1 t.2.2.2.2.2
  if !s.timingUp || s.loFail then s
  else
    let s := if s.dpll = dFREERUN then s else s.unfollow dLOCKING
    match tim with
    | none => s.selectRef
    | some t => if t.1 < 13 ∧ s.refQual t.1 then s.transition t.1 else s.selectRef

/-- What a change of mode from `old` means for the pair (R287, R303): timing, CLAIM, the takeover, the report. The mode is already the
new one. -/
def State.roleChanged (s : State) (old : Nat) : State :=
  let new := s.mode
  let s := if new = mPRIMARY then s.takeTiming else s
  if !s.mateUp then s
  else
    let s := (s.wrB R.MATE_STAT_CLAIM_OWN (new == mPRIMARY)).claimFollow
    let s := if new = mSTANDBY then s else (s.wr R.MATE_STAT_ORPHAN 0).setRaw .mate 0 3 false
    let s := s.updMate (fun m => { m with swap := false, serve := none, entered := if new = mPRIMARY then some s.frame else m.entered })
    let s := if new = mPRIMARY ∧ old = mSTANDBY ∧ !s.on R.MATE_STAT_MIR_CUR then s.raise .mate 0 9 else s
    let s := if s.rd R.MATE_STAT_RTS_STEP ≠ 15 then (s.wr R.MATE_STAT_RTS_STEP 0).wr R.MATE_STAT_PULL_BUSY 0 else s
    let s := s.readyFollow
    if pairRole old || pairRole new then (s.count .mate 0 6).raise .mate 0 2 else s

/-! Return to service (R306). -/

/-- The step that runs fails: RTS_CAUSE names it. -/
def State.rtsFail (s : State) : State :=
  let k := s.rd R.MATE_STAT_RTS_STEP
  if k = 0 ∨ 5 ≤ k then s
  else (((s.wr R.MATE_STAT_RTS_CAUSE k).wr R.MATE_STAT_RTS_STEP 15).wr R.MATE_STAT_PULL_BUSY 0).readyFollow.raise .mate 0 8

/-- RTS_FAIL: the step failed or timed out. -/
def execRtsFail (s : State) : Host.Outcome State Fault Refusal :=
  let s := s.start
  if s.mateUp then ok s.rtsFail else ok s

/-- CTL.JOIN: ignored outside ISOLATE, and while a step runs. -/
def State.joinAsk (s : State) : State :=
  let k := s.rd R.MATE_STAT_RTS_STEP
  if s.mode ≠ mISOLATE ∨ (k ≠ 0 ∧ k ≠ 15) then s else (s.wr R.MATE_STAT_RTS_STEP 1).wr R.MATE_STAT_RTS_CAUSE 0

/-- JOIN. -/
def execJoin (s : State) : Host.Outcome State Fault Refusal :=
  let s := s.start
  if s.served .mate 0 then ok s.joinAsk else ok s

/-- CTL.PULL: starts a pull in STANDBY. -/
def State.pullAsk (s : State) : State := if s.mode = mSTANDBY then s.pullStart else s

/-- MATE_PULL. -/
def execMatePull (s : State) : Host.Outcome State Fault Refusal :=
  let s := s.start
  if s.served .mate 0 then ok s.pullAsk else ok s

/-- RTS_ALIGN_DONE: with the heartbeat received and |δ| ≤ 50 ns the pull begins. -/
def execRtsAlignDone (s : State) : Host.Outcome State Fault Refusal :=
  let s := s.start
  if s.mateUp ∧ s.rd R.MATE_STAT_RTS_STEP = 1 ∧ !s.hbLost ∧ s.aligned then ok s.pullStart else ok s

/-- RTS_VERIFY_DONE: the unit's four sums against the mate's. A match sets MIR_CUR and READY; a unit in ISOLATE enters STANDBY at the
next hinge. -/
def execRtsVerifyDone (actD actS editD editS : W32) (s : State) : Host.Outcome State Fault Refusal :=
  let s := s.start
  if !s.mateUp || s.rd R.MATE_STAT_RTS_STEP != 3 then ok s
  else
    let s := s.sumActive.sumEditing
    let same := s.rd R.MAPC_ACT_DSUM_SUM == actD.toNat && s.rd R.MAPC_ACT_SSUM_SUM == actS.toNat &&
      s.rd R.MAPC_EDIT_DSUM_SUM == editD.toNat && s.rd R.MAPC_EDIT_SSUM_SUM == editS.toNat
    if !same then ok s.rtsFail
    else
      let s := s.updMate (fun m => { m with sumOk := true })
      let s := (s.wr R.MATE_STAT_MIR_CUR 1).wr R.MATE_STAT_RTS_STEP (if s.mode = mISOLATE then 4 else 0)
      let s := s.readyFollow
      if s.mode = mISOLATE then ok (s.updMate (fun m => { m with role := some (mSTANDBY, s.frame + 1) })) else ok s

end Sys2Proof.Machine
end

