-- ==== Sys2Proof/Machine/ScratchTest.lean ====
section
/-! DEFINITION. The scratchpad's start-up, its background test, and the sequencer's port B (R357 to R364). -/
namespace Sys2Proof.Machine

/-- The scratchpad serves accesses (R357). -/
def State.spReady (s : State) : Bool := s.domUp 0 && s.on R.SECURE_SP_STAT_INIT_DONE

/-- SP_INIT_DONE: every word holds 0 with good parity (R357). -/
def execSpInitDone (s : State) : Host.Outcome State Fault Refusal :=
  let s := s.start
  if !s.domUp 0 || s.on R.SECURE_SP_STAT_INIT_DONE then ok s
  else ok ({ s with sp := [], spBad := [] }.wr R.SECURE_SP_STAT_INIT_DONE 1).readyChk

/-- The background test runs (R362). -/
def State.stRuns (s : State) : Bool := s.on R.SECURE_ST_CTL_EN && s.domUp 1 && s.spReady && s.pow.phase == .running

/-- The test moves to the next line; at the end it wraps and a pass is complete. -/
def State.stNext (s : State) : State :=
  let l := s.rd R.SECURE_ST_STAT_LINE
  let s := (s.wr R.SECURE_ST_STAT_LINE (l + 1)).mark .line
  if l = 8191 then s.bump R.SECURE_ST_STAT_PASSES else s

/-- The least of a list of offsets. -/
def leastOf (l : List Nat) : Option Nat :=
  match l with
  | [] => none
  | a :: r => some (r.foldl min a)

/-- The March found failing bits on the line at byte offset `base` (R364). -/
def State.stFail (s : State) (base : Nat) (march : List Nat) : State :=
  match leastOf march with
  | none => s
  | some b =>
    let s := if s.on R.SECURE_SP_STAT_ST_FAIL then s else s.wr R.SECURE_ST_FAIL_ADDR_OFFSET (base + b / 8)
    (s.wr R.SECURE_SP_STAT_ST_FAIL 1).raise .secure 0 2

/-- The read-back differed: those bytes are left with failing parity (R364). -/
def State.stRestore (s : State) (base : Nat) (bad : List Nat) : State :=
  match bad with
  | [] => s
  | _ :: _ =>
    let s := { s with spBad := bad.foldl (fun m o => if o < 64 then mput m (base + o) 1 else m) s.spBad }
    (s.wr R.SECURE_SP_STAT_RESTORE_ERR 1).raise .secure 0 2

/-- The next line may be borrowed: the test runs, and GAP µs, of 600 control cycles each, have passed since the last one (R362). -/
def State.stMay (s : State) : Bool := s.stRuns && s.ran .line (600 * s.rd R.SECURE_ST_CTL_GAP)

/-- ST_LINE_TEST: the next line is borrowed, tested and restored (R362, R364). -/
def execStLineTest (r : LineResult) (s : State) : Host.Outcome State Fault Refusal :=
  let s := s.start
  if !s.stMay then ok s
  else
    let base := 64 * s.rd R.SECURE_ST_STAT_LINE
    ok (((s.stFail base r.march).stRestore base r.restore).count .secure 0 3).stNext

/-- ST_STALL: an access meets the borrowed line; the test abandons it and moves on (R363). -/
def execStStall (s : State) : Host.Outcome State Fault Refusal :=
  let s := s.start
  if !s.stMay then ok s else ok (s.count .secure 0 4).stNext

/-! Port B (R358 to R360). -/

/-- Bytes of a scratchpad word that are enabled, with their values: offset in the word ↦ byte. -/
def laneBytes (o : Nat) (bs : List Byte) (word : Nat) : List (Nat × Byte) :=
  (List.range 4).filterMap (fun i =>
    let a := 4 * word + i
    if o ≤ a ∧ a < o + bs.length then some (i, bs.getD (a - o) 0) else none)

/-- Two writes collide when a common byte carries different data. -/
def writesCollide (a b : List (Nat × Byte)) : Bool := a.any (fun x => b.any (fun y => x.1 == y.1 && x.2 != y.2))

/-- A collision: COLL_CNT counts each, COLL_ADDR captures the word when COLLIDE sets from 0. -/
def State.collide (s : State) (word : Nat) : State :=
  let s := if s.on R.SECURE_SP_STAT_COLLIDE then s else s.wr R.SECURE_COLL_ADDR_WORD word
  (((s.bump R.SECURE_COLL_CNT_COUNT).wr R.SECURE_SP_STAT_COLLIDE 1).count .secure 0 1).raise .secure 0 1

/-- The sequencer's access on port B in the same control cycle as a port A access: `a` is what port A writes, offset and bytes
(R360). A write goes in unless it collides; a read returns the word as written, or an error where parity fails (R359). -/
def State.portBAccess (s : State) (b : PortBAccess) (a : Option (Nat × List Byte)) : State :=
  let word := b.offset / 4
  if b.offset < 0x70000 ∨ 0x80000 ≤ b.offset ∨ !s.spReady then s
  else
    match b.data with
    | some bs =>
      let mine := laneBytes b.offset (bs.take (4 - b.offset % 4)) word
      let other := match a with
        | some x => laneBytes x.1 x.2 word
        | none => []
      if writesCollide mine other then s.collide word
      else mine.foldl (fun s x => s.spPut (4 * word + x.1) x.2) s
    | none =>
      match s.spDetect (4 * word) 4 with
      | some o => (s.spDet o true).emit (.busError (0x30000000 + 4 * word) 9)
      | none => s.emit (.read (0x30000000 + 4 * word) (ofLe (s.spBytes (4 * word) 4)))

end Sys2Proof.Machine
end

