-- ==== Sys2Proof/Machine/LaneRun.lean ====
section
/-! DEFINITION. Lanes that start and stop at a hinge, and what the hinge does to a running lane's and its drawers' defects
(R43, R57, R60, R89, R91, R92, R115). -/
namespace Sys2Proof.Machine

/-- What a stopped lane keeps: its equalisation records, and what it has accepted (R71). -/
def Lane.idle (l : Lane) : Lane := { recs := l.recs, accSeen := l.accSeen, apsGood := l.apsGood }

/-- A drawer of a lane that stops: nothing is integrated or declared; its interpreter takes no more frames. -/
def Drawer.stopped (d : Drawer) : Drawer := { d with raw := 0, declared := 0, pendSet := 0, pendClr := 0, since := [] }

/-- A drawer whose lane starts: its settings and counts stay, its interpreter is in AIS with every count at 0 and its column store is
empty (R436). -/
def Drawer.idle (d : Drawer) : Drawer :=
  { cfg := d.cfg, cfgDue := d.cfgDue, ip := { cur := d.ip.cur }, bipErr := d.bipErr, justRx := d.justRx, justCore := d.justCore }

/-- The lane of a drawer key. -/
def drwLane (k : Nat) : Nat := k / 8192

/-- Every drawer of lane `n` stops; those with declared defects are reported as changed (R89, R341). -/
def State.drawersStop (s : State) (n : Nat) : State :=
  let hit := (s.drawers.filter (fun e => drwLane e.1 == n && e.2.declared != 0)).map (fun e => e.1 % 8192)
  let s := { s with drawers := mapMapVals {} (fun k d => if drwLane k = n then d.stopped else d) s.drawers }
  hit.foldl (fun s c => s.drwChanged n c) s

/-- Lane `n` stops running: every defect of it is cleared and reported at the hinge (R43, R89). A received cell that waits for its
BIP-16 is discarded, which is counted (R80). -/
def State.laneStop (s : State) (n : Nat) : State :=
  if !s.running n then s
  else
    let s := s.eyeStop n
    let s := if (s.lane n).cell.isSome then s.cellDropped n else s
    let s := (List.range 11).foldl (fun s b => s.setDef n b false) s
    let s := ((s.wr R.LANEF_DEF_RAW_DEFECTS 0 n).wr R.LANEF_STATE_SYNC 0 n).wr R.LANEP_STAT_RUNNING 0 n
    ((s.updLane n Lane.idle).showCands n).drawersStop n |>.eqShow n

/-- The receive settings of a record, CTLE_PEAK and DFE1 to DFE5; the near-end serial loop has them all at 0 (R62). -/
def rxSettings (rec : List Byte) (loop : Nat) : List Byte := if loop = 1 then List.replicate 6 0 else sliceBytes rec 4 6

/-- Lane `n` starts: it takes its settings from the held record for its rate, and its framer enters SEARCH (R43, R57, R82). When a load
that failed since EN = 1 was written has left no records, the settings taken are all 0 (DESIGN CHOICE, log entry 92). -/
def State.laneStart (s : State) (n : Nat) : State :=
  let l := s.lane n
  let r := l.recs.getD (s.rd R.LANEP_CTL_RATE n) []
  let s := s.setLane n { l.idle with inUse := r, rxUse := rxSettings r (s.rd R.LANEP_STAT_LOOP_ACTIVE n) }
  let s := { s with drawers := mapMapVals {} (fun k d => if drwLane k = n then d.idle else d) s.drawers }
  let s := (s.wr R.LANEP_STAT_RUNNING 1 n).enterSearch n
  let s := s.setRawDef n 0 (s.losCond n)
  (s.setRawDef n 1 (s.lolCond n)).eqShow n

/-- The rate of lane `n` takes effect, with the purge (R43, R137, R175). -/
def State.laneRate (s : State) (n : Nat) : State :=
  let r := s.rd R.LANEP_CTL_RATE n
  if s.rate n = r then s
  else
    let s := s.wr R.LANEP_STAT_RATE_ACTIVE r n
    if !s.mc.inited then s
    else if s.on R.MAPC_COMMIT_STAT_CATCHUP then { s with mc := { s.mc with purgeDue := s.mc.purgeDue ++ [n] } }
    else s.purge n

/-- The loop of lane `n` takes effect (R60, R61), with the receive settings that go with it (R62). Reference monitors follow (R63). -/
def State.laneLoop (s : State) (n : Nat) : State :=
  let v := s.rd R.LANEP_CTL_LOOP n
  if s.rd R.LANEP_STAT_LOOP_ACTIVE n = v then s
  else
    let s := (s.wr R.LANEP_STAT_LOOP_ACTIVE v n).updLane n (fun l =>
      { l with loopStore := [], loopNew := false, rxUse := if l.inUse.isEmpty then [] else rxSettings l.inUse v })
    let s := if s.running n then (s.judgeLos n).judgeLol n else s
    if v = 0 then s else s.raise .lanep n 6

/-- Both domains of lane `n` are usable. -/
def State.lanePowered (s : State) (n : Nat) : Bool := s.domUp (4 + n / 4) && s.domUp (20 + n / 4)

/-- EN, RATE and LOOP of lane `n` take effect at a hinge. A lane whose EN was 0 at any time since the last one stops, and one whose EN
is 1 now starts (R43, R57). -/
def State.laneSet (s : State) (n : Nat) : State :=
  if !s.lanePowered n then s
  else
    let s := if s.on R.LANEP_CTL_EN n && !(s.lane n).stopDue then s else s.laneStop n
    let s := s.laneRate n
    let s := if s.on R.LANEP_CTL_EN n && !s.running n then s.laneStart n else s
    s.laneLoop n

/-- Declarations and clearances of lane `n` made in the frame that ended take effect (R89). A declaration that a declared or newly
declared defect suppresses is not made, and a declared defect that becomes suppressed is cleared; the integrator of one that is no
longer suppressed starts from zero (R92). -/
def State.laneDefects (s : State) (n : Nat) : State :=
  let l := s.lane n
  if !s.running n then s
  else
    let old := s.laneDef n
    let t := defectTurn old l.pendSet l.pendClr (s.laneRaw n)
    let new := laneUnsuppressed t.1 ||| (old &&& 4)
    let s := s.updLane n (fun l => { l with pendSet := t.2.1, pendClr := t.2.2 })
    let s := (List.range 11).foldl (fun s b => if b = 2 then s else s.setDef n b (new.testBit b)) s
    (List.range 11).foldl (fun (s : State) b =>
      if b ≠ 2 ∧ laneSuppressed old b ∧ !laneSuppressed new b ∧ (s.laneRaw n).testBit b then s.integStart n b true else s) s

/-- What lane `n` latches at a hinge: RDI and REI for the frame it sends next (R73), and whether lane failure action (b) applies. A
violation count goes into one frame. -/
def State.laneLatch (s : State) (n : Nat) : State :=
  let b := s.actionB n
  let rdi := b || s.on R.LANEF_CTL_FORCE_RDI n
  let sync := s.inSync n
  s.updLane n (fun l => { l with wasB := b, rdiTx := rdi, reiTx := if sync then min l.reiNow 16 else 0, reiNow := 0, txHeld := false })

/-- Every listed drawer of a running lane at a hinge. -/
def State.drawersTurn (s : State) : State :=
  let t := s.drawers.map (fun e =>
    let n := drwLane e.1
    (e.1, if s.running n then drawerTurn (s.drwAtOnce n) s.frame (s.lane n).wasB (s.actionB n) e.2 else (e.2, false)))
  let s := { s with drawers := (t.filter (fun e => e.2.1 != {})).map (fun e => (e.1, e.2.1)) }
  (t.filter (fun e => e.2.2)).foldl (fun s e => s.drwChanged (drwLane e.1) (e.1 % 8192)) s

/-- Lanes and drawers at a hinge. -/
def State.lanesHinge (s : State) : State :=
  let s := (List.range 64).foldl (fun s n => s.laneSet n) s
  let s := (List.range 64).foldl (fun s n => s.laneDefects n) s
  let s := s.drawersTurn
  let s := (List.range 64).foldl (fun (s : State) n => if s.running n then s.laneLatch n else s) s
  if s.timingUp then [8, 9, 10, 11].foldl (fun (s : State) r => (s.refFollow r).refEvent r false) s else s

end Sys2Proof.Machine
end

