-- ==== Sys2Proof/Machine/Power.lean ====
section
/-! DEFINITION. Supply, holdup and shedding, power domains, waking, and the modes (R373 to R393). -/
namespace Sys2Proof.Machine

/-! Losing a domain (R385). -/

/-- The domain of the register whose bus address is `a`. -/
def addrDomain (a : Nat) : Nat :=
  match pageAt a with
  | some (p, i, _) => pageDomain p i
  | none => 1

/-- The pages of domain `d` lose their fields; those held in the AON domain stay (R206, R318, R365, R394). -/
def State.pagesLost (s : State) (d : Nat) : State :=
  { s with regs := mapKeep (fun k => addrDomain (k / 64) != d || (d == 1 && keptResetN k)) s.regs,
           capHi := mapKeep (fun a => addrDomain a != d) s.capHi, heldLo := mapKeep (fun a => addrDomain a != d) s.heldLo }

/-- The management domain's own stores are lost. -/
def State.mgmtLost (s : State) : State :=
  { s with ev := { snapPin := s.ev.snapPin }, mx := {}, mc := {}, sels := [], groups := [], grooms := [], groomDef := [], benches := [],
           eqs := [], ports := [], outCols := [], ndf := [], bridgeSat := [], capHi := [], heldLo := [],
           sec := { s.sec with resp := none }, pcie := { released := s.pcie.released, link := false },
           chain := { s.chain with queue := [], headAt := 0, notifyAt := none, notifyDue := false } }

/-- A network-time unit that starts now (R285). -/
def State.ntFresh (s : State) : NTime := { mark := s.now }

/-- What is held beside the registers of domain `d` is lost. -/
def State.storesLost (s : State) (d : Nat) : State :=
  if d = 1 then s.mgmtLost
  else if d = 2 then { s with tm := {}, nt := s.ntFresh }
  else if d = 3 then { s with mate := {} }
  else if d < 20 then
    let q := d - 4
    { s with lanes := mapMapVals {} (fun n l => if n / 4 = q then { l.idle with inUse := l.inUse, apsGood := 0 } else l) s.lanes,
             drawers := mapKeep (fun k => drwLane k / 4 != q) s.drawers,
             ports := mapKeep (fun k => !(decide (k < 64) && k / 4 == q)) s.ports }
  else if d < 36 then { s with lanes := mapMapVals {} (fun n l => if n / 4 = d - 20 then { apsGood := l.apsGood } else l) s.lanes }
  else if d < 44 then s
  else if d < 48 then { s with grooms := mapKeep (fun g => drawerQuarter g != d - 44) s.grooms,
                               groomDef := mdel s.groomDef (d - 44),
                               bridgeSat := mapKeep (fun b => bridgeQuarter b != d - 44) s.bridgeSat }
  else if d < 52 then s.dramLost (d % 2)
  else if d < 54 then { s with eths := mapKeep (fun p => p / 4 != d - 52) s.eths }
  else { s with ctxs := mapKeep (fun n => ctxHalf n != d - 54) s.ctxs }

/-- A framer or PMA domain that goes off stops its quad's lanes. Without the framer nothing is reported and its pages read 0 when it
returns; without the PMA alone the framer clears and reports the lane's defects as for EN = 0 (R89, R385). -/
def State.quadStops (s : State) (d : Nat) : State :=
  if 4 ≤ d ∧ d < 20 then (quadLanes (d - 4)).foldl (fun s n => s.wr R.LANEP_STAT_RUNNING 0 n) s
  else if 20 ≤ d ∧ d < 36 then (quadLanes (d - 20)).foldl (fun s n => s.laneStop n) s
  else s

/-- Domain `d` switches off (R385). -/
def State.domainOff (s : State) (d : Nat) : State :=
  if !(s.pow.on.getLsbD d || s.pow.up.getLsbD d) then s
  else
    let b : BitVec 56 := BitVec.ofNat 56 (2 ^ d)
    let s := ((s.quadStops d).storesLost d).pagesLost d
    { s with pow := { s.pow with on := s.pow.on &&& ~~~b, up := s.pow.up &&& ~~~b, offDue := s.pow.offDue &&& ~~~b } }

/-- Several domains switch off, in the order given. -/
def State.domainsOff (s : State) (ds : List Nat) : State := ds.foldl (fun s d => s.domainOff d) s

/-! Coming on (R384). -/

/-- The order in which domains come on; 1 and 2 come first after a wake. -/
def domainOrder (first : Nat) : List Nat :=
  let quads := first :: (List.range 16).filter (fun q => q != first)
  [1, 2, 3, 4 + first, 20 + first] ++ (List.range 8).map (fun g => 36 + g) ++ (List.range 4).map (fun q => 44 + q) ++
  (quads.drop 1).flatMap (fun q => [4 + q, 20 + q]) ++ [48, 49, 50, 51, 52, 53, 54, 55]

/-- Domain `d` is to be on: requested, allowed by the mode, and not shed (R381, R383, R388). -/
def State.wanted (s : State) (d : Nat) : Bool :=
  if s.mode = mSLEEP then s.pow.waking.isSome && decide (d < 3)
  else if d < 3 then true
  else trafficMode s.mode && s.requested d && !(s.pow.vinFailed && s.pow.shed.getLsbD d) && !s.pow.offDue.getLsbD d

/-- The domain that comes on next. -/
def State.nextDomain (s : State) : Option Nat :=
  if s.pow.phase != .running && s.pow.phase != .soft then none
  else (domainOrder (s.rd R.POWER_CTL_FIRST_QUAD)).find? (fun d => s.wanted d && !s.domUp d)

/-- The mode becomes `m` (R390): MODE_STAT, MODE_CHG, loops end on leaving MAINT, and the pair's part. -/
def State.setMode (s : State) (m : Nat) : State :=
  let old := s.mode
  let s := ((s.wr R.GLOBAL_MODE_STAT_PREV old).wr R.GLOBAL_MODE_STAT_CUR m).wr R.GLOBAL_MODE_STAT_PENDING 0
  let s := { s with pow := { s.pow with modeReq := none } }
  let s := if old = mMAINT then (List.range 64).foldl (fun s n => s.wr R.LANEP_CTL_LOOP 0 n) s else s
  let s := if traceMode m then s else s.wr R.PERF_TR_CTL_EN 0
  s.roleChanged old

/-- A wake ends when the management and timing domains are usable: the new mode takes effect (R387, R390). -/
def State.wakeEnd (s : State) : State :=
  match s.pow.waking with
  | none => s
  | some w =>
    if !(s.domUp 1 && s.domUp 2) then s
    else ({ s with pow := { s.pow with waking := none } }.setMode w.1).raise .global 0 0

/-- The management domain comes up from a wake: WAKE_CAUSE and WAKE (R387). The page that the mode reads from came up with its
power-on value, and is SLEEP until both domains are usable. -/
def State.wakeMgmt (s : State) : State :=
  match s.pow.waking with
  | none => s
  | some w => (s.wr R.POWER_STAT_WAKE_CAUSE w.2).raise .power 0 5

/-- Counters of the pages of domain `d` start at 0 (R347, R352). -/
def State.pagesStart (s : State) (d : Nat) : State :=
  { s with ev := { s.ev with base := allPages.foldl (fun m x =>
      if pageDomain x.1 x.2 = d then mapSet 0 m (pageSlot x.1 x.2) s.ev.ran else m) s.ev.base } }

/-- What starts with domain `d`: a quad's PLL has locked (R384); a channel trains (R206); the mate unit looks at its wires. -/
def State.domainStart (s : State) (d : Nat) : State :=
  if 20 ≤ d ∧ d < 36 then (quadLanes (d - 20)).foldl (State.pllLane true) s
  else if 48 ≤ d ∧ d < 52 then s.dramBringUp (d % 2)
  else if d = 1 then s.wakeMgmt
  else if d = 3 then s.mateStart
  else s

/-- Domain `d` has become usable. -/
def State.domainUp (s : State) (d : Nat) : State :=
  let b : BitVec 56 := BitVec.ofNat 56 (2 ^ d)
  let s := { s with pow := { s.pow with on := s.pow.on ||| b, up := s.pow.up ||| b, shed := s.pow.shed &&& ~~~b } }
  ((((s.pagesStart d).count .power 0 2).domainStart d).wakeEnd).readyChk

/-- DOMAIN_USABLE (R384): the domain whose turn it is. -/
def execDomainUsable (d : Fin 56) (s : State) : Host.Outcome State Fault Refusal :=
  let s := s.start
  if s.nextDomain = some d.val then ok (s.domainUp d.val) else ok s

/-! Requests for domains (R383, R385). -/

/-- A set of requested domains that R383 refuses: a PMA without its framer, a DRAM channel without its core. -/
def domBad (en : Nat) : Bool :=
  (List.range 16).any (fun q => en.testBit (20 + q) && !en.testBit (4 + q)) ||
  (List.range 2).any (fun c => en.testBit (50 + c) && !en.testBit (48 + c))

/-- The requested domains 4 to 55, bit d for domain d. -/
def State.domEn (s : State) : Nat := s.rd R.POWER_DOM_EN0_EN * 16 + s.rd R.POWER_DOM_EN1_EN * 2 ^ 32

/-- A DOM_EN write (R383, R385): refused whole, or it takes effect; domains no longer requested go off at the next hinge, or at once
where there are none. -/
def State.domEnWrite (s : State) (hi : Bool) (v : Nat) : State :=
  let old := s.domEn
  let new := if hi then old % 2 ^ 32 + v % 2 ^ 24 * 2 ^ 32 else old / 2 ^ 32 * 2 ^ 32 + v / 16 % 2 ^ 28 * 16
  if domBad new then (s.wr R.POWER_STAT_DOM_REFUSED 1).raise .power 0 4
  else
    let s := if hi then s.wr R.POWER_DOM_EN1_EN v else s.wr R.POWER_DOM_EN0_EN (v / 16)
    let due := (s.pow.on.toNat &&& andNot 56 old new) ||| andNot 56 (s.pow.offDue.toNat) new
    ({ s with pow := { s.pow with offDue := BitVec.ofNat 56 due } }).readyChk

/-- DOM_EN_WRITE. -/
def execDomEnWrite (hi : Bool) (v : W32) (s : State) : Host.Outcome State Fault Refusal :=
  s.onPage .power 0 (fun s => s.domEnWrite hi v.toNat)

/-- The domains that go off at a hinge: a plane group only once it is empty (R385). -/
def State.offNow (s : State) : List Nat :=
  (List.range 56).filter (fun d => s.pow.offDue.getLsbD d && !(36 ≤ d && d < 44 && !s.groupEmpty (d - 36)))

/-- Domains no longer requested at a hinge. -/
def State.powerHinge (s : State) : State := s.domainsOff s.offNow

/-! Supply (R376 to R381). -/

/-- VIN_FAIL is declared (R377). -/
def execVinFail (s : State) : Host.Outcome State Fault Refusal :=
  let s := s.start
  if s.pow.phase = .unpowered ∨ s.pow.vinFailed then ok s
  else
    let gasp := s.on R.GLOBAL_STRAP_MATE_PRESENT
    let s := { s.mark .vin with pow := { s.pow with vinFailed := true, stages := [], gaspOut := gasp } }
    let s := if gasp && s.mateUp && s.mode == mPRIMARY then s.updMate (fun m => { m with gaspRow := some (s.absRow + 3) }) else s
    ok (((s.bump R.POWER_VIN_FAIL_CNT_COUNT).count .power 0 1).setRaw .power 0 0 true |>.raise .power 0 0)

/-- The shed stage of domain `d` (R378). -/
def State.shedStage (s : State) (d : Nat) : Nat :=
  if (4 ≤ d ∧ d < 36) ∨ (44 ≤ d ∧ d < 56) then bits (s.rd R.POWER_SHED_STAGES 0 (d / 10)) (3 * (d % 10)) 3 else 0

/-- SHED_T of stage `st`, in 0.1 ms. -/
def State.shedTime (s : State) (st : Nat) : Nat :=
  match st with
  | 1 => s.rd R.POWER_SHED_T0_T1
  | 2 => s.rd R.POWER_SHED_T0_T2
  | 3 => s.rd R.POWER_SHED_T0_T3
  | 4 => s.rd R.POWER_SHED_T0_T4
  | 5 => s.rd R.POWER_SHED_T1_T5
  | 6 => s.rd R.POWER_SHED_T1_T6
  | _ => s.rd R.POWER_SHED_T1_T7

/-- A shed stage acts (R378): its domains go off, and stay off until VIN returns. -/
def State.shedAct (s : State) (st : Nat) : State :=
  let ds := (List.range 56).filter (fun d => s.shedStage d == st)
  let m := ds.foldl (fun (m : BitVec 56) d => m ||| BitVec.ofNat 56 (2 ^ d)) 0
  let s := { s with pow := { s.pow with stages := s.pow.stages ++ [st], shed := s.pow.shed ||| m } }
  if ds.isEmpty then s else ((s.domainsOff ds).raise .power 0 2).readyChk

/-- SHED: `run` is the time since t_f, in 0.1 ms, of 60,000 control cycles each; no more than have passed. -/
def execShed (st : Fin 8) (run : Nat) (s : State) : Host.Outcome State Fault Refusal :=
  let s := s.start
  if !s.pow.vinFailed || st.val == 0 || s.pow.stages.contains st.val || decide (run < s.shedTime st.val) ||
    !s.ran .vin (60000 * run) then ok s
  else ok (s.shedAct st.val)

/-- The time since t_f shows as `held` steps of 0.1 ms; how it is rounded is open (log entry 89). -/
def State.heldFor (s : State) (held : Nat) : Bool :=
  match s.since .vin with
  | none => true
  | some k => decide (60000 * held < k + 60000) && decide (k < 60000 * held + 60000)

/-- VIN_BACK: VIN_OK returns (R379); `held` is the time from t_f, in 0.1 ms. -/
def execVinBack (held : Nat) (s : State) : Host.Outcome State Fault Refusal :=
  let s := s.start
  if !s.pow.vinFailed || !s.heldFor held then ok s
  else
    let s := { s with pow := { s.pow with vinFailed := false, stages := [], gaspOut := false } }
    ok (((s.wr R.POWER_HOLD_LAST_TIME (min held 65535)).setRaw .power 0 0 false).raise .power 0 1)

/-- What survives without power: the secure-part record (R365, R394). -/
def recordKey (k : Nat) : Bool :=
  [R.SECURE_LC_TAMPERED, R.SECURE_LC_K_ID_HELD, R.SECURE_LC_K_AUTH_HELD, R.SECURE_LC_K_ID_USED, R.SECURE_LC_K_AUTH_USED,
   R.SECURE_LC_STATE, R.SECURE_CTL_ENFORCE, R.SECURE_KEY_ID_ID_FP, R.SECURE_KEY_ID_AUTH_FP].any (fun f => f.key 0 0 == k)

/-- A state that holds nothing but the secure part, and the levels on the pair's wires: what every start begins from. -/
def State.bare (s : State) : State :=
  { pending := s.pending, fresh := s.fresh, regs := mapKeep recordKey s.regs, sec := { s.sec with resp := none },
    pow := { claimWire := s.pow.claimWire, gaspWire := s.pow.gaspWire } }

/-- HOLDUP_EXHAUSTED: every domain loses power (R380). -/
def execHoldupExhausted (s : State) : Host.Outcome State Fault Refusal :=
  let s := s.start
  if !s.pow.vinFailed then ok s
  else
    let t := s.bare
    ok { t with pow := { t.pow with phase := .unpowered, on := 0, up := 0, pgood := false, lastReady := 0 },
                pcie := { t.pcie with link := false } }

/-- HOLDUP: VHOLD reaches 54 V, which it does only while the charger runs (CHG_EN = 1 and VIN_OK = 1), or falls below it (R376). -/
def execHoldup (b : Bool) (s : State) : Host.Outcome State Fault Refusal :=
  let s := s.start
  if s.pow.phase = .unpowered ∨ s.pow.holdupOk = b ∨ (b && (!s.on R.POWER_CTL_CHG_EN || s.pow.vinFailed)) = true then ok s
  else ok ((({ s with pow := { s.pow with holdupOk := b } }).raise .power 0 3).readyChk)

/-- XTAL: the AON clock's source changes (R386). -/
def execXtal (b : Bool) (s : State) : Host.Outcome State Fault Refusal :=
  let s := s.start
  if s.pow.phase = .unpowered ∨ s.pow.xtalOk = b then ok s
  else ok ({ s with pow := { s.pow with xtalOk := b } }.raise .power 0 6)

/-! Waking (R387). -/

/-- A wake source acts: only in SLEEP, and only the first. -/
def State.wake (s : State) (cause : Nat) : State :=
  if s.mode = mSLEEP ∧ s.pow.waking.isNone ∧ s.pow.phase = .running then
    { s with pow := { s.pow with waking := some (if s.on R.POWER_CTL_WAKE_MODE then mBRINGUP else mWARM, cause) } }
  else s

/-- WAKE_N_EDGE. -/
def execWakeNEdge (s : State) : Host.Outcome State Fault Refusal := ok (s.start.wake 1)

/-- WAKE_TIMER_EXPIRE: `run` seconds, of 600,000,000 control cycles each, since entry to SLEEP; no more than have passed. -/
def execWakeTimerExpire (run : Nat) (s : State) : Host.Outcome State Fault Refusal :=
  let s := s.start
  let t := s.rd R.POWER_WAKE_TIMER_SECONDS
  if t = 0 ∨ run < t ∨ s.ran .sleep (600000000 * run) = false then ok s else ok (s.wake 3)

/-! Modes (R388 to R391). -/

/-- The mate lets this unit become PRIMARY (R288). -/
def State.mayPrimary (s : State) : Bool := s.hbLost || s.hbByte 9 % 8 == mSTANDBY || s.hbByte 9 % 8 == mISOLATE

/-- The changes that the host may request (R389). -/
def State.mayRequest (s : State) (m : Nat) : Bool :=
  let mate := s.on R.GLOBAL_STRAP_MATE_PRESENT
  match s.mode with
  | 1 => m == mSLEEP || m == mBRINGUP
  | 2 => m == mSLEEP || m == mWARM || m == mMAINT || (m == mSOLO && !mate) || (m == mISOLATE && mate)
  | 3 => m == mSLEEP || m == mWARM || m == mBRINGUP || m == mMAINT
  | 4 => m == mISOLATE
  | 5 => m == mISOLATE
  | 6 => m == mSLEEP || m == mWARM || m == mBRINGUP || (m == mSOLO && !mate) || (m == mISOLATE && mate)
  | 7 => m == mSLEEP || m == mWARM || m == mBRINGUP || m == mMAINT || (m == mPRIMARY && mate && s.mayPrimary)
  | _ => false

/-- MODE.REQ is written (R389, R390). -/
def State.modeRequest (s : State) (m : Nat) : State :=
  if s.pow.modeReq.isSome || !s.mayRequest m then (s.wr R.GLOBAL_MODE_STAT_REFUSED 1).raise .global 0 1
  else { s with pow := { s.pow with modeReq := some m } }.wr R.GLOBAL_MODE_STAT_PENDING 1

/-- MODE_REQUEST. -/
def execModeRequest (req : BitVec 3) (s : State) : Host.Outcome State Fault Refusal :=
  s.onPage .global 0 (fun s => s.modeRequest req.toNat)

/-- The maps are lost on entry to WARM (R183): a pending commit is cancelled, the queue emptied, a running list aborted. -/
def State.mapsLost (s : State) : State :=
  let s := if s.mc.commit.isSome then s.wr R.MAPC_COMMIT_STAT_CANCELLED 1 else s
  let s := if s.on R.MAPC_STAT_LIST_BUSY then s.listEnd else s
  let s := [R.MAPC_STAT_READY, R.SFAB_STAT_READY, R.MAPC_COMMIT_STAT_PENDING, R.MAPC_COMMIT_STAT_CUT, R.MAPC_COMMIT_STAT_CATCHUP,
            R.MAPC_COMMIT_STAT_SUM_BUSY, R.MAPC_COMMIT_STAT_SUM_VALID, R.MAPC_COMMIT_STAT_EDIT_SUM_VALID].foldl (fun s f => s.wr f 0) s
  { s with mc := {}, ndf := [], outCols := [] }

/-- The domains that WARM switches off. -/
def trafficDomains : List Nat := (List.range 53).map (fun d => d + 3)

/-- A mode change takes effect (R390). -/
def State.enterMode (s : State) (m : Nat) : State :=
  let s := (s.setMode m).raise .global 0 0
  if m = mSLEEP then
    let s := (s.domainsOff trafficDomains).domainsOff [2, 1]
    ({ s with pow := { s.pow with offDue := 0, shed := 0 } }.wr R.GLOBAL_MODE_STAT_CUR mSLEEP).mark .sleep
  else if m = mWARM then
    let s := s.mapsLost.domainsOff trafficDomains
    { s with pow := { s.pow with offDue := 0, shed := 0 } }
  else s

/-- A decided role change, then a requested mode, at a hinge (R25, R303, R390). A request that the role change has made impossible is
refused. -/
def State.modeHinge (s : State) : State :=
  let s := match s.mate.role with
    | none => s
    | some (m, f) =>
      let s := if s.frame < f then s else s.updMate (fun x => { x with role := none })
      if s.frame < f ∨ s.mode = m ∨ !(pairRole s.mode || (s.mode == mISOLATE && m == mSTANDBY)) then s
      else
        let req := s.pow.modeReq
        let s := s.enterMode m
        match req with
        | none => s
        | some r => { s with pow := { s.pow with modeReq := some r } }.wr R.GLOBAL_MODE_STAT_PENDING 1
  match s.pow.modeReq with
  | none => s
  | some m =>
    if s.mayRequest m then s.enterMode m
    else
      let s := { s with pow := { s.pow with modeReq := none } }
      ((s.wr R.GLOBAL_MODE_STAT_PENDING 0).wr R.GLOBAL_MODE_STAT_REFUSED 1).raise .global 0 1

end Sys2Proof.Machine
end

