-- ==== Sys2Proof/Machine/Reset.lean ====
section
/-! DEFINITION. The resets (R286, R332, R394 to R398). -/
namespace Sys2Proof.Machine

/-! Reset of a master of the bus matrix (R332). -/

/-- One transaction that its master's reset cuts: its response is dropped, its lock released, and the burst is recorded in ABORT. -/
def State.abortOne (s : State) (t : Nat) (f : Inflight) : State :=
  let m := f.req.m
  let s := { s with mx := { s.mx with inflight := mdel s.mx.inflight t } }
  let s := (((s.wr R.MATRIX_ABORT_VALID 1).wr R.MATRIX_ABORT_MASTER m).wr R.MATRIX_ABORT_TARGET t).wrB R.MATRIX_ABORT_WRITE f.req.write
  let s := ((s.wr R.MATRIX_ABORT_ADDR_ADDR f.req.addr).raise .matrix 0 3).count .matrix 0 5
  s.recover 4 (256 * m + 16 * t)

/-- Masters `ms` are reset: what waits is dropped, what is in flight is cut, and their locks are released. Tags stay owed (R325). -/
def State.resetMasters (s : State) (ms : List Nat) : State :=
  let fs := s.mx.inflight.filter (fun e => ms.contains e.2.req.m)
  let s := { s with mx := { s.mx with waiting := s.mx.waiting.filter (fun r => !ms.contains r.m),
                                      locks := s.mx.locks.filter (fun e => !ms.contains e.2),
                                      broken := s.mx.broken.filter (fun x => !ms.contains (x / 8)) } }
  fs.foldl (fun s e => s.abortOne e.1 e.2) s

/-! Power-on (R374, R394). -/

/-- The straps are sampled (R286). -/
def State.strap (s : State) (st : Straps) : State :=
  ((s.wrB R.GLOBAL_STRAP_MATE_PRESENT st.matePresent).wrB R.GLOBAL_STRAP_SIDE st.side).wr R.GLOBAL_STRAP_STRAP st.general.toNat

/-- A wipe left pending in the secure part completes (R367). -/
def State.wipePending (s : State) : State :=
  match s.sec.wipe with
  | none => s
  | some t => s.lcEnd t

/-- POWER_ON: the module starts. The state is the one at PGOOD: management and timing usable, every other domain still to come. -/
def execPowerOn (st : Straps) (s : State) : Host.Outcome State Fault Refusal :=
  let s := s.start
  let rel := s.pcie.released
  let s := ((s.bare.strap st).wipePending).newAuthSeq
  ok { s with pcie := { s.pcie with released := rel, link := false } }

/-! Outputs at the boundary (R399). -/

/-- What the pins of Ethernet port `p` do. -/
def State.ethDrive (s : State) (p : Nat) : Drive :=
  if s.pow.phase = .unpowered ∨ !s.pow.on.getLsbD (52 + p / 4) then .undriven
  else if s.pow.phase = .resetN ∨ !s.portRuns p then .common
  else .frames

/-- The DDR5 pins of channel `c` are at rest: the reset line is low, the clocks are stopped, and the other nets are undriven. -/
def State.ddrRest (s : State) (c : Nat) : Bool :=
  s.pow.phase == .unpowered || s.pow.phase == .resetN || !s.pow.on.getLsbD (50 + c) || s.mode == mSLEEP || s.mode == mWARM

/-- The Icusk outputs forward: whenever the module has power (R319). -/
def State.icuskForwards (s : State) : Bool := s.pow.phase != .unpowered

/-- EVENT_N is driven low (R339). A soft reset keeps it as it was (R400; DEDUCED, log entry 108). -/
def State.eventN (s : State) : Bool :=
  match s.pow.phase with
  | .soft => s.ev.pinHeld
  | .running => s.mode != mSLEEP && (List.range 92).any (fun g => s.on R.EVENT_GRP_ROUTE_PIN_EN 0 g && s.grpPend g != 0)
  | .resetN | .unpowered => false

/-! RESET_N (R395, R403). -/

/-- What RESET_N leaves: the AON domain, the secure part, and powered domains held in reset. -/
def State.heldInReset (s : State) : State :=
  { pending := s.pending, clk := s.clk, fresh := s.fresh, regs := mapKeep keptResetN s.regs, timers := s.timers, sp := s.sp,
    spBad := s.spBad, sec := { s.sec with resp := none }, nt := s.ntFresh,
    pcie := { released := s.pcie.released, link := false },
    ev := { snapPin := s.ev.snapPin },
    chain := { fwd := s.chain.fwd, txFree := s.chain.txFree, lastFwd := s.chain.lastFwd, hostSide := s.chain.hostSide, tokIn := s.chain.tokIn,
               resync := s.chain.resync },
    pow := { s.pow with phase := .resetN, up := 1, offDue := 0, modeReq := none, waking := none, heldRec := [], lastReady := 0 } }

/-- RESET_N_ASSERT: the pin has been low for 1 µs. A reset that is running is abandoned (R396). -/
def execResetNAssert (s : State) : Host.Outcome State Fault Refusal :=
  let s := s.start
  if s.pow.phase = .unpowered then ok s else ok s.heldInReset

/-- RESET_N_RELEASE: the straps are sampled, and the unit restarts in BRINGUP with management and timing usable. Network time runs
from here, since the unit was held in reset until now. -/
def execResetNRelease (st : Straps) (s : State) : Host.Outcome State Fault Refusal :=
  let s := s.start
  if s.pow.phase != .resetN then ok s
  else
    let p := { s.pow with phase := .running, on := s.pow.on ||| 0b111, up := 0b111 }
    let s := ({ s with pow := p, nt := s.ntFresh }.strap st).wr R.POWER_STAT_WAKE_CAUSE 4
    ok (s.wr R.GLOBAL_RESET_STAT_KIND 1).readyChk

/-! Soft reset (R397, R398). -/

/-- The key of SFTRST. -/
def softKey : Nat := 0x5A17C0DE

/-- What a soft reset ends in the compiler (R182): a commit, the queue, a list, a scan. Banks, images and a catch-up stay. -/
def State.softMapc (s : State) : State :=
  let s := if s.mc.commit.isSome then s.commitGone.wr R.MAPC_COMMIT_STAT_CANCELLED 1 else s
  let s := { s with mc := { s.mc with queue := [], asks := [], sumAct := false, sumEdit := false },
                    mate := { s.mate with held := [] } }
  let s := if s.on R.MAPC_STAT_LIST_BUSY then s.listEnd else s
  [R.MAPC_STAT_READY, R.MAPC_COMMIT_STAT_SUM_BUSY, R.MAPC_COMMIT_STAT_SUM_VALID, R.MAPC_COMMIT_STAT_EDIT_SUM_VALID].foldl
    (fun s f => s.wr f 0) s

/-- What a soft reset ends on the lanes: eye scans at once (R59), and loops (R60). The accepted overhead returns to its reset values
(R17), and the next value accepted is new. -/
def State.softLane (s : State) (n : Nat) : State :=
  let near := s.nearLoop n
  let s := s.eyeStop n
  let s := (s.wr R.LANEP_CTL_LOOP 0 n).wr R.LANEP_STAT_LOOP_ACTIVE 0 n
  let s := s.updLane n (fun l =>
    { l with loopStore := [], loopNew := false, accSeen := 0, rxUse := if l.inUse.isEmpty then [] else rxSettings l.inUse 0 })
  if near && s.running n then (s.judgeLos n).judgeLol n else s

/-- What a soft reset drops beside the registers: indirect-port commands, trace records, queued chain commands, a pending mode
change, a response being prepared. -/
def State.softDrop (s : State) : State :=
  { s with ports := [], capHi := [], heldLo := [], ev := { s.ev with trace := [] }, chain := { s.chain with queue := [] },
           pow := { s.pow with modeReq := none, phase := .soft },
           sec := { s.sec with resp := none } }

/-- EVENT_N stands, for as long as the soft reset runs, as it stood at its begin (R400). -/
def State.holdPins (s : State) : State := { s with ev := { s.ev with pinHeld := s.eventN } }

/-- A soft reset begins. Fields whose soft-reset value is not "kept" return to their reset values. -/
def State.softBegin (s : State) : State :=
  let cut := s.on R.MAPC_COMMIT_STAT_CATCHUP
  let done := s.mc.commit.isSome
  let s := ((List.range 64).foldl State.softLane s.holdPins).softMapc.softDrop
  let s := { s with regs := mapKeep keptSoft s.regs }
  let s := (s.wrB R.MAPC_COMMIT_STAT_CANCELLED done).wrB R.MAPC_COMMIT_STAT_CUT cut
  let s := s.wr R.GLOBAL_RESET_STAT_KIND 2
  s.resetMasters [0, 1, 2, 3, 4, 5]

/-- SOFT_RESET: a write to SFTRST; only the key starts one. -/
def State.softReset (s : State) (key : Nat) : State :=
  if key = softKey then s.softBegin else s

/-- SOFT_RESET. -/
def execSoftReset (key : W32) (s : State) : Host.Outcome State Fault Refusal :=
  s.onPage .global 0 (fun s => s.softReset key.toNat)

/-- SOFT_RESET_END: READY returns unless a catch-up runs on (R182); recoveries held back are recorded (R405). -/
def State.softEnd (s : State) : State :=
  let held := s.pow.heldRec
  let s := { s with pow := { s.pow with phase := .running, heldRec := [] } }
  let s := if s.mc.inited && !s.on R.MAPC_COMMIT_STAT_CATCHUP then s.wr R.MAPC_STAT_READY 1 else s
  let s := (s.count .global 0 2).raise .global 0 4
  (held.foldl (fun s e => s.recordRecovery e.1 e.2) s).readyChk

/-- SOFT_RESET_END. -/
def execSoftResetEnd (s : State) : Host.Outcome State Fault Refusal :=
  let s := s.start
  if s.pow.phase = .soft then ok s.softEnd else ok s

end Sys2Proof.Machine
end

