-- ==== Sys2Proof/Machine/Flags.lean ====
section
/-! DEFINITION. The fields that follow the hardware: computed from the state when they are read, and stored nowhere. -/
namespace Sys2Proof.Machine

/-- The value that a list of fields gives field `f` of the same page. -/
def pick (f : Fld) (l : List (Fld × Nat)) : Option Nat :=
  match l.find? (fun e => e.1.off == f.off && e.1.lsb == f.lsb) with
  | some e => some e.2
  | none => none

/-- A word made of `n` bits. -/
def maskOf (n : Nat) (f : Nat → Bool) : Nat := (List.range n).foldl (fun m b => if f b then setBit m b else m) 0

/-- The page's domain is powered, and no reset runs (R334, R397, R408). -/
def State.pagePowered (s : State) (p : Page) (i : Nat) : Bool :=
  s.pow.phase == .running && s.pow.on.getLsbD (pageDomain p i)

/-- A counter or CYCLES as a read returns it: the shadow while VIEW = 1 (R351). -/
def State.viewed (s : State) (p : Page) (i k now : Nat) : Nat :=
  if s.on R.PERF_CTL_VIEW then mapGet 0 s.ev.shadow (pageSlot p i * 16 + k) else now

/-- The header (R407). -/
def State.liveHdr (s : State) (f : Fld) (i j : Nat) : Option Nat :=
  let p := f.page
  match f.off with
  | 0x0 => pick f [(R.HDR_PAGE_ID_TYPE p, pageType p), (R.HDR_PAGE_ID_INSTANCE p, i)]
  | 0x4 => pick f [(R.HDR_PAGE_READY_DOMAIN p, pageDomain p i), (R.HDR_PAGE_READY_DOMAIN_ON p, b2n (s.pagePowered p i)),
      (R.HDR_PAGE_READY_READY p, b2n (s.served p i))]
  | 0x40 => some (s.viewed p i 8 (s.cycles p i))
  | 0x48 => some (s.viewed p i j (s.rd f i j))
  | _ => none

/-- The unit serial number, which is never 0 (R411). -/
def unitSerial : Nat := max 1 Config.uid.toNat

/-- GLOBAL and POWER. -/
def State.liveGlobal (s : State) (f : Fld) : Option Nat :=
  if f.off = 0x130 then some (bits s.readyWord f.lsb f.width)
  else pick f [(R.GLOBAL_UID_SERIAL, unitSerial)]

def State.livePower (s : State) (f : Fld) : Option Nat :=
  pick f [(R.POWER_SUPPLY_VIN_OK, b2n (!s.pow.vinFailed)), (R.POWER_SUPPLY_ON_HOLD, b2n s.pow.vinFailed),
    (R.POWER_SUPPLY_HOLDUP_OK, b2n s.pow.holdupOk), (R.POWER_SUPPLY_XTAL_OK, b2n s.pow.xtalOk),
    (R.POWER_DOM_EN0_FIXED, 7 + 8 * b2n (s.on R.GLOBAL_STRAP_MATE_PRESENT)),
    (R.POWER_DOM_ON0_ON, s.pow.on.toNat % 2 ^ 32), (R.POWER_DOM_ON1_ON, s.pow.on.toNat / 2 ^ 32)]

/-- The fields that show what no command carries, the converters' measurements (log entry 29) and the bit-error state of an Ethernet
port's PCS (log entry 72): a read of one takes a free value. -/
def adcFld (f : Fld) : Bool :=
  f == R.POWER_SUPPLY_VHOLD || f == R.POWER_SUPPLY_VIN || f == R.POWER_PWR_NOW_PIN || f == R.ETH_STAT_HI_BER

/-- The level of watermark `w` has reached its mark (R346). -/
def State.wmCur (s : State) (w : Nat) : Bool :=
  let mark := s.rd R.EVENT_WM_MARK 0 w
  mark != 0 && decide (mark ≤ s.wmLevel s.queueFill w)

/-- EVENT and PERF (R338, R341, R344, R346, R349, R355). -/
def State.liveEvent (s : State) (f : Fld) (j : Nat) : Option Nat :=
  match f.off with
  | 0x100 => some (maskOf 32 (fun b => s.grpPend (32 * j + b) != 0))
  | 0x400 => some (s.grpPend j)
  | 0x600 => some (maskOf 32 (fun b => mapGet 0 s.ev.chgDrw (32 * j + b) != 0))
  | 0x680 => some (maskOf 32 (fun b => mapGet 0 s.ev.chgSel (32 * j + b) != 0))
  | _ => pick f [(R.EVENT_EQ_STAT_FILL, s.ev.queue.length), (R.EVENT_WM_CUR, b2n (s.wmCur j))]

/-- Some counter of the page in slot `n` has wrapped (R349). -/
def State.pageWrapped (s : State) (n : Nat) : Bool :=
  match slotPage n with
  | none => false
  | some (p, i) => s.pageUp p i && (List.range 8).any (fun k => s.on (R.HDR_CNT_SEL_WRAP p) i k)

def State.livePerf (s : State) (f : Fld) (j : Nat) : Option Nat :=
  if f.off = 0x120 then some (maskOf 32 (fun b => s.pageWrapped (32 * j + b)))
  else pick f [(R.PERF_SNAP_STAT_FROZEN, b2n s.frozen), (R.PERF_TR_STAT_FILL, s.ev.trace.length)]

/-- MATE, MATRIX and SEQ. The sequencer runs whenever the management domain does (R336; DEDUCED, log entry 30). -/
def State.liveMate (s : State) (f : Fld) : Option Nat :=
  pick f [(R.MATE_STAT_SIDE, s.rd R.GLOBAL_STRAP_SIDE), (R.MATE_STAT_MATE_PRESENT, s.rd R.GLOBAL_STRAP_MATE_PRESENT)]

def State.liveMatrix (s : State) (f : Fld) : Option Nat :=
  pick f [(R.MATRIX_LOCK_STAT_LOCKED, maskOf 4 (fun t => (mget? s.mx.locks t).isSome))]

/-- The unit hands the token on (R317). -/
def State.tokOut (s : State) : Bool := s.chain.tokIn && s.rd R.SEQ_CHN_ADDR_ADDR != 0

def State.liveSeq (s : State) (f : Fld) : Option Nat :=
  pick f [(R.SEQ_STAT_RUNNING, b2n (s.domUp 1)), (R.SEQ_CHN_STAT_TOK_IN, b2n s.chain.tokIn),
    (R.SEQ_CHN_STAT_TOK_OUT, b2n s.tokOut), (R.SEQ_CHN_STAT_QFILL, s.chain.queue.length)]

/-- The compiler works on a request. -/
def State.mapcBusy (s : State) : Bool :=
  match s.mc.queue with
  | [] => false
  | r :: _ => s.mayTake r

/-- LANEP: RUNNING shows whether the lane sends frames; its transmitter is held while its quad is in REF_RANGE (R42, R65). -/
def State.liveLanep (s : State) (f : Fld) (n : Nat) : Option Nat :=
  pick f [(R.LANEP_STAT_RUNNING, b2n (s.running n && !s.on R.LANEP_REF_OFFSET_REF_RANGE n))]

/-- LANEF: INTEG[2] is reserved and reads 0 (R89). -/
def liveLanef (f : Fld) (j : Nat) : Option Nat := if f.off = 0x110 ∧ j = 2 then some 0 else none

/-- DFAB, MAPC, SFAB, CONF, DRAMC and EQ. -/
def State.liveMapc (s : State) (f : Fld) : Option Nat :=
  let port := s.rd R.MAPC_LOAD_IDX_PORT
  match f.off with
  | 0x104 => pick f [(R.MAPC_STAT_GROUP_EMPTY, maskOf 8 s.groupEmpty), (R.MAPC_STAT_QFREE, 256 - s.queueFill),
      (R.MAPC_STAT_BUSY, b2n s.mapcBusy)]
  | 0x134 => if f.lsb = 0 then some (s.editView.rIn port) else some (s.editView.rOut port)
  | _ => none

def State.liveFabric (s : State) (f : Fld) (i : Nat) : Option Nat :=
  match f.page with
  | .dfab => pick f [(R.DFAB_STAT_GROUP_ON, s.pow.on.toNat / 2 ^ 36 % 256)]
  | .sfab => pick f [(R.SFAB_STAT_QUARTER_ON, s.pow.on.toNat / 2 ^ 44 % 16)]
  | .conf =>
    match f.off with
    | 0x100 => some (s.editView.joined (if f.lsb = 0 then 0 else 1))
    | 0x104 => some (s.editView.joined (if f.lsb = 0 then 2 else 3))
    | _ => none
  | .dramc => pick f [(R.DRAMC_STAT_READY, b2n (i == 0 && s.dramReady))]
  | .eq => pick f [(R.EQ_STAT_CAP, s.eqCap)]
  | .mapc => s.liveMapc f
  | _ => none

/-- The value of a field that follows the hardware; none where the field is stored. -/
def State.fieldLive (s : State) (f : Fld) (i j : Nat) : Option Nat :=
  if f.off < 0x100 then s.liveHdr f i j
  else
    match f.page with
    | .global => s.liveGlobal f
    | .power => s.livePower f
    | .event => s.liveEvent f j
    | .perf => s.livePerf f j
    | .mate => s.liveMate f
    | .matrix => s.liveMatrix f
    | .seq => s.liveSeq f
    | .dfab | .mapc | .sfab | .conf | .dramc | .eq => s.liveFabric f i
    | .lanep => s.liveLanep f i
    | .lanef => liveLanef f j
    | .timing | .ntime | .secure | .bench | .prot | .pw | .eth => none

/-- What a read of field `f` returns; a write-only field reads 0 (R10). -/
def State.field (s : State) (x : FSpec) (i j : Nat) : Nat :=
  if x.acc = .wo then 0
  else if adcFld x.fld then (Config.adc (2 * s.fresh + b2n (x.fld.lsb != 0))).toNat % 2 ^ x.fld.width
  else
    match s.fieldLive x.fld i j with
    | some v => v % 2 ^ x.fld.width
    | none => s.rd x.fld i j

/-- The word of a register: each field in its place, reserved bits 0 (R15). -/
def State.word (s : State) (fs : List FSpec) (i j : Nat) : Nat :=
  fs.foldl (fun w x => w + s.field x i j * 2 ^ x.fld.lsb) 0

end Sys2Proof.Machine
end

