-- ==== Sys2Proof/Machine/Regs.lean ====
section
/-! DEFINITION. Register reads and writes as the register bridge performs them (R10 to R16, R323, R334, R406 to R410). -/
namespace Sys2Proof.Machine

/-! Writing fields (R10, R16). -/

/-- Field `x` receives its bits `v` of a written word. -/
def State.writeField (s : State) (x : FSpec) (v i j : Nat) : State :=
  let v := v % 2 ^ x.fld.width
  let set (s : State) : State := if x.lo ≤ v ∧ v ≤ x.hi then s.wr x.fld v i j else s
  match x.acc with
  | .rw | .rws => set s
  | .rwl => if s.on (R.HDR_PAGE_CTL_LOCK x.fld.page) i then s else set s
  | .w1c => s.wr x.fld (andNot x.fld.width (s.rd x.fld i j) v) i j
  | .w1s => s.wr x.fld (s.rd x.fld i j ||| v) i j
  | .wo => s.wr x.fld v i j
  | .ro | .rc => s

/-- Every field of a register receives its bits of `v`. -/
def State.writeFields (s : State) (fs : List FSpec) (v i j : Nat) : State :=
  fs.foldl (fun s x => s.writeField x (v / 2 ^ x.fld.lsb) i j) s

/-- The fields of a register that clear by writing 1, and no other. -/
def State.writeFlags (s : State) (fs : List FSpec) (v i j : Nat) : State := s.writeFields (fs.filter (fun x => x.acc == .w1c)) v i j

/-! What a write does beside setting its fields, page by page. `r` is the register, `j` its index, `v` the word. -/

/-- The header: a mask (R339), a selector's code (R348). -/
def State.writeHdr (s : State) (p : Page) (i : Nat) (r : RSpec) (j v : Nat) : State :=
  match r.off with
  | 0x18 => s.evtMaskWrite p i v
  | 0xA0 => s.writeFields (r.fields.filter (fun x => !(x.fld.lsb == 0 && decide (pageCodes p < v % 256)))) v i j
  | _ => s.writeFields r.fields v i j

def State.writeGlobal (s : State) (r : RSpec) (v : Nat) : State :=
  match r.off with
  | 0x120 => s.modeRequest (v % 8)
  | 0x140 => s.softReset v
  | _ => s.writeFields r.fields v 0 0

/-- SHED: the fields of domains that cannot be shed stay 0 (R378). -/
def shedMask (k v : Nat) : Nat :=
  (List.range 10).foldl (fun m x =>
    let d := 10 * k + x
    if (4 ≤ d ∧ d < 36) ∨ (44 ≤ d ∧ d < 56) then m + bits v (3 * x) 3 * 2 ^ (3 * x) else m) 0

def State.writePower (s : State) (r : RSpec) (j v : Nat) : State :=
  match r.off with
  | 0x110 => s.domEnWrite false v
  | 0x114 => s.domEnWrite true v
  | 0x120 => s.wr R.POWER_SHED_STAGES (shedMask j v) 0 j
  | _ => s.writeFields r.fields v 0 j

/-- WM: a mark beyond the level's maximum is no mark; STICKY sets again while the level stands (R346). -/
def State.wmWrite (s : State) (w v : Nat) : State :=
  let top := [512, 256, 16, 256].getD w 0
  let s := if v % 1024 ≤ top then s.wr R.EVENT_WM_MARK v 0 w else s
  let s := if v.testBit 30 then s.wr R.EVENT_WM_STICKY 0 0 w else s
  s.watermark w (s.wmLevel s.queueFill w)

def State.writeEvent (s : State) (r : RSpec) (j v : Nat) : State :=
  match r.off with
  | 0x110 => if v.testBit 0 then s.eqFlush else s
  | 0x130 => s.wmWrite j v
  | 0x720 => s.chgCapture v
  | _ => s.writeFields r.fields v 0 j

def State.writePerf (s : State) (r : RSpec) (j v : Nat) : State :=
  match r.off with
  | 0x100 =>
    let s := s.writeFields r.fields v 0 0
    if v.testBit 1 then (s.snapshot 1).wr R.PERF_CTL_SNAP 0 else s
  | 0x140 => s.trCtlWrite v
  | _ => s.writeFields r.fields v 0 j

/-- THRESH: a write that would put DISQ below SOFT is ignored (R253). -/
def State.threshWrite (s : State) (r : RSpec) (v : Nat) : State :=
  let t := s.writeFields r.fields v 0 0
  if t.rd R.TIMING_THRESH_DISQ < t.rd R.TIMING_THRESH_SOFT then s else t

/-- REF_CFG of reference `j` has the field at bit `lsb`: KIND on references 0 to 7, LANE on 8 to 11, the others on every one. -/
def refHas (lsb j : Nat) : Bool := if lsb = 5 then decide (j < 8) else if lsb = 8 then 8 ≤ j && decide (j < 12) else true

def State.writeTiming (s : State) (r : RSpec) (j v : Nat) : State :=
  match r.off with
  | 0x104 => s.threshWrite r v
  | 0x120 => (((s.writeFields (r.fields.filter (fun x => refHas x.fld.lsb j)) v 0 j).refOff j).refFollow j).refEvent j false
  | _ => s.writeFields r.fields v 0 j

/-- ACT_CTL (R284): an ARM with a reserved ACTION is ignored whole. -/
def State.actWrite (s : State) (r : RSpec) (j v : Nat) : State :=
  let a := v % 16
  let bad := a == 0 || decide (5 ≤ a)
  if v.testBit 5 && bad then s.wr R.NTIME_ACT_CTL_ERR 1 0 j
  else
    let s := s.writeFlags r.fields v 0 j
    let s := if v.testBit 6 then s.actCancel j else s
    if v.testBit 5 then s.actArm j a (v.testBit 4)
    else
      let s := s.wr R.NTIME_ACT_CTL_DROP_LATE (v / 16) 0 j
      if bad then s else s.wr R.NTIME_ACT_CTL_ACTION a 0 j

/-- STEP_CTL (R280). -/
def State.stepWrite (s : State) (r : RSpec) (v : Nat) : State :=
  let s := s.writeFields (r.fields.filter (fun x => x.acc != .wo)) v 0 0
  if v.testBit 0 then s.stepGo (v.testBit 2) (v.testBit 1) else s

def State.writeNtime (s : State) (r : RSpec) (j v : Nat) : State :=
  match r.off with
  | 0x12C => s.stepWrite r v
  | 0x134 => s.samplePush v
  | 0x208 => s.actWrite r j v
  | 0x100 => (s.writeFields r.fields v 0 j).slewFollow
  | 0x160 => (s.writeFields r.fields v 0 j).ppsFollow
  | _ => s.writeFields r.fields v 0 j

/-- MATE.CTL: settings, then DX_EN (R290), then the commands. -/
def State.mateCtlWrite (s : State) (r : RSpec) (v : Nat) : State :=
  let s := s.writeFields (r.fields.filter (fun x => x.acc == .rws && x.fld.lsb != 6)) v 0 0
  let s := if !v.testBit 6 then (s.wr R.MATE_CTL_DX_EN 0).resetMasters [3] else s.dxEnable
  let s := if v.testBit 1 then s.pullAsk else s
  let s := if v.testBit 2 then s.swapAsk else s
  if v.testBit 3 then s.joinAsk else s

def State.writeMate (s : State) (r : RSpec) (j v : Nat) : State :=
  match r.off with
  | 0x100 => s.mateCtlWrite r v
  | _ => s.writeFields r.fields v 0 j

/-- The key of WD_KICK. -/
def kickKey : Nat := 0x5EEDC0DE

/-- The watchdog's period starts again. -/
def State.kick (s : State) : State := { s with mx := { s.mx with kickAt := s.now } }

/-- SEQ: REMAP takes a write of M2 only (R327); the key restarts the watchdog's period, and so does its enable (R336). -/
def State.writeSeq (s : State) (m : Nat) (r : RSpec) (v : Nat) : State :=
  match r.off with
  | 0x100 =>
    let s := if v.testBit 8 && !s.on R.SEQ_CTL_WD_EN then s.kick else s
    let s := s.wr R.SEQ_CTL_WD_EN (v / 256)
    if m = 2 then s.wr R.SEQ_CTL_REMAP v else s
  | 0x108 => if v = kickKey then s.kick else s
  | _ => s.writeFields r.fields v 0 0

def State.writeSecure (s : State) (r : RSpec) (j v : Nat) : State :=
  match r.off with
  | 0x208 =>
    let s := s.writeFlags r.fields v 0 0
    if v.testBit 8 then s.lcGo (v % 4) else s.lcUsed
  | 0x220 => s.enforceWrite (v.testBit 0)
  | 0x260 => s.keyCmd (v % 4)
  | 0x2A0 => if v.testBit 0 then s.respond else s
  | _ => s.writeFields r.fields v 0 j

def State.writeDramc (s : State) (c : Nat) (r : RSpec) (j v : Nat) : State :=
  match r.off with
  | 0x100 => s.dramCfgWrite c v
  | 0x180 => s.winWrite j v
  | _ => s.writeFields r.fields v c j

def State.writeBench (s : State) (r : RSpec) (v : Nat) : State :=
  match r.off with
  | 0x104 => if v % 8 = 0 then s else s.benchCmd (v % 8)
  | _ => s.writeFields r.fields v 0 0

/-- LANEP.CTL: the rate is judged against the EN that stood (R43), then EN, then LOOP. -/
def State.laneCtlWrite (s : State) (n v : Nat) : State :=
  let s := s.rateWrite n (bits v 1 2)
  let s := if v.testBit 0 then s.laneEnSet n else if s.on R.LANEP_CTL_EN n then s.laneEnClear n else s
  s.loopWrite n (bits v 4 2)

/-- LANEP.EYE_CTL. One word that sets both ABORT and START aborts first and then starts (DESIGN CHOICE, log entry 92). -/
def State.eyeWrite (s : State) (n : Nat) (r : RSpec) (v : Nat) : State :=
  let s := s.writeFields (r.fields.filter (fun x => x.acc != .wo)) v n 0
  let s := if v.testBit 1 then s.eyeStop n else s
  if v.testBit 0 then s.eyeStart n else s

def State.writeLanep (s : State) (n : Nat) (r : RSpec) (j v : Nat) : State :=
  match r.off with
  | 0x100 => s.laneCtlWrite n v
  | 0x110 => if v.testBit 0 then s.eqLoad n else s
  | 0x130 => s.eyeWrite n r v
  | _ => s.writeFields r.fields v n j

/-- The lane defect and the drawer defect of a bit. -/
def allLaneDefects : List LaneDefect := [.los, .lol, .oof, .lof, .ais, .rdi, .tim, .sd, .exc, .frx, .stv]
def allDrawerDefects : List DrawerDefect := [.lop, .dAis, .dUneq, .dPlm, .dRdi, .dSd, .dExc, .dTagx, .dJce]

/-- MSG_PTR: a pointer moves only while its ring's enable bit is 0. -/
def State.ptrWrite (s : State) (n v : Nat) : State :=
  let s := if s.on R.LANEF_MSG_CTL_TX_EN n then s else s.wr R.LANEF_MSG_PTR_TX_WR (v / 2 ^ 24) n
  if s.on R.LANEF_MSG_CTL_RX_EN n then s else s.wr R.LANEF_MSG_PTR_RX_RD v n

def State.writeLanef (s : State) (n : Nat) (r : RSpec) (j v : Nat) : State :=
  match r.off with
  | 0x110 => s.integWrite n (.lane (allLaneDefects.getD j .oof)) (v % 256) (v / 256 % 256)
  | 0x320 => s.integWrite n (.drawer (allDrawerDefects.getD j .dJce)) (v % 256) (v / 256 % 256)
  | 0x184 => s.ptrWrite n v
  | 0x304 =>
    let s := s.writeFlags r.fields v n 0
    if v % 8 = 0 then s else s.drwCmd n (v % 8)
  | _ => s.writeFields r.fields v n j

/-- LIST_CTL (R129). -/
def State.listWrite (s : State) (v : Nat) : State :=
  let s := if v.testBit 1 then s.listAbort else s
  if v.testBit 0 then s.listStart else s

def State.writeMapc (s : State) (r : RSpec) (j v : Nat) : State :=
  match r.off with
  | 0x100 => s.planeEnWrite (v % 256)
  | 0x10C => s.reqPush v
  | 0x118 => s.listWrite v
  | 0x140 => s.commitCtlWrite v
  | 0x148 => if s.on R.MAPC_COMMIT_STAT_PENDING then s.commitRefused else s.writeFields r.fields v 0 j
  | _ => s.writeFields r.fields v 0 j

def State.writeProt (s : State) (r : RSpec) (j v : Nat) : State :=
  match r.off with
  | 0x104 =>
    let s := s.writeFlags r.fields v 0 0
    if v % 16 = 0 then s else s.sCmd v
  | 0x200 => s.gCfgWrite j v
  | 0x204 => s.grpCommand j (v % 8)
  | _ => s.writeFields r.fields v 0 j

/-- SFAB, CONF, EQ and PW: the command registers of their ports. -/
def State.writePort (s : State) (p : Page) (r : RSpec) (j v : Nat) : State :=
  let flags := s.writeFlags r.fields v 0 j
  match p, r.off with
  | .sfab, 0x114 => if v % 8 = 0 then s else s.gCmd (v % 8)
  | .conf, 0x114 => if v % 8 = 0 then s else s.confCmd (v % 8)
  | .eq, 0x114 => if v % 8 = 0 then flags else flags.qCmd (v % 8)
  | .pw, 0x114 => if v % 8 = 0 then flags else flags.cCmd (v % 8)
  | .pw, 0x144 => if v % 8 = 0 then flags else flags.tCmd (v % 8)
  | _, _ => s.writeFields r.fields v 0 j

/-- ETH: a ring's base and size change only while the ring is disabled. -/
def State.writeEth (s : State) (n : Nat) (r : RSpec) (j v : Nat) : State :=
  match r.off with
  | 0x104 => s.ethEnWrite n v
  | 0x140 | 0x144 => if s.on R.ETH_EN_HTX_EN n then s else s.writeFields r.fields v n j
  | 0x150 | 0x154 => if s.on R.ETH_EN_HRX_EN n then s else s.writeFields r.fields v n j
  | 0x158 => State.rxDrain (s.eth n).rxq.length n (s.writeFields r.fields v n j)
  | _ => s.writeFields r.fields v n j

/-- A whole register is written: its fields and what the write sets off. -/
def State.regSet (s : State) (m : Nat) (p : Page) (i : Nat) (r : RSpec) (j v : Nat) : State :=
  if r.off < 0x100 then s.writeHdr p i r j v
  else
    match p with
    | .global => s.writeGlobal r v
    | .power => s.writePower r j v
    | .event => s.writeEvent r j v
    | .perf => s.writePerf r j v
    | .timing => s.writeTiming r j v
    | .ntime => s.writeNtime r j v
    | .mate => s.writeMate r j v
    | .seq => s.writeSeq m r v
    | .secure => s.writeSecure r j v
    | .dramc => s.writeDramc i r j v
    | .bench => s.writeBench r v
    | .lanep => s.writeLanep i r j v
    | .lanef => s.writeLanef i r j v
    | .mapc => s.writeMapc r j v
    | .prot => s.writeProt r j v
    | .sfab | .conf | .eq | .pw => s.writePort p r j v
    | .eth => s.writeEth i r j v
    | .matrix | .dfab => s.writeFields r.fields v i j

/-- The register at offset `o` of page `p`, instance `i`; the windows belong to channel 0 alone. -/
def regOf (p : Page) (i o : Nat) : Option (RSpec × Nat) :=
  if p = .dramc ∧ i = 1 ∧ 0x180 ≤ o then none else regAt p o

/-! The 32-bit accesses of the bridge. Bus address `a`; master `m`. -/

/-- Whether the page answers at offset `o`: PAGE_ID and PAGE_READY always (R334, R408). -/
def State.answers (s : State) (p : Page) (i o : Nat) : Bool := s.served p i || decide (o < 8)

/-- The word of a register as it is written, never a shadow (R14, R351). -/
def State.ownWord (s : State) (fs : List FSpec) (i j : Nat) : Nat := (s.wr R.PERF_CTL_VIEW 0).word fs i j

/-- A write of one word: the state after it, and the cause of an error response (0 for none). A lower word of a 64-bit register is
held for the write of its upper word (R14). -/
def State.regWrite (s : State) (m a v : Nat) : State × Nat :=
  match pageAt a with
  | none => (s, cDEFAULT)
  | some (p, i, o) =>
    if !s.answers p i o then (s, cDOMOFF)
    else
      match regOf p i o with
      | none => (s, 0)
      | some (r, j) =>
        if !r.w64 then (s.regSet m p i r j (v % 2 ^ 32), 0)
        else if o / 4 % 2 = 0 then ({ s with heldLo := mput s.heldLo (a / 4 * 4) (v % 2 ^ 32) }, 0)
        else
          let b := a / 4 * 4 - 4
          let lo := match mget? s.heldLo b with
            | some x => x
            | none => s.ownWord r.fields i j % 2 ^ 32
          ({ s with heldLo := mdel s.heldLo b }.regSet m p i r j (v % 2 ^ 32 * 2 ^ 32 + lo), 0)

/-- The fields that clear when they are read (R13). -/
def State.clearRead (s : State) (fs : List FSpec) (i j : Nat) : State :=
  (fs.filter (fun x => x.acc == .rc)).foldl (fun s x => s.wr x.fld 0 i j) s

/-- A read of a register's word, and what the read sets off: the heads of the queues (R344, R355), the captured time (R271), fields
that clear. -/
def State.regGet (s : State) (user : Bool) (p : Page) (i : Nat) (r : RSpec) (j : Nat) : State × Nat :=
  match p, r.off with
  | .event, 0x118 => s.eqPop
  | .perf, 0x150 => if j = 0 then s.tracePop else (s, s.word r.fields i j)
  | .ntime, 0x110 => s.timeRead
  | _, _ =>
    let w := s.word r.fields i j
    let s := if r.fields.any (fun x => adcFld x.fld) then s.takeFresh else s
    (if user then s else s.clearRead r.fields i j, w)

/-- A read of one word: the state after it, the word, and the cause of an error response. The lower word of a 64-bit register
captures the upper one (R14). `user` marks a read through BAR2 (R323). -/
def State.regRead (s : State) (user : Bool) (a : Nat) : State × Nat × Nat :=
  match pageAt a with
  | none => (s, 0, cDEFAULT)
  | some (p, i, o) =>
    if user && (!s.on R.GLOBAL_PRIV_PERF_USER || decide (0x100 ≤ o)) then (s, 0, cUSER)
    else if !s.answers p i o then (s, 0, cDOMOFF)
    else
      match regOf p i o with
      | none => (s, 0, 0)
      | some (r, j) =>
        if r.w64 && o / 4 % 2 == 1 then (s, mapGet 0 s.capHi (a / 4 * 4 - 4), 0)
        else
          let t := s.regGet user p i r j
          let s := if r.w64 then { t.1 with capHi := mapSet 0 t.1.capHi (a / 4 * 4) (t.2 / 2 ^ 32) } else t.1
          (s, t.2 % 2 ^ 32, 0)

/-! The register commands. -/

/-- The management domain is on and no hard reset runs: a master can reach the registers. -/
def State.busUp (s : State) : Bool := s.domUp 1 && (s.pow.phase == .running || s.pow.phase == .soft)

/-- A register write by M0, with its error response recorded (R333). -/
def State.hostWriteReg (s : State) (a v : Nat) : State :=
  if !s.busUp then s
  else
    let t := s.regWrite 0 a v
    if t.2 = 0 then t.1 else (t.1.busErr 0 (errTarget 0 t.2) a t.2).emit (.busError a t.2)

/-- A register read by M0. -/
def State.hostReadReg (s : State) (user : Bool) (a : Nat) : State :=
  if !s.busUp then s
  else
    let t := s.regRead user a
    if t.2.2 = 0 then t.1.emit (.read a t.2.1) else (t.1.busErr 0 (errTarget 0 t.2.2) a t.2.2).emit (.busError a t.2.2)

/-- REG_WRITE (R10). -/
def execRegWrite (addr v : W32) (s : State) : Host.Outcome State Fault Refusal := ok (s.start.hostWriteReg addr.toNat v.toNat)

/-- RC_READ (R13). -/
def execRcRead (user : Bool) (addr : W32) (s : State) : Host.Outcome State Fault Refusal := ok (s.start.hostReadReg user addr.toNat)

/-- WORD64_LOWER_READ (R14). -/
def execWord64LowerRead (addr : W32) (s : State) : Host.Outcome State Fault Refusal :=
  ok (s.start.hostReadReg false (addr.toNat / 8 * 8))

/-- WORD64_LOWER_WRITE (R14). -/
def execWord64LowerWrite (addr v : W32) (s : State) : Host.Outcome State Fault Refusal :=
  ok (s.start.hostWriteReg (addr.toNat / 8 * 8) v.toNat)

/-- WORD64_UPPER_WRITE (R14). -/
def execWord64UpperWrite (addr v : W32) (s : State) : Host.Outcome State Fault Refusal :=
  ok (s.start.hostWriteReg (addr.toNat / 8 * 8 + 4) v.toNat)

/-- Bit `b` of a status register that clears by writing 1 is set by the hardware: as the event that it is in EVT_STATUS (R337), as a
level that has reached its mark in WM's STICKY, which raises WM (R346). -/
def State.hwBit (s : State) (p : Page) (i : Nat) (r : RSpec) (j : Nat) (x : FSpec) (b : Nat) : State :=
  if r.off = 0x10 then s.raise p i b
  else if (p, r.off) = (.event, 0x130) && !s.on R.EVENT_WM_STICKY 0 j then (s.wr R.EVENT_WM_STICKY 1 0 j).raise .event 0 2
  else s.wr x.fld (setBit (s.rd x.fld i j) (b - x.fld.lsb)) i j

/-- The bits that the hardware sets in the cycle of a write (R12): they end set in the fields that clear by writing 1, and none of the
events behind them is lost. -/
def State.hwSet (s : State) (a set : Nat) : State :=
  match pageAt a with
  | none => s
  | some (p, i, o) =>
    if !s.served p i then s
    else
      match regOf p i o with
      | none => s
      | some (r, j) =>
        let set := if r.off = 0x10 then set % 2 ^ pageEvents p else set
        (r.fields.filter (fun x => x.acc == .w1c)).foldl
          (fun s x => ((List.range x.fld.width).filter (fun k => set.testBit (x.fld.lsb + k))).foldl
            (fun s k => s.hwBit p i r j x (x.fld.lsb + k)) s) s

/-- W1C_WRITE (R12). -/
def execW1cWrite (addr v set : W32) (s : State) : Host.Outcome State Fault Refusal :=
  ok ((s.start.hostWriteReg addr.toNat v.toNat).hwSet addr.toNat set.toNat)

/-- PAGE_LOCK (R409). -/
def execPageLock (p : Page) (i : Nat) (s : State) : Host.Outcome State Fault Refusal :=
  let s := s.start
  if s.pageServed p i then ok (s.wr (R.HDR_PAGE_CTL_LOCK p) 1 i) else ok s

end Sys2Proof.Machine
end

