-- ==== Sys2Proof/Machine/Ports.lean ====
section
/-! DEFINITION. The end of a command at an indirect port (R115, R142, R144, R157, R184, R215, R232, R236, R404). -/
namespace Sys2Proof.Machine

/-- The command `c` of port `p` takes its effect. -/
def State.portDone (s : State) (p : Port) (c : PortCmd) : State :=
  match p with
  | .drw n => s.drwDone n.val c
  | .bench => s.benchDone c
  | .sfab => s.gDone c
  | .conf => s.confDone c
  | .prot => s.sDone c
  | .eq => s.qDone c
  | .pwCtx => s.ctxDone c
  | .pwTpl => s.tplDone c

/-- INDIRECT_COMMAND_DONE: the command in progress ends. -/
def execIndirectCommandDone (p : Port) (s : State) : Host.Outcome State Fault Refusal :=
  let s := s.start
  match mget? s.ports (portKey p) with
  | none => ok s
  | some c => ok (s.portDone p c)

/-- The ERR bit of a port, where it has one. -/
def portErr (p : Port) : Option (Fld × Nat) :=
  match p with
  | .drw n => some (R.LANEF_DRW_CMD_ERR, n.val)
  | .prot => some (R.PROT_S_CMD_ERR, 0)
  | .eq => some (R.EQ_Q_CMD_ERR, 0)
  | .pwCtx => some (R.PW_C_CMD_ERR, 0)
  | .pwTpl => some (R.PW_T_CMD_ERR, 0)
  | .bench | .sfab | .conf => none

/-- Page slot of a port, as RECOV_INFO names it. -/
def portSlot (p : Port) : Nat :=
  match p with
  | .drw n => pageSlot .lanef n.val
  | .bench => pageSlot .bench 0
  | .sfab => pageSlot .sfab 0
  | .conf => pageSlot .conf 0
  | .prot => pageSlot .prot 0
  | .eq => pageSlot .eq 0
  | .pwCtx | .pwTpl => pageSlot .pw 0

/-- The command of a port is abandoned: BUSY clears, ERR sets, and nothing is written (R404). -/
def State.portAbandon (s : State) (p : Port) : State :=
  let s := s.portFree p
  let s := match portErr p with
    | some f => s.wr f.1 1 f.2
    | none => s
  s.recover 9 (portSlot p)

/-- INDIRECT_PORT_TIMEOUT: 10 µs, 6,000 control cycles, after BUSY set (R404). -/
def execIndirectPortTimeout (p : Port) (s : State) : Host.Outcome State Fault Refusal :=
  let s := s.start
  if s.portBusy p && s.ran (.port (portKey p)) 6000 then ok (s.portAbandon p) else ok s

end Sys2Proof.Machine
end

