-- ==== Sys2Proof/Machine/Bus.lean ====
section
/-! DEFINITION. One transaction on the bus matrix: its target, and what it does there (R326, R327, R333, R334, R356 to R361, R412). -/
namespace Sys2Proof.Machine

/-- Target and address there of an address that master `m` issues: the control class sees the view of R327. -/
def State.resolve (s : State) (m a : Nat) : Nat × Nat :=
  if m = 2 ∨ m = 4 then
    match ctlView (s.on R.SEQ_CTL_REMAP) a with
    | .host h => (hostTarget h, h)
    | .rom o => (5, o)
    | .default => (defaultTarget, a)
  else (hostTarget a, a)

/-- A transaction as it is issued now. -/
def State.issue (s : State) (m a : Nat) (write : Bool) (data : List Byte) (len : Nat) : BusReq :=
  let t := s.resolve m a
  { m := m, addr := a, target := t.1, loc := t.2, write := write, data := data, len := len, issued := s.now }

/-- Reads of `n` words by the register bridge from address `a` on, in ascending order; the first error ends them (R334). -/
def State.bridgeRead (user : Bool) (n a : Nat) (s : State) : Resp :=
  match n with
  | 0 => ⟨s, [], 0⟩
  | n + 1 =>
    let t := s.regRead user a
    if t.2.2 != 0 then ⟨t.1, [], t.2.2⟩
    else
      let u := State.bridgeRead user n (a + 4) t.1
      ⟨u.s, leBytes 4 t.2.1 ++ u.data, u.cause⟩

/-- Writes of the words of `bs` by the register bridge, likewise. -/
def State.bridgeWrite (m n a : Nat) (bs : List Byte) (s : State) : Resp :=
  match n with
  | 0 => ⟨s, [], 0⟩
  | n + 1 =>
    let t := s.regWrite m a (ofLe (bs.take 4))
    if t.2 != 0 then ⟨t.1, [], t.2⟩ else State.bridgeWrite m n (a + 4) (bs.drop 4) t.1

/-- An access to T0. A write that does not cover whole words is refused whole (R334); the user view is read-only (R323). -/
def State.bridge (s : State) (r : BusReq) : Resp :=
  if (pageAt r.loc).isNone then ⟨s, [], cDEFAULT⟩
  else if r.write then
    if r.user then ⟨s, [], cUSER⟩
    else if r.loc % 4 != 0 || r.data.length % 4 != 0 then ⟨s, [], cPARTIAL⟩
    else s.bridgeWrite r.m (r.data.length / 4) r.loc r.data
  else
    let o := r.loc % 4
    let t := s.bridgeRead r.user ((o + r.len + 3) / 4) (r.loc / 4 * 4)
    ⟨t.s, sliceBytes t.data o r.len, t.cause⟩

/-- The default target answers it: an address of no target, or an access that the table does not admit (R326). -/
def BusReq.byDefault (r : BusReq) : Bool := r.target == defaultTarget || !admits r.m r.target r.write

/-- What a transaction does at its target. -/
def State.atTarget (s : State) (r : BusReq) : Resp :=
  if r.target = defaultTarget then ⟨s, [], cDEFAULT⟩
  else if !admits r.m r.target r.write then ⟨s, [], cDENIED⟩
  else
    match r.target with
    | 0 => s.bridge r
    | 1 => if r.write then s.cmWriteBus false r.loc r.data else s.cmReadBus false r.loc r.len
    | 2 => if r.write then s.cmWriteBus true r.loc r.data else s.cmReadBus true r.loc r.len
    | 3 => if r.write then s.spWriteBus r.loc r.data else s.spReadBus r.loc r.len
    | 4 => if r.write then s.winWriteBus r.loc r.data else s.winReadBus r.loc r.len
    | _ => ⟨s, (List.range r.len).map (fun i => Config.rom (r.loc + i)), 0⟩

/-- A read that ends with an error returns 0 (R333). -/
def Resp.readZero (t : Resp) (r : BusReq) : Resp :=
  if t.cause = 0 || r.write then t else { t with data := List.replicate r.len 0 }

/-- The target number under which an error response is recorded: the default target answers what belongs to no target, and what the
table does not admit (R326, R333). -/
def errNumber (r : BusReq) (cause : Nat) : Nat :=
  if cause = cDEFAULT ∨ r.byDefault then defaultTarget else r.target

/-- An error response is recorded (R333). -/
def State.noteErr (s : State) (r : BusReq) (cause : Nat) : State :=
  if cause = 0 then s else s.busErr r.m (errNumber r cause) r.addr cause

/-- A transaction that its target answers in the same command: M1's and those of the default target. -/
def State.transact (s : State) (r : BusReq) : Resp :=
  let s := if r.byDefault then s else s.count .matrix 0 1
  let t := (s.atTarget r).readZero r
  { t with s := t.s.noteErr r t.cause }

/-- The target takes no grant: a transaction is in flight at it, another master has locked it, or the scratchpad is not initialised
(R328, R331, R357). -/
def State.targetBusy (s : State) (m t : Nat) : Bool :=
  (mget? s.mx.inflight t).isSome ||
  (match mget? s.mx.locks t with
   | some h => h != m
   | none => false) ||
  (t == 3 && !s.spReady)

/-! Answers to the host port (R325). -/

/-- The transactions of a non-posted request that are still to come, given the data read so far. -/
def withData (tag : Nat) (data : List Byte) (r : BusReq) : BusReq := if r.tag = some tag then { r with pre := data } else r

/-- A transaction that no longer serves tag `tag`: its response, when it comes, is discarded. -/
def BusReq.orphan (tag : Nat) (r : BusReq) : BusReq := if r.tag = some tag then { r with tag := none } else r

/-- Whatever the matrix still holds for tag `tag` serves it no longer. -/
def State.forgetTag (s : State) (tag : Nat) : State :=
  { s with mx := { s.mx with
      waiting := s.mx.waiting.map (BusReq.orphan tag)
      inflight := s.mx.inflight.map (fun e => (e.1, { e.2 with req := e.2.req.orphan tag })) } }

/-- The endpoint completes tag `tag`; a tag that has been completed is not completed again, whatever answers late. -/
def State.complete (s : State) (tag status : Nat) (data : List Byte) : State :=
  if s.pcie.owed.contains tag then
    ({ s with pcie := { s.pcie with owed := s.pcie.owed.erase tag } }.forgetTag tag).emit (.completion tag status data)
  else s

/-- A transaction's response reaches its master: M0's reads become completions; the others' leave as data. -/
def State.answer (s : State) (r : BusReq) (data : List Byte) (cause : Nat) : State :=
  match r.tag with
  | none => if r.write || r.m == 0 then s else if cause != 0 then s.emit (.busError r.addr cause) else s.emit (.read r.addr (ofLe data))
  | some tag =>
    if cause != 0 then s.complete tag 4 []
    else if r.more then { s with mx := { s.mx with waiting := s.mx.waiting.map (withData tag (r.pre ++ data)) } }
    else s.complete tag 0 (r.pre ++ data ++ List.replicate r.pad 0)

/-- A transaction is issued: one for the default target is answered at once (R333), any other waits for its target's arbiter. -/
def State.enter (s : State) (r : BusReq) : State :=
  if r.byDefault then
    let t := s.transact r
    t.s.answer r t.data t.cause
  else { s with mx := { s.mx with waiting := s.mx.waiting ++ [r] } }

end Sys2Proof.Machine
end

