-- ==== Sys2Proof/Machine/Chain.lean ====
section
/-! DEFINITION. The Icusk chain (R309 to R320, R339, R387): the repeater, the command queue and its answers. -/
namespace Sys2Proof.Machine

/-! Fields of a frame (R311). -/

def fUnit (f : BitVec 96) : Nat := bits f.toNat 90 6
def fOp (f : BitVec 96) : Nat := bits f.toNat 86 4
def fTag (f : BitVec 96) : Nat := bits f.toNat 82 4
def fTaken (f : BitVec 96) : Bool := f.getLsbD 81
def fArm (f : BitVec 96) : Bool := f.getLsbD 80
def fAddr (f : BitVec 96) : Nat := bits f.toNat 48 32
def fData (f : BitVec 96) : Nat := bits f.toNat 16 32

/-- The CRC of a frame is right. -/
def fCrcOk (f : BitVec 96) : Bool := f.toNat % 65536 == crc16 (beBits 80 (f.toNat / 65536))

/-- The opcodes (R312). -/
def opENUM : Nat := 1
def opRD : Nat := 2
def opWR : Nat := 3
def opOK : Nat := 4
def opERR : Nat := 5
def opNOTIFY : Nat := 6
def opRESET : Nat := 7
def opWAKE : Nat := 8

/-- An opcode of the table. -/
def opKnown (op : Nat) : Bool := decide (1 ≤ op) && decide (op ≤ 8)

/-- The error codes of RESP_ERR (R315). -/
def eBUSY : Nat := 1
def eBUS : Nat := 2
def eBADOP : Nat := 3
def eRESET : Nat := 4
def eDOWN : Nat := 5
def eALIGN : Nat := 6

/-- The other side. -/
def otherSide (d : ChainSide) : ChainSide := if d = .inp then .outp else .inp

/-! Sending (R314). -/

/-- A frame to be forwarded out of `side`: at once when the outputs are free, else through the forwarding buffer; a full buffer drops
it. -/
def State.forward (s : State) (side : ChainSide) (f : BitVec 96) : State :=
  if s.chain.fwd.isEmpty && decide (s.chain.txFree ≤ s.now) then (s.chainSend side f true s.now).count .seq 0 1
  else if s.chain.fwd.length < 4 then
    ({ s with chain := { s.chain with fwd := s.chain.fwd ++ [(side, f)] } }.count .seq 0 1).chainPump s.now
  else (s.count .seq 0 3).raise .seq 0 2

/-- The side out of which the answer to a frame from `side` goes: back to the host side in arm mode, the output pairs in ring mode. -/
def answerSide (side : ChainSide) (f : BitVec 96) : ChainSide := if fArm f then side else .outp

/-- The answer to frame `f` (R315). -/
def State.chainRespond (s : State) (side : ChainSide) (f : BitVec 96) (op data : Nat) : State :=
  s.chainOwn (answerSide side f) (chainFrame (s.rd R.SEQ_CHN_ADDR_ADDR) op (fTag f) false (fArm f) (fAddr f) data)

/-! Commands (R315, R316, R319). -/

/-- A hard or a soft reset is running. -/
def State.inReset (s : State) : Bool := s.pow.phase == .resetN || s.pow.phase == .soft

/-- The command queue takes a frame; WM2 follows its fill (R346). -/
def State.chainEnqueue (s : State) (side : ChainSide) (f : BitVec 96) : State :=
  let head := if s.chain.queue.isEmpty then s.now else s.chain.headAt
  let s := { s with chain := { s.chain with queue := s.chain.queue ++ [(side, f)], headAt := head } }
  s.watermark 2 s.chain.queue.length

/-- An RD or WR addressed to this unit: queued, or answered with an error. -/
def State.chainCommand (s : State) (side : ChainSide) (f : BitVec 96) : State :=
  if s.inReset then s.chainRespond side f opERR eRESET
  else if !s.domUp 1 then s.chainRespond side f opERR eDOWN
  else if fAddr f % 4 != 0 then s.chainRespond side f opERR eALIGN
  else if 16 ≤ s.chain.queue.length then (s.chainRespond side f opERR eBUSY).raise .seq 0 3
  else s.chainEnqueue side f

/-- A broadcast WR: queued by a unit that holds an address, and answered by none. -/
def State.chainBroadcast (s : State) (side : ChainSide) (f : BitVec 96) : State :=
  if s.rd R.SEQ_CHN_ADDR_ADDR = 0 ∨ s.inReset ∨ !s.domUp 1 ∨ fAddr f % 4 ≠ 0 ∨ 16 ≤ s.chain.queue.length then s
  else s.chainEnqueue side f

/-- CHN_STAT.ARM: whether the last frame acted on was in arm mode. -/
def State.acted (s : State) (f : BitVec 96) : State := s.wrB R.SEQ_CHN_STAT_ARM (fArm f)

/-- WAKE: answered with RESP_OK where it names this unit (R319), and wakes the unit from SLEEP (R387). -/
def State.chainWakeIn (s : State) (side : ChainSide) (f : BitVec 96) (own : Bool) : State :=
  let s := if own then s.chainRespond side f opOK 0 else s
  s.wake 2

/-- What a frame addressed to this unit alone does. -/
def State.chainOwnFrame (s : State) (side : ChainSide) (f : BitVec 96) : State :=
  let s := s.acted f
  let op := fOp f
  if op = opRD ∨ op = opWR then s.chainCommand side f
  else if op = opWAKE then s.chainWakeIn side f true
  else s.chainRespond side f opERR eBADOP

/-- What a broadcast does: WR, RESET_ADDR and WAKE act. -/
def State.chainBroadcastFrame (s : State) (side : ChainSide) (f : BitVec 96) : State :=
  let op := fOp f
  if op = opWR then (s.acted f).chainBroadcast side f
  else if op = opRESET then (s.acted f).wr R.SEQ_CHN_ADDR_ADDR 0
  else if op = opWAKE then (s.acted f).chainWakeIn side f false
  else s

/-- A frame addressed to this unit that it takes off the ring: RD, WR, WAKE, or a reserved opcode (R313, R314). -/
def State.chainMine (s : State) (f : BitVec 96) : Bool :=
  let a := s.rd R.SEQ_CHN_ADDR_ADDR
  a != 0 && fUnit f == a && (fOp f == opRD || fOp f == opWR || fOp f == opWAKE || !opKnown (fOp f))

/-! The repeater. -/

/-- Enumeration in ring mode (R317): the frame to be forwarded, and the state after a unit has taken the address it offers. -/
def State.enumerate (s : State) (f : BitVec 96) : State × BitVec 96 :=
  let d := fData f % 64
  if s.rd R.SEQ_CHN_ADDR_ADDR = 0 ∧ s.chain.tokIn ∧ !fTaken f ∧ 1 ≤ d ∧ d ≤ 62 then
    (((s.acted f).wr R.SEQ_CHN_ADDR_ADDR d).raise .seq 0 4,
     chainFrame (fUnit f) (fOp f) (fTag f) true (fArm f) (fAddr f) (fData f))
  else (s, f)

/-- A frame that this unit acts on and takes off the ring though it names every unit: RESET_ADDR while it holds an address, WAKE that
wakes it (R314; log entry 55). -/
def State.chainTakes (s : State) (f : BitVec 96) : Bool :=
  fUnit f == 63 && ((fOp f == opRESET && s.rd R.SEQ_CHN_ADDR_ADDR != 0) ||
    (fOp f == opWAKE && s.mode == mSLEEP && s.pow.waking.isNone && s.pow.phase == .running))

/-- A good frame in ring mode: it came in on the input pairs. A broadcast WR and an ENUM travel on (R314, R316, R317). -/
def State.ringFrame (s : State) (side : ChainSide) (f : BitVec 96) : State :=
  if side = .outp then s
  else if fOp f = opENUM then
    let t := s.enumerate f
    t.1.forward .outp t.2
  else if s.chainMine f then s.chainOwnFrame side f
  else
    let t := if fUnit f = 63 then s.chainBroadcastFrame side f else s
    if s.chainTakes f then t else t.forward .outp f

/-- A good frame in arm mode (R320): a command makes its side the host side, acts where it is addressed, and travels on; a response
goes towards the host side; an ENUM is forwarded only. -/
def State.armFrame (s : State) (side : ChainSide) (f : BitVec 96) : State :=
  let op := fOp f
  if op = opOK ∨ op = opERR ∨ op = opNOTIFY then s.forward (s.chain.hostSide.getD (otherSide side)) f
  else if op = opENUM then s.forward (otherSide side) f
  else
    let s := if op = opRD ∨ op = opWR ∨ op = opRESET then { s with chain := { s.chain with hostSide := some side } } else s
    let s := s.forward (otherSide side) f
    if s.chainMine f then s.chainOwnFrame side f else if fUnit f = 63 then s.chainBroadcastFrame side f else s

/-- Control cycles that a receiver needs after its clock has come back before a whole frame can have followed: 16 idle edges and 97 bits
at 250 Mbit/s (R310; log entry 31). -/
def resyncCycles : Nat := 272

/-- The receiver of `side` has accepted start bits again. -/
def State.synced (s : State) (side : ChainSide) : Bool :=
  s.chain.resync.all (fun e => e.1 != side || decide (e.2 + resyncCycles ≤ s.now))

/-- The repeater receives a frame on `side` (R313): one that fails its CRC is counted and forwarded unchanged. -/
def State.chainIn (s : State) (side : ChainSide) (f : BitVec 96) : State :=
  if s.pow.phase = .unpowered ∨ !s.synced side then s
  else if !fCrcOk f then ((s.count .seq 0 2).raise .seq 0 1).forward (otherSide side) f
  else if fArm f then (s.mark .arm).armFrame side f
  else s.ringFrame side f

/-- The row's frame when it has the row's opcode. -/
def State.chainRow (s : State) (op : Nat) (side : ChainSide) (f : BitVec 96) : State := if fOp f = op then s.chainIn side f else s

/-- CHAIN_ENUM. -/
def execChainEnum (f : BitVec 96) (s : State) : Host.Outcome State Fault Refusal := ok (s.start.chainRow opENUM .inp f)

/-- CHAIN_RD. -/
def execChainRd (side : ChainSide) (f : BitVec 96) (s : State) : Host.Outcome State Fault Refusal :=
  ok (s.start.chainRow opRD side f)

/-- CHAIN_WR. -/
def execChainWr (side : ChainSide) (f : BitVec 96) (s : State) : Host.Outcome State Fault Refusal :=
  ok (s.start.chainRow opWR side f)

/-- CHAIN_RESET_ADDR. -/
def execChainResetAddr (side : ChainSide) (f : BitVec 96) (s : State) : Host.Outcome State Fault Refusal :=
  ok (s.start.chainRow opRESET side f)

/-- CHAIN_WAKE. -/
def execChainWake (side : ChainSide) (f : BitVec 96) (s : State) : Host.Outcome State Fault Refusal :=
  ok (s.start.chainRow opWAKE side f)

/-- CHAIN_FORWARD: any frame that passes the repeater. -/
def execChainForward (side : ChainSide) (f : BitVec 96) (s : State) : Host.Outcome State Fault Refusal :=
  ok (s.start.chainIn side f)

/-! Execution of the queue's head (R315). -/

/-- The command queue is emptied when its two fill counters disagree (R315, R345): the commands held are lost. -/
def State.chMismatch (s : State) : State := { s with chain := { s.chain with queue := [] } }.watermark 2 0

/-- The matrix transaction of a queued command. -/
def State.chainReq (s : State) (f : BitVec 96) : BusReq :=
  { s.issue 1 (fAddr f) (fOp f == opWR) (if fOp f = opWR then leBytes 4 (fData f) else []) 4 with issued := s.chain.headAt }

/-- The queue's head leaves it. -/
def State.chainPop (s : State) : State :=
  { s with chain := { s.chain with queue := s.chain.queue.drop 1, headAt := s.now } }

/-- The answer to an executed command; a broadcast gets none (R316). -/
def State.chainAnswer (s : State) (side : ChainSide) (f : BitVec 96) (t : Resp) : State :=
  if fUnit f = 63 then s
  else if t.cause != 0 then s.chainRespond side f opERR eBUS
  else s.chainRespond side f opOK (if fOp f = opWR then 0 else ofLe t.data)

/-- The head of the queue is executed as one transaction of M1. A write of SFTRST is answered before the reset begins (R397). -/
def State.chainExecute (s : State) : State :=
  match s.chain.queue with
  | [] => s
  | e :: _ =>
    let r := s.chainReq e.2
    if !s.busUp || (!r.byDefault && s.targetBusy 1 r.target) then s
    else
      let t := s.chainPop.transact r
      (t.s.chainAnswer e.1 e.2 t).count .seq 0 4

/-! Notification, arm mode, the token and the clock. -/

/-- NOTIFY_REPEAT: 100 ms, 60,000,000 control cycles, after the last NOTIFY, while such a group stays pending (R339). -/
def execNotifyRepeat (s : State) : Host.Outcome State Fault Refusal :=
  let s := s.start
  match s.chain.notifyAt with
  | none => ok s.notify
  | some t => if t + 60000000 ≤ s.now then ok s.notify else ok s

/-- ARM_MODE_RETURN: 1 µs, 600 control cycles, without an arm-mode frame (R320). -/
def execArmModeReturn (s : State) : Host.Outcome State Fault Refusal :=
  let s := s.start
  if !s.ran .arm 600 then ok s else ok { s with chain := { s.chain with hostSide := none } }

/-- TOK_IN_CHANGE (R317). -/
def execTokInChange (on : Bool) (s : State) : Host.Outcome State Fault Refusal :=
  let s := s.start
  if s.domUp 0 then ok { s with chain := { s.chain with tokIn := on } } else ok s

/-- CHAIN_CLOCK_LOSS: the frame being received is discarded; the clock comes back after the gap, and a start bit is
accepted only after 16 idle edges from then on (R310). -/
def execChainClockLoss (g : ClockGap) (s : State) : Host.Outcome State Fault Refusal :=
  let s := s.start
  if !s.domUp 0 then ok s
  else ok { s with chain := { s.chain with resync := (s.chain.resync.filter (fun e => e.1 != g.side)) ++ [(g.side, s.now + g.gone)] } }

end Sys2Proof.Machine
end

