-- ==== Sys2Proof/Machine/Matrix.lean ====
section
/-! DEFINITION. The bus matrix: arbitration, locks, answers, timeouts and the watchdog (R328 to R336). -/
namespace Sys2Proof.Machine

/-! Arbitration (R328, R330). -/

/-- QoS of master `m`. -/
def State.qos (s : State) (m : Nat) : Nat :=
  s.rd (match m with
    | 0 => R.MATRIX_QOS_M0 | 1 => R.MATRIX_QOS_M1 | 2 => R.MATRIX_QOS_M2 | 3 => R.MATRIX_QOS_M3 | 4 => R.MATRIX_QOS_M4
    | _ => R.MATRIX_QOS_M5)

/-- Effective QoS: it rises by 1 for every 256 control cycles of waiting, up to 15. -/
def State.effQos (s : State) (r : BusReq) : Nat := min 15 (s.qos r.m + (s.now - r.issued) / 256)

/-- An earlier write of the same master is not acknowledged yet: a read waits for it. -/
def State.writeAhead (s : State) (r : BusReq) : Bool :=
  ((s.mx.waiting.takeWhile (fun x => x != r)).any (fun x => x.m == r.m && x.write)) ||
  s.mx.inflight.any (fun e => e.2.req.m == r.m && e.2.req.write)

/-- The drain of the trace FIFO as a transaction of M5 (R355). -/
def State.drainReq (s : State) : Option BusReq :=
  if s.ev.trace.isEmpty || !s.on R.PERF_TR_CTL_DRAIN_EN then none
  else some { s.issue 5 (s.rd R.PERF_TR_RING_BASE_BASE * 16 + 16 * s.rd R.PERF_TR_WIDX_WIDX) true [] 16 with issued := s.mx.drainAt }

/-- The next transaction of master `m`, whatever its target: M1's is the head of the command queue. -/
def State.nextAt (s : State) (m t : Nat) : Option BusReq :=
  match m with
  | 1 =>
    match s.chain.queue with
    | [] => none
    | e :: _ => some (s.chainReq e.2)
  | 5 => s.drainReq
  | _ => s.mx.waiting.find? (fun r => r.m == m && r.target == t)

/-- The transaction of master `m` that asks for target `t` now. -/
def State.candidate (s : State) (m t : Nat) : Option BusReq :=
  match s.nextAt m t with
  | none => none
  | some r => if r.target == t && !r.byDefault && !s.targetBusy m t && (r.write || !s.writeAhead r) then some r else none

/-- The masters in turn, from the one after the master granted last. -/
def turnOrder (last : Nat) : List Nat := (List.range 6).map (fun i => (last + 1 + i) % 6)

/-- The better of two requests: the first unless the second has a higher effective QoS. -/
def State.better (s : State) (a : Option BusReq) (b : Option BusReq) : Option BusReq :=
  match a, b with
  | none, b => b
  | some a, none => some a
  | some a, some b => if s.effQos a < s.effQos b then some b else some a

/-- The best of the masters' requests `ask` at target `t`: the highest effective QoS, in turn among equals. -/
def State.bestOf (s : State) (t : Nat) (ask : Nat → Option BusReq) : Option BusReq :=
  (turnOrder (mapGet 5 s.mx.last t)).foldl (fun w m => s.better w (ask m)) none

/-- The winner at target `t`. -/
def State.winner (s : State) (t : Nat) : Option BusReq := s.bestOf t (fun m => s.candidate m t)

/-! Locked sequences (R331). -/

/-- The lock that a granted transaction sets: only M2 and M4, on T0 to T3. -/
def State.lockBy (s : State) (r : BusReq) : State :=
  if r.first && !r.last && (r.m == 2 || r.m == 4) && decide (r.target ≤ 3) then
    let s := if mget? s.mx.locks r.target = some r.m then s else s.mark (.lock r.target)
    { s with mx := { s.mx with locks := mput s.mx.locks r.target r.m } }
  else s

/-- The lock is released by the last transaction of the sequence. -/
def State.lockFree (s : State) (r : BusReq) : State :=
  if r.last ∧ mget? s.mx.locks r.target = some r.m then { s with mx := { s.mx with locks := mdel s.mx.locks r.target } } else s

/-- The mark of a broken sequence. -/
def brokenKey (r : BusReq) : Nat := 8 * r.m + r.target

/-! Granting. -/

/-- The transaction `r` of M0, M2, M3 or M4 is granted: it reaches its target now, and its response is still to come. A transaction of
a broken sequence meets an error response instead; a new sequence starts afresh. -/
def State.grantReq (s : State) (r : BusReq) : State :=
  let broke := s.mx.broken.contains (brokenKey r)
  let s := { s with mx := { s.mx with waiting := s.mx.waiting.erase r, broken := s.mx.broken.erase (brokenKey r) } }
  let s := s.count .matrix 0 1
  let t := if broke && !r.first then (Resp.mk s [] cLOCKBRK).readZero r else ((s.lockBy r).atTarget r).readZero r
  { t.s with mx := { t.s.mx with inflight := mput t.s.mx.inflight r.target ⟨r, t.data, t.cause⟩ } }.mark (.grant r.target)

/-- The transaction `r` takes place. M1's and M5's are answered in the same command. -/
def State.serveReq (s : State) (r : BusReq) : State :=
  if r.m = 1 then s.chainExecute else if r.m = 5 then s.drain else s.grantReq r

/-- The winner's transaction takes place. -/
def State.grant (s : State) (t : Nat) (r : BusReq) : State :=
  { s with mx := { s.mx with last := mapSet 5 s.mx.last t r.m } }.serveReq r

/-- Master `m`'s next request `r` is served where it wins its target; the default target answers at once (R328, R333). -/
def State.serveNext (s : State) (m : Nat) (r : BusReq) : State :=
  if r.byDefault then s.serveReq r
  else
    match s.winner r.target with
    | some w => if w.m = m then s.grant r.target w else s
    | none => s

/-- CHAIN_CMD_EXECUTE. -/
def execChainCmdExecute (s : State) : Host.Outcome State Fault Refusal :=
  let s := s.start
  match s.nextAt 1 0 with
  | some r => ok (s.serveNext 1 r)
  | none => ok s

/-- TRACE_DRAIN_WRITE. -/
def execTraceDrainWrite (s : State) : Host.Outcome State Fault Refusal :=
  let s := s.start
  match s.nextAt 5 0 with
  | some r => if s.pageUp .perf 0 then ok (s.serveNext 5 r) else ok s
  | none => ok s

/-- The write `r` of a window takes place: it is granted and answered in the same command. -/
def State.windowTake (s : State) (r : BusReq) : State :=
  let t := ({ s with mx := { s.mx with last := mapSet 5 s.mx.last 4 r.m } }.count .matrix 0 1).atTarget r
  t.s.noteErr r t.cause

/-- A write of a window asks for T4 beside the other masters' requests, behind what its own master has waiting there: where it wins, it
takes place; else it waits. M1 and M5 keep theirs in the command queue and in the trace FIFO. -/
def State.windowAsk (s : State) (r : BusReq) : State :=
  let ask (m : Nat) : Option BusReq :=
    if m = r.m ∧ (s.nextAt m 4).isNone then (if s.targetBusy m 4 then none else some r) else s.candidate m 4
  if s.bestOf 4 ask = some r then s.windowTake r else if r.m = 1 ∨ r.m = 5 then s else s.enter r

/-- WINDOW_WRITE: master `m` writes bytes through a window (R209, R214). -/
def execWindowWrite (m : Master) (addr : W32) (data : List Byte) (s : State) : Host.Outcome State Fault Refusal :=
  let s := s.start
  let r := s.issue (masterNum m) addr.toNat true data data.length
  if !s.busUp then ok s
  else if r.target ≠ 4 then ok (s.busErr r.m defaultTarget r.addr cDEFAULT)
  else if r.byDefault then ok (s.busErr r.m defaultTarget r.addr cDENIED)
  else ok (s.windowAsk r)

/-- What port A writes to the scratchpad when `r` is granted. -/
def portAWrite (r : Option BusReq) : Option (Nat × List Byte) :=
  match r with
  | some r => if r.target = 3 ∧ r.write then some (r.loc - 0x30000000, r.data) else none
  | none => none

/-- The arbiter of target `t` grants its winner, while the sequencer may use port B in the same cycle: a read of either port returns
the word as written (R360). -/
def State.arbitrate (s : State) (t : Nat) (b : Option PortBAccess) : State :=
  let w := s.winner t
  let go (s : State) : State := match w with
    | none => s
    | some r => s.grant t r
  match b with
  | none => go s
  | some x => if x.data.isSome then go (s.portBAccess x (portAWrite w)) else (go s).portBAccess x none

/-- Transactions that the masters inside the unit have issued: M2, M3 and M4. -/
def State.enterAll (s : State) (rs : List MasterReq) : State :=
  rs.foldl (fun s x =>
    let m := masterNum x.m
    if m = 2 ∨ m = 3 ∨ m = 4 then s.enter { s.issue m x.addr.toNat x.write x.data x.len with first := x.first, last := x.last } else s) s

/-- MATRIX_GRANT. -/
def execMatrixGrant (t : Target) (rs : List MasterReq) (b : Option PortBAccess) (s : State) : Host.Outcome State Fault Refusal :=
  let s := s.start
  if s.busUp then ok ((s.enterAll rs).arbitrate (targetNum t) b) else ok s

/-! Responses and timeouts (R335). -/

/-- The transaction in flight at target `t` ends with `cause`. -/
def State.endFlight (s : State) (t : Nat) (x : Inflight) (cause : Nat) : State :=
  let s := { s with mx := { s.mx with inflight := mdel s.mx.inflight t } }
  ((s.lockFree x.req).noteErr x.req cause).answer x.req x.data cause

/-- MATRIX_RESPONSE. -/
def execMatrixResponse (t : Target) (s : State) : Host.Outcome State Fault Refusal :=
  let s := s.start
  match mget? s.mx.inflight (targetNum t) with
  | none => ok s
  | some x => ok (s.endFlight (targetNum t) x x.cause)

/-- MATRIX_TIMEOUT: an error response, the target's port is reset and its lock released; a late response finds nothing. -/
def State.matrixTimeout (s : State) (t : Nat) : State :=
  match mget? s.mx.inflight t with
  | none => s
  | some x =>
    let s := { s.endFlight t x cTIMEOUT with mx := { (s.endFlight t x cTIMEOUT).mx with locks := mdel s.mx.locks t } }
    ((s.count .matrix 0 3).raise .matrix 0 1).recover 1 (256 * x.req.m + 16 * t)

/-- MATRIX_TIMEOUT: 2^TMO_LOG2 control cycles after the grant. -/
def execMatrixTimeout (t : Target) (s : State) : Host.Outcome State Fault Refusal :=
  let s := s.start
  if s.ran (.grant (targetNum t)) (2 ^ s.rd R.MATRIX_TMO_TMO_LOG2) then ok (s.matrixTimeout (targetNum t)) else ok s

/-- BRIDGE_TMO: the page does not acknowledge; the bridge gives an error response. -/
def State.bridgeTmo (s : State) : State :=
  match mget? s.mx.inflight 0 with
  | none => s
  | some x => (((s.endFlight 0 x cBRIDGE).count .matrix 0 3).raise .matrix 0 4).recover 2 (256 * x.req.m)

/-- BRIDGE_TMO: 1,024 cycles of the register bus, 2,048 control cycles, after the bridge issued the access. -/
def execBridgeTmo (s : State) : Host.Outcome State Fault Refusal :=
  let s := s.start
  if s.ran (.grant 0) 2048 then ok s.bridgeTmo else ok s

/-- LOCK_BRK: a lock has lasted 256 control cycles (R331). -/
def State.lockBrk (s : State) (t : Nat) : State :=
  match mget? s.mx.locks t with
  | none => s
  | some m =>
    let s := { s with mx := { s.mx with locks := mdel s.mx.locks t, broken := s.mx.broken ++ [8 * m + t] } }
    (s.raise .matrix 0 2).recover 3 (256 * m + 16 * t)

/-- LOCK_BRK: 256 control cycles after the lock was set. -/
def execLockBrk (t : Target) (s : State) : Host.Outcome State Fault Refusal :=
  let s := s.start
  if s.ran (.lock (targetNum t)) 256 then ok (s.lockBrk (targetNum t)) else ok s

/-! The sequencer's watchdog and REMAP (R327, R336). -/

/-- WD_KICK: only the key restarts the period. -/
def execWdKick (key : W32) (s : State) : Host.Outcome State Fault Refusal :=
  s.onPage .seq 0 (fun s => if key.toNat = kickKey then s.kick else s)

/-- The watchdog fires: M2 is reset, REMAP returns to 0, and the sequencer restarts. -/
def State.wdFire (s : State) : State :=
  let s := (s.resetMasters [2]).wr R.SEQ_CTL_REMAP 0
  let s := ((s.bump R.SEQ_STAT_WD_CNT).wr R.SEQ_STAT_WD_FIRED 1).kick
  ((s.raise .seq 0 0).count .seq 0 5).recover 5 0

/-- WD_FIRED: `run` µs without a kick; no more than have passed since the last one. -/
def execWdFired (run : Nat) (s : State) : Host.Outcome State Fault Refusal :=
  let s := s.start
  if s.served .seq 0 && s.on R.SEQ_CTL_WD_EN && decide (s.rd R.SEQ_WD_PERIOD_PERIOD ≤ run) && decide (600 * run ≤ s.now - s.mx.kickAt) then
    ok s.wdFire
  else ok s

/-- REMAP_WRITE: a write of SEQ.CTL.REMAP; only M2's has an effect. -/
def execRemapWrite (m : Master) (remap : Bool) (s : State) : Host.Outcome State Fault Refusal :=
  s.onPage .seq 0 (fun s => if masterNum m = 2 then s.wrB R.SEQ_CTL_REMAP remap else s)

end Sys2Proof.Machine
end

