-- ==== Sys2Proof/Machine/PcieUnit.lean ====
section
/-! DEFINITION. The PCI Express endpoint (R321 to R325). -/
namespace Sys2Proof.Machine

/-! MSI-X (R324). -/

/-- Pending vectors that may be sent now are sent. -/
def State.msixFlush (s : State) : State :=
  (List.range 64).foldl (fun s v =>
    if s.pcie.pba.testBit v && s.pcie.bme && !(mapGet (0, 0, true) s.pcie.table v).2.2 then
      { s with pcie := { s.pcie with pba := clrBit s.pcie.pba v } }.msixFire v
    else s) s

/-- An entry of the table as its 16 bytes: address, data, vector control with the mask in bit 0. -/
def entryBytes (e : Nat × Nat × Bool) : List Byte := leBytes 8 e.1 ++ leBytes 4 e.2.1 ++ leBytes 4 (b2n e.2.2)

/-- The 1,024 bytes of the table. -/
def State.tableBytes (s : State) : List Byte := (List.range 64).flatMap (fun v => entryBytes (mapGet (0, 0, true) s.pcie.table v))

/-- The table made of 1,024 bytes. -/
def tableOf (bs : List Byte) : SMap (Nat × Nat × Bool) :=
  (List.range 64).foldl (fun m v =>
    let b := (bs.drop (16 * v)).take 16
    mapSet (0, 0, true) m v (ofLe (b.take 8), ofLe ((b.drop 8).take 4), (ofLe (b.drop 12)).testBit 0)) []

/-- Bytes are written to the table from offset `o` on. -/
def State.tableWrite (s : State) (o : Nat) (bs : List Byte) : State :=
  { s with pcie := { s.pcie with table := tableOf ((patchBytes s.tableBytes o bs).take 1024) } }.msixFlush

/-- A configuration register of the endpoint (R321): vendor and device ID, class code and revision; the others are open (log entry 107). -/
def State.pcieReg (s : State) (reg : Nat) : Nat :=
  match reg with
  | 0 => 0x6480 * 2 ^ 16 + Config.vendorId.toNat
  | 2 => 0x028000 * 2 ^ 8 + s.rd R.GLOBAL_ID_ISSUE
  | _ => (Config.pcieSpace s.fresh reg).toNat

/-- One entry or one setting changes, or a configuration register is read. -/
def State.pcieCfg (s : State) (c : PcieCfg) : State :=
  let entry (v : Nat) := mapGet (0, 0, true) s.pcie.table v
  match c with
  | .busMaster on => { s with pcie := { s.pcie with bme := on } }.msixFlush
  | .vectorEntry v a d =>
    { s with pcie := { s.pcie with table := mapSet (0, 0, true) s.pcie.table v.val (a.toNat, d.toNat, (entry v.val).2.2) } }
  | .read tag reg => s.takeFresh.emit (.completion tag 0 (leBytes 4 (s.pcieReg reg.toNat)))
  | .vectorMask v m =>
    { s with pcie := { s.pcie with table := mapSet (0, 0, true) s.pcie.table v.val ((entry v.val).1, (entry v.val).2.1, m) } }.msixFlush

/-- The endpoint answers: the link is up and the management domain is on (R321). -/
def State.pcieUp (s : State) : Bool := s.pcie.released && s.pcie.link && s.busUp

/-- PCIE_CONFIG_REQUEST. -/
def execPcieConfigRequest (c : PcieCfg) (s : State) : Host.Outcome State Fault Refusal :=
  let s := s.start
  if s.pcieUp then ok (s.pcieCfg c) else ok s

/-! The link (R321, R332). -/

/-- The endpoint is reset, and with it M0; the rest of the unit keeps running. -/
def State.endpointReset (s : State) (released : Bool) : State :=
  { s with pcie := { released := released, link := false } }.resetMasters [0]

/-- PERST_N. -/
def execPerstN (e : PerstEvent) (s : State) : Host.Outcome State Fault Refusal :=
  let s := s.start
  match e with
  | .assert => ok (s.endpointReset false)
  | .release => ok { s with pcie := { s.pcie with released := true } }
  | .linkDown => ok (s.endpointReset s.pcie.released)
  | .linkUp => if s.pcie.released && s.busUp then ok { s with pcie := { s.pcie with link := true } } else ok s

/-! Requests (R322, R323, R361). -/

/-- Size of a BAR. -/
def barSize (b : Bar) : Nat :=
  match b with
  | .bar0 => 0x4000000
  | .bar2 => 0x100000
  | .bar4 => 0x10000000

/-- Where a request goes: to the bus, privileged or through the user view; into the MSI-X table or pending-bit array; or past the last
slot of the user view. -/
inductive PcieDest where
  | bus (a : Nat) (user : Bool)
  | table (o : Nat)
  | pending (o : Nat)
  | noSlot
  deriving DecidableEq, Repr

/-- The BAR map (R322, R323). -/
def State.pcieDest (s : State) (b : Bar) (o : Nat) : PcieDest :=
  match b with
  | .bar4 => .bus (0x40000000 + o) false
  | .bar2 =>
    match slotPage (o / 256) with
    | some (p, i) => .bus (pageBase p i + o % 256) true
    | none => .noSlot
  | .bar0 =>
    if 0x1F00000 ≤ o ∧ o < 0x1F00400 then .table (o - 0x1F00000)
    else if 0x1F01000 ≤ o ∧ o < 0x1F01008 then .pending (o - 0x1F01000)
    else if o < 0x2000000 then .bus o false
    else .bus (s.rd R.MATRIX_APER_APER * 0x2000000 + (o - 0x2000000)) false

/-- A request in matrix transactions: bursts of at most 16 beats; and with ROTATE = 0 a small scratchpad access that crosses a 16-byte
boundary goes in two (R326, R361). Start and length of each. -/
def State.pieces (s : State) (target a len : Nat) : List (Nat × Nat) :=
  let cut := if target = 3 ∧ len ≤ 4 ∧ !s.on R.SECURE_SP_CTL_ROTATE then a / 16 * 16 + 16 else a / 16 * 16 + 256
  if a + len ≤ cut then [(a, len)]
  else
    let k := cut - a
    if a + len ≤ cut + 256 then [(a, k), (cut, len - k)] else [(a, k), (cut, 256), (cut + 256, len - k - 256)]

/-- The runs of a request, each a bus address and a length, in matrix transactions: address, offset in the request, length. `o` bytes
lie before them. -/
def State.cut (s : State) (o : Nat) (runs : List (Nat × Nat)) : List (Nat × Nat × Nat) :=
  match runs with
  | [] => []
  | x :: rest => (s.pieces (s.resolve 0 x.1).1 x.1 x.2).map (fun p => (p.1, o + (p.1 - x.1), p.2)) ++ s.cut (o + x.2) rest

/-- The tag that a request's transactions serve: none for a posted write, and none once it has been completed. -/
def State.servedTag (s : State) (r : PcieReq) : Option Nat := if r.write || !s.pcie.owed.contains r.tag then none else some r.tag

/-- The transactions of a request enter the matrix; `pad` zeros end its data. -/
def State.enterPieces (s : State) (r : PcieReq) (user : Bool) (runs : List (Nat × Nat)) (pad : Nat) : State :=
  let len := (runs.map (·.2)).sum
  (s.cut 0 runs).foldl (fun s p =>
    let q := s.issue 0 p.1 r.write (if r.write then sliceBytes r.data p.2.1 p.2.2 else []) p.2.2
    s.enter { q with user := user, tag := s.servedTag r, more := decide (p.2.1 + p.2.2 < len), pad := pad }) s

/-- What a read of `len` bytes of the user view from offset `o` on shows, slot by slot (R323): the runs in the pages, and how many bytes
lie past the last slot. `n` bounds the slots. -/
def userRuns (n o len : Nat) : List (Nat × Nat) × Nat :=
  match n with
  | 0 => ([], 0)
  | n + 1 =>
    if len = 0 then ([], 0)
    else
      match slotPage (o / 256) with
      | none => ([], len)
      | some x =>
        let k := min len (256 - o % 256)
        let t := userRuns n (o + k) (len - k)
        ((pageBase x.1 x.2 + o % 256, k) :: t.1, t.2)

/-- A write through the user view, or a read while PERF_USER is clear, ends with an error response (R323). -/
def State.userError (s : State) (r : PcieReq) (a : Nat) : State :=
  let s := s.busErr 0 0 a cUSER
  if r.write then s else s.complete r.tag 4 []

/-- A memory request that the endpoint accepts. -/
def State.pcieServe (s : State) (r : PcieReq) : State :=
  let s := if r.write then s else { s.mark (.tag r.tag) with pcie := { s.pcie with owed := s.pcie.owed ++ [r.tag] } }
  match s.pcieDest r.bar r.offset with
  | .table o => if r.write then s.tableWrite o r.data else s.complete r.tag 0 (sliceBytes s.tableBytes o r.len)
  | .pending o => if r.write then s else s.complete r.tag 0 (sliceBytes (leBytes 8 s.pcie.pba) o r.len)
  | .noSlot =>
    if r.write || !s.on R.GLOBAL_PRIV_PERF_USER then s.userError r r.offset
    else s.complete r.tag 0 (List.replicate r.len 0)
  | .bus a true =>
    if r.write || !s.on R.GLOBAL_PRIV_PERF_USER then s.userError r a
    else s.enterPieces r true (userRuns (r.len / 256 + 2) r.offset r.len).1 (userRuns (r.len / 256 + 2) r.offset r.len).2
  | .bus a false => s.enterPieces r false [(a, if r.write then r.data.length else r.len)] 0

/-- A request of a form that the link carries: within its BAR, and within the payload and read-request sizes of R321. -/
def pcieForm (r : PcieReq) : Bool :=
  let len := if r.write then r.data.length else r.len
  decide (1 ≤ len) && decide (len ≤ if r.write then 256 else 512) && decide (r.offset + len ≤ barSize r.bar)

/-- PCIE_REQUEST. One that asks for a lock completes as Unsupported Request (R321). -/
def execPcieRequest (r : PcieReq) (s : State) : Host.Outcome State Fault Refusal :=
  let s := s.start
  if !pcieForm r then .fault .illFormed
  else if !s.pcieUp then ok s
  else if r.lock then ok (if r.write then s else s.emit (.completion r.tag 1 []))
  else ok (s.pcieServe r)

/-- PCIE_COMPLETION_TIMEOUT: 50 µs, 30,000 control cycles, without an answer of the matrix (R325, R335). -/
def execPcieCompletionTimeout (tag : Nat) (s : State) : Host.Outcome State Fault Refusal :=
  let s := s.start
  if s.pcie.owed.contains tag && s.ran (.tag tag) 30000 then ok ((s.complete tag 4 []).recover 12 0) else ok s

end Sys2Proof.Machine
end

