-- ==== Sys2Proof/Machine/Tick.lean ====
section
/-! DEFINITION. The control clock: what passes in a number of control cycles in which no command falls (R20, R310, R314, R339, R347
to R350; log entry 1). -/
namespace Sys2Proof.Machine

/-! The chain outputs. -/

/-- The outputs send what waits, each frame when they become free, before cycle `limit`; `n` bounds the frames. -/
def State.chainFlush (limit n : Nat) (s : State) : State :=
  match n with
  | 0 => s
  | n + 1 =>
    let t := max s.now s.chain.txFree
    if (s.chain.own.isEmpty && s.chain.fwd.isEmpty) || decide (limit ≤ t) then s else State.chainFlush limit n (s.chainPump t)

/-- The gap after a NOTIFY has passed, and one waits (R339). -/
def State.notifyTurn (s : State) : State := if s.chain.notifyDue then s.notify else s

/-! Counters of levels (R348). -/

/-- How long the request that waits longest has waited: requests of any master, the chain's command, the drain. -/
def State.longestWait (s : State) : Option Nat :=
  let ages := s.mx.waiting.map (fun r => s.now - r.issued) ++ (if s.chain.queue.isEmpty then [] else [s.now - s.chain.headAt]) ++
    (if s.drainReq.isSome then [s.now - s.mx.drainAt] else [])
  match ages with
  | [] => none
  | a :: r => some (r.foldl max a)

/-- 64-byte blocks in the transmit queue of Ethernet port `p`. -/
def State.txBlocks (s : State) (p : Nat) : Nat := ((mapGet {} s.eths p).txq.map (fun f => (f.bytes.length + 63) / 64)).foldl (· + ·) 0

/-- The level that the level code of a page compares, as it stands; the DRAM command queue holds nothing between commands. -/
def State.level (s : State) (p : Page) (i : Nat) : Nat :=
  match p with
  | .event => s.ev.queue.length
  | .perf => s.ev.trace.length
  | .mapc => s.queueFill
  | .eth => s.txBlocks i
  | .matrix => s.longestWait.getD 0
  | .dramc | .global | .power | .timing | .ntime | .mate | .seq | .secure | .bench | .lanep | .lanef | .dfab | .sfab | .conf | .prot
  | .eq | .pw => 0

/-- In how many of the next `n` cycles the level of a page exceeds `thr`, and whether it does in the last one. A wait grows by 1 a
cycle. -/
def State.levelCycles (s : State) (p : Page) (i thr n : Nat) : Nat × Bool :=
  if p = .matrix then
    match s.longestWait with
    | none => (0, false)
    | some w => (n - min n (thr + 1 - w), decide (thr + 1 < w + n))
  else if thr < s.level p i then (n, true)
  else (0, false)

/-- Counter `k` of a page whose code is its level code, over `n` cycles: every cycle above N under LEVEL, a crossing under EDGE. -/
def State.levelCount (s : State) (p : Page) (i k n : Nat) : State :=
  let x := pageSlot p i * 8 + k
  let t := s.levelCycles p i (s.rd (R.HDR_CNT_SEL_N p) i k) n
  let was := (mget? s.ev.above x).isSome
  let s := { s with ev := { s.ev with above := if t.2 then mput s.ev.above x 1 else mdel s.ev.above x } }
  if s.frozen then s
  else
    match s.rd (R.HDR_CNT_SEL_MODE p) i k with
    | 1 => s.cntAdd p i k (if was then 0 else min t.1 1)
    | 2 => s.cntAdd p i k t.1
    | _ => s

/-- The level counters of a page. -/
def State.pageLevels (s : State) (n : Nat) (x : Page × Nat) : State :=
  match levelCode x.1 with
  | none => s
  | some c =>
    if !s.pageUp x.1 x.2 then s
    else (List.range 8).foldl (fun (s : State) k =>
      if s.rd (R.HDR_CNT_SEL_CODE x.1) x.2 k = c then s.levelCount x.1 x.2 k n else s) s

/-- The pages that have a level code. -/
def levelPages : List (Page × Nat) :=
  [(.event, 0), (.perf, 0), (.matrix, 0), (.mapc, 0)] ++ (List.range 8).map (fun p => (Page.eth, p))

/-- Control cycles running from VHOLD: one occurrence in each (POWER code 3). -/
def State.holdCount (s : State) (n : Nat) : State :=
  if !s.pow.vinFailed || s.frozen || !s.pageUp .power 0 then s
  else (List.range 8).foldl (fun (s : State) k =>
    if s.rd (R.HDR_CNT_SEL_CODE .power) 0 k = 3 ∧ (s.rd (R.HDR_CNT_SEL_MODE .power) 0 k = 1 ∨ s.rd (R.HDR_CNT_SEL_MODE .power) 0 k = 2)
    then s.cntAdd .power 0 k n else s) s

/-- `n` control cycles pass: the chain sends, CYCLES and the counters of levels advance. The cycle number itself does not change. -/
def State.elapse (s : State) (n : Nat) : State :=
  let s := State.chainFlush (s.now + n) (s.chain.own.length + s.chain.fwd.length) s
  let s := if s.frozen then s else { s with ev := { s.ev with ran := s.ev.ran + n } }
  (levelPages.foldl (fun (s : State) x => s.pageLevels n x) s).holdCount n

/-- What falls at a control cycle of the frame: the end of a swap's locks (R173), the settling of the mate unit's inputs (R301). -/
def State.cycleTurn (s : State) : State :=
  let s := if 64 ≤ s.cyc then s.swapUnlock else s
  if s.cyc = 74488 then s.mateSettle else s

/-- What a step does when no command waits (log entry 1): one control cycle passes. The last cycle of a frame waits for HINGE, but
where the timing domain is off there is no hinge to wait for. Without power nothing happens. -/
def State.tick (s : State) : State :=
  if s.pow.phase = .unpowered then s.start
  else if s.cyc < 74999 then
    let t := s.start.elapse 1
    let t := { t with clk := { t.clk with cyc := t.cyc + 1 } }
    t.cycleTurn.notifyTurn
  else if s.domUp 2 then s.start
  else
    let t := s.start.elapse 1
    { t with clk := { frame := t.frame + 1, cyc := 0 } }.notifyTurn

end Sys2Proof.Machine
end

