-- ==== Sys2Proof/Machine/Fabric.lean ====
section
/-! DEFINITION. The drawer fabric over one core frame (R37 to R39, R103 to R106, R117 to R122, R139 to R148, R157, R159, R196, R222):
what each input column carries, what each output column sends, and what the slot fabric, the pseudowire engine and the pattern
bench receive. -/
namespace Sys2Proof.Machine

/-! What an output carries. -/

/-- What an output column carries: the drawer of a source; or the containers of an equalised group on its delayed path, with
whether the group is in FALLBACK and whether it then follows the earlier copy. -/
inductive Carry where
  | src (x : Source)
  | path (fallback early : Bool)
  deriving DecidableEq, Repr

/-- The output whose words feed output `a`: port P of an enabled group is fed from port W (R196). -/
def State.bridged (s : State) (a : Nat) : Nat :=
  if 64 ≤ portOf a then a
  else
    match s.groups.find? (fun e => (grpPar e.2.cfg).en && grpP e.2.cfg == portOf a) with
    | some e => grpW e.2.cfg * 8192 + colOf a
    | none => a

/-- A source with its lane: input port W of a group carries the selected lane (R196). -/
def State.effective (s : State) (x : Source) : Source :=
  match x with
  | .drawer a => if portOf a < 64 then .drawer (s.laneAt (portOf a) * 8192 + colOf a) else .drawer a
  | .uneq => .uneq
  | .ais => .ais

/-- The side that the selector of output `a` directs (R184). -/
def State.directs (s : State) (a : Nat) : Bool := (selPar (s.sel a).cfg).en && (s.sel a).prot

/-- What output `a` carries in the present frame. -/
def State.carry (s : State) (a : Nat) : Carry :=
  let b := s.bridged a
  let prot := s.directs b
  match s.eqOf b with
  | some (_, g) => if g.direct prot then .src (s.effective (s.mc.act.source b prot)) else .path (g.st == eqFALLBACK) g.out.early
  | none => .src (s.effective (s.mc.act.source b prot))

/-- Between two frames an output changed what it carries (R106, R135, R217, R221, R224): a move inside an equalised group is a change
of source in FALLBACK only. -/
def carryChanged (old new : Carry) : Bool :=
  match old, new with
  | .src x, .src y => x != y
  | .path e p, .path f q => e && f && p != q
  | .src _, .path _ _ => true
  | .path _ _, .src _ => true

/-- Outputs that may carry something, or that owe a frame with NDF: those with a word listed in the active bank, those of equalised
groups, and the bridged images of both. -/
def State.outputs (s : State) : List Nat :=
  let base := ((s.mc.act.listed 0 (2 * outCount)).map (fun e => e.1 / 2)) ++ (s.eqs.map (fun e => eqOut e.2.cfg)) ++
    (s.ndf.map (fun e => e.1))
  let pairs := (s.groups.filter (fun e => (grpPar e.2.cfg).en)).map (fun e => (grpW e.2.cfg, grpP e.2.cfg))
  let images := base.flatMap (fun a => (pairs.filter (fun x => x.1 == portOf a)).map (fun x => x.2 * 8192 + colOf a))
  ((base ++ images).foldl (fun (m : SMap Nat) a => mput m a 1) []).map (fun e => e.1)

/-! Detections (R139, R140). -/

/-- The first row of an output at which word `k` of the active bank failed, if it did. -/
def detRow (i : HingeIn) (k : Nat) : Option Nat :=
  (i.det.filter (fun e => !e.1.edit && refKey e.1 == k)).foldl (fun (r : Option Nat) e =>
    match r with
    | none => some e.2.val
    | some x => some (min x e.2.val)) none

/-- The earlier of two rows of detection. -/
def firstRow (x y : Option Nat) : Option Nat :=
  match x, y with
  | none, y => y
  | x, none => x
  | some a, some b => some (min a b)

/-- The first row at which a word that output `a` reads through its selector failed: its output word, or the centre word of its
slot. -/
def State.outDet (s : State) (i : HingeIn) (a : Nat) : Option Nat :=
  let b := s.bridged a
  let k := outKey b (s.directs b)
  let w := s.mc.act.word k
  let cen := if wKind w = 1 then
      match s.mc.act.slotInput (portOf b) (wCslot w) with
      | some p => detRow i (cenKey p (wCslot w))
      | none => none
    else none
  firstRow (detRow i k) cen

/-- Rows of the input column of drawer `x` whose stored byte failed its parity. -/
def parRows (i : HingeIn) (x : Nat) : List Nat :=
  (i.rowPar.filter (fun e => e.1.val * 8192 + e.2.2.toNat == x)).map (fun e => e.2.1.val)

/-- The column that leaves the row store: drawer AIS when row 0 failed, the idle byte in the other rows that did. -/
def concealPar (idle : Byte) (rows : List Nat) (c : Col) : Col :=
  if rows.isEmpty then c
  else if rows.contains 0 then aisCol
  else { c with b := (List.range 36).map (fun r => if rows.contains r then idle else c.b.getD r 0) }

/-- The column of an output whose word failed at row `r` first: unequipped from there on. -/
def concealDet (r : Option Nat) (c : Col) : Col :=
  match r with
  | none => c
  | some r => if r = 0 then uneqCol else { c with b := c.b.take r ++ List.replicate (36 - r) 0 }

/-- A column with NDF in its P byte (R106); drawer AIS has none. -/
def withNdf (c : Col) : Col :=
  if c.ais then c
  else { c with b := BitVec.ofNat 8 (128 + (c.b.getD 0 0).toNat % 64) :: c.b.drop 1 }

/-- The drawer idle byte (R140). -/
def State.idleByte (s : State) : Byte := BitVec.ofNat 8 (s.rd R.DFAB_CTL_IDLE_BYTE)

/-! Input columns. -/

/-- A drawer of a lane over the frame: what it becomes, the column it sends into the fabric, core justifications and slips (R101 to
R106, R115, R117, R436). Under lane failure action (a) its interpreter takes one ais_ind and drawer AIS replaces it. -/
def State.laneDrawer (s : State) (k key : Nat) (d : Drawer) : Drawer × Col × Nat × Nat :=
  let n := drwLane key
  if !s.running n then (d, aisCol, 0, 0)
  else if s.actionA n then
    (rxDrawerAis d, aisCol, 0, 0)
  else
    let t := genFrame k d
    (t.1, if d.plmAis && d.declared.testBit 3 then aisCol else t.2.1, t.2.2.1, t.2.2.2)

/-- What the lanes' drawers did over a frame: their columns, and what each lane counts. -/
structure LaneCols where
  drawers : SMap Drawer
  cols    : SMap Col
  justs   : SMap Nat
  slips   : SMap Nat

/-- Every listed drawer over frame `k`; those left out are in AIS. -/
def State.laneCols (s : State) (k : Nat) : LaneCols :=
  let block := decide ((k + 1) % 800 = 0)
  s.drawers.foldl (fun (u : LaneCols) e =>
    let t := s.laneDrawer k e.1 e.2
    let n := drwLane e.1
    { drawers := u.drawers ++ [(e.1, if s.running n then drawerBlock (s.drwAtOnce n) k t.1 block else t.1)], cols := u.cols ++ [(e.1, t.2.1)],
      justs := mapUpd 0 u.justs n (fun x => x + t.2.2.1), slips := mapUpd 0 u.slips n (fun x => x + t.2.2.2) })
    { drawers := [], cols := [], justs := [], slips := [] }

/-- Justifications and slips of the lanes are counted and reported (R104). -/
def State.laneCounts (s : State) (u : LaneCols) : State :=
  let s := u.justs.foldl (fun (s : State) e => s.count .lanef e.1 9 e.2) s
  u.slips.foldl (fun (s : State) e => (s.count .lanef e.1 0xA e.2).raise .lanef e.1 20) s

/-- The columns that the engines and the lanes send into the fabric. -/
structure Inputs where
  lanes  : SMap Col
  pw     : SMap Col
  bench  : SMap Col
  groom  : SMap Col
  /-- Columns of the equalised groups on their delayed paths. -/
  eq     : SMap Col

/-- The input column of drawer `x` (R117). -/
def State.inCol (s : State) (u : Inputs) (x : Nat) : Col :=
  let p := portOf x
  if p < 64 then
    if !s.domUp (4 + p / 4) then aisCol
    else if rateCols (s.rate p) ≤ colOf x then uneqCol
    else mapGet aisCol u.lanes x
  else if p < 72 then mapGet uneqCol u.groom (x - groomBase)
  else if p < 74 then (if s.domUp (54 + (p - 72)) then mapGet uneqCol u.pw (x - pwBase) else aisCol)
  else mapGet uneqCol u.bench (x - benchBase)

/-! Output columns. -/

/-- The column that output `a` would send if its source had not changed. `u` gives the input columns and those of the groups. -/
def State.plainCol (s : State) (i : HingeIn) (u : Inputs) (a : Nat) : Col :=
  match s.carry a with
  | .path _ _ =>
    match s.eqOf (s.bridged a) with
    | some (q, _) => mapGet aisCol u.eq q
    | none => uneqCol
  | .src .uneq => uneqCol
  | .src .ais => aisCol
  | .src (.drawer x) => concealPar s.idleByte (parRows i x) (s.inCol u x)

/-- What takes NDF when it is new: a drawer or an equalised copy, not the two forms that the fabric sends itself (R95, R106, R175). -/
def takesNdf (c : Carry) : Bool :=
  match c with
  | .src .uneq => false
  | .src .ais => false
  | .src (.drawer _) => true
  | .path _ _ => true

/-- The column that output `a` sends (R106, R139): with NDF where it is owed, drawer AIS instead when the new source justifies; unequipped
from the row on at which a word that it reads failed. -/
def State.outCol (s : State) (i : HingeIn) (u : Inputs) (a : Nat) : Col :=
  let c := s.plainCol i u a
  let c := if (mget? s.ndf a).isNone || !takesNdf (s.carry a) then c else if c.just then aisCol else withNdf c
  concealDet (s.outDet i a) c

/-- Output `a` owes NDF in the next frame: its new source justified in this one, or a failed word touched what it carried. -/
def State.owesNdf (s : State) (i : HingeIn) (u : Inputs) (a : Nat) : Bool :=
  ((mget? s.ndf a).isSome && (s.plainCol i u a).just) || (s.outDet i a).isSome

/-! The equalised groups over a frame. -/

/-- The column of a side of group `g`: the drawer that its word names, out of the row store (R140, R217). Where `groom` is not set the
columns of the slot fabric are not known yet. -/
def State.copyCol (s : State) (i : HingeIn) (u : Inputs) (groom : Bool) (g : EqGroup) (prot : Bool) : Option Col :=
  match s.effective (s.mc.act.source (eqOut g.cfg) prot) with
  | .drawer x =>
    if !groom && decide (groomBase ≤ x) && decide (x < pwBase) then none
    else some (concealPar s.idleByte (parRows i x) (s.inCol u x))
  | .uneq | .ais => none

/-- Every enabled group takes its copies and sends its column (R217 to R224). -/
def State.eqFrames (s : State) (i : HingeIn) (u : Inputs) (groom : Bool) : State × SMap Col :=
  s.eqs.foldl (fun (t : State × SMap Col) e =>
    if !eqEn e.2.cfg || e.2.st == eqOFF then t
    else
      let ps := (i.lookPar.filter (fun x => x.1.toNat == e.1)).map (fun x => x.2.val)
      let r := t.1.eqFrame s.epoch e.1 (s.copyCol i u groom e.2) ps
      (r.1, t.2 ++ [(e.1, r.2)])) (s, [])

/-! The slot fabric over a frame. -/

/-- The output grooming drawer that feeds input grooming drawer `gi` with its own bytes, if one does. -/
def State.feeder (s : State) (i : HingeIn) (gi : Nat) : Option Nat :=
  match s.carry (groomBase + gi) with
  | .src (.drawer x) =>
    if groomBase ≤ x ∧ x < pwBase ∧ !(parRows i x).contains 0 ∧ s.outDet i (groomBase + gi) ≠ some 0 then some (x - groomBase)
    else none
  | .src .uneq | .src .ais | .path _ _ => none

/-- The byte that a detection puts in row `r` of input grooming drawer `gi`, which a grooming drawer feeds. -/
def State.feedPatch (s : State) (i : HingeIn) (gi r : Nat) : Option Byte :=
  let late := match s.outDet i (groomBase + gi) with
    | some r0 => decide (r0 ≤ r)
    | none => false
  if late then some 0
  else
    match s.carry (groomBase + gi) with
    | .src (.drawer x) => if (parRows i x).contains r then some s.idleByte else none
    | .src .uneq | .src .ais | .path _ _ => none

/-- Input grooming drawers that the frame steps one by one: those listed, those that receive something, those whose output drawer is
live; their quarters on. -/
def State.groomKeys (s : State) : List Nat :=
  let fed := (s.outputs.filter (fun a => decide (groomBase ≤ a) && decide (a < pwBase))).map (fun a => a - groomBase)
  let ks := s.grooms.map (fun e => e.1) ++ fed ++ s.liveList
  (((ks.filter (fun g => s.quarterOn (drawerQuarter g))).foldl (fun (m : SMap Nat) g => mput m g 1) [])).map (fun e => e.1)

/-- What the frame brings to the output slots. -/
def State.slotEnv (s : State) (i : HingeIn) (u : Inputs) : SlotEnv :=
  let ks := s.groomKeys
  { reads := ks.foldl (fun (m : SMap (FrameRead × Col)) g =>
      let c := s.outCol i u (groomBase + g)
      mput m g ((interpStep (s.groom g).ip (c.b.getD 0 0).toNat).2, c)) [],
    feeds := ks.foldl (fun (m : SMap Nat) g =>
      match s.feeder i g with
      | some f => mput m g f
      | none => m) [],
    patch := s.feedPatch i,
    par := i.slotPar.map (fun a => a.toNat),
    bad := fun k => (detRow i k).isSome }

/-- A conference leg at its read row: saturation, and parties silenced (R157). -/
def State.legTurn (s : State) (e : SlotEnv) (k : Nat) (at' : State) (x : Nat × Nat) : State :=
  let b := wSrc x.2 / 64
  let y := legExact at' e k (slotNum x.1) x.2
  let s := s.count .conf 0 2 (at'.silencedParties e k (slotNum x.1) b)
  if y < -32768 ∨ 32767 < y then s.legSat b else s

/-- The legs that the conference engine forms: a word that failed, its own or its party's, forms none. -/
def State.legsTurn (s : State) (e : SlotEnv) (k : Nat) : State :=
  (s.legs.filter (fun x => !e.bad (slotKey x.1) && !e.bad (partyKey (wSrc x.2 / 64) (wSrc x.2 % 64)))).foldl
    (fun (t : State) x => t.legTurn e k s x) s

/-- What an input grooming drawer's class did is reported (R145, R148, the events of SFAB). -/
def State.groomReport (s : State) (old new : Nat) (moved : Bool) : State :=
  let s := if moved then s.count .sfab 0 4 else s
  let s := if old = new then s else s.raise .sfab 0 4
  if new = 3 ∧ old ≠ 3 then (s.count .sfab 0 5).raise .sfab 0 3 else s

/-- An input grooming drawer takes its column; `par` is the parity of the container that its output drawer sent. -/
def State.groomTake (s : State) (k g : Nat) (b : List Byte) (par : Byte) : State :=
  let d := s.groom g
  let t := groomStep d b (36 * k)
  (s.setGroom g { t.1 with par := par }).groomReport d.cls t.1.cls t.2

/-- The input grooming drawers that are left out take an unequipped drawer. -/
def State.groomDefault (s : State) (k q : Nat) : State :=
  if !s.quarterOn q then s
  else
    let d := mapGet {} s.groomDef q
    let t := groomStep d uneqCol.b (36 * k)
    { s with groomDef := mput s.groomDef q t.1 }.groomReport d.cls t.1.cls t.2

/-! The frame. -/

/-- The pseudowire contexts build their drawers: the contexts after it, and the columns (R243). -/
def State.pwCols (s : State) : SMap Ctx × SMap Col :=
  s.ctxs.foldl (fun (m : SMap Ctx × SMap Col) e =>
    if !s.ctxUp e.1 then (m.1 ++ [e], m.2)
    else
      let t := e.2.build s.epoch
      (m.1 ++ [(e.1, t.1)], m.2 ++ [(e.1, t.2)])) ([], [])

/-- The pattern generators build theirs (R141). -/
def State.benchCols (s : State) : SMap Bench × SMap Col :=
  s.benches.foldl (fun (m : SMap Bench × SMap Col) e =>
    let t := benchGen e.2 s.epoch
    (m.1 ++ [(e.1, t.1)], m.2 ++ [(e.1, t.2)])) ([], [])

/-- The enabled contexts take their columns (R234). -/
def State.pwTake (s : State) (k : Nat) (out : Nat → Col) : State :=
  (s.ctxsWith (fun _ => true)).foldl (fun (s : State) n =>
    s.setCtx n ((s.ctx n).takeFrame k s.epoch (out (pwBase + n)).b)) s

/-- The pattern analysers take theirs (R142). -/
def State.benchTake (s : State) (out : Nat → Col) : State :=
  s.benches.foldl (fun (s : State) e =>
    let t := benchAna (s.bench e.1) (out (benchBase + e.1)).b s.epoch
    let s := ((s.setBench e.1 t.1).count .bench 0 1 t.2.1.errs).count .bench 0 2 t.2.2
    if t.2.1.loss = 0 then s else s.raise .bench 0 0) s

/-- A connection word failed its check on a read: it is marked, counted and reported (R139, R159). -/
def State.detReport (s : State) (w : WordRef) : State :=
  let k := refKey w
  if !wordExists (w.fabric == .slot) w.index.toNat || !s.mc.inited then s
  else
    let b := s.bank w.edit
    let s := s.setBank w.edit { b with bad := mput b.bad k 1 }
    match w.fabric with
    | .drawer =>
      let s := (s.wrB R.DFAB_CMDET_ADDR_BANK w.edit).wr R.DFAB_CMDET_ADDR_OFFSET (windowOffset k)
      (s.count .dfab 0 1).raise .dfab 0 0
    | .slot =>
      let s := (s.wrB R.SFAB_DET_ADDR_BANK w.edit).wr R.SFAB_DET_ADDR_OFFSET (windowOffset k)
      if w.index.toNat < 2 ^ 21 then (s.count .sfab 0 1).raise .sfab 0 0 else (s.count .sfab 0 2).raise .sfab 0 1

/-- A row-store parity detection is counted and reported (R140). -/
def State.parReport (s : State) (e : Fin 75 × Fin 36 × BitVec 13) : State :=
  let p := e.1.val
  let s := ((s.wr R.DFAB_PAR_ADDR_PORT (p % 64)).wr R.DFAB_PAR_ADDR_PORT_HI (p / 64)).wr R.DFAB_PAR_ADDR_ROW e.2.1.val
  let s := s.wr R.DFAB_PAR_ADDR_COLUMN e.2.2.toNat
  if e.2.1.val = 0 then (s.count .dfab 0 3).raise .dfab 0 2 else (s.count .dfab 0 2).raise .dfab 0 1

/-- A slot-store parity detection is counted and reported (R159). -/
def State.slotParReport (s : State) (a : Nat) : State :=
  ((s.wr R.SFAB_PAR_ADDR_SLOT a).count .sfab 0 3).raise .sfab 0 2

/-- Every detection of the frame. -/
def State.detections (s : State) (i : HingeIn) : State :=
  let s := i.det.foldl (fun (s : State) e => s.detReport e.1) s
  let s := i.rowPar.foldl State.parReport s
  i.slotPar.foldl (fun (s : State) a => s.slotParReport a.toNat) s

/-- The outputs of the frame, and those that owe NDF in the next. -/
def State.sendOutputs (s : State) (i : HingeIn) (u : Inputs) : State :=
  let as := s.outputs
  let cols := (as.map (fun a => (a, s.outCol i u a))).filter (fun e => e.2 != uneqCol)
  let owe := (as.filter (fun a => s.owesNdf i u a)).map (fun a => (a, 1))
  { s with outCols := cols, ndf := owe }

/-- The input grooming drawers take the frame (R144 to R148). -/
def State.groomsTake (s : State) (k : Nat) (keys : List Nat) (sent : SMap Col) (out : Nat → Col) : State :=
  let s' := keys.foldl (fun (t : State) g =>
    t.groomTake k g (out (groomBase + g)).b (match mget? sent g with
      | some c => xorBytes (c.b.drop 2)
      | none => 0)) s
  (List.range 4).foldl (fun (t : State) q => t.groomDefault k q) s'

/-- The frame that ends, `k` its number: inputs, the slot fabric, outputs, and what the engines receive. -/
def State.fabricFrame (s : State) (i : HingeIn) : State :=
  let k := s.frame
  let u := s.laneCols k
  let pw := s.pwCols
  let be := s.benchCols
  let s := (s.upset i.dram).spUpset i.spPar
  let part : Inputs := { lanes := u.cols, pw := pw.2, bench := be.2, groom := [], eq := [] }
  let env := s.slotEnv i { part with eq := (s.eqFrames i part false).2 }
  let sent := s.groomCols env k
  let keys := s.groomKeys
  let all := { part with groom := sent }
  let eq := (s.legsTurn env k).eqFrames i all true
  let t := eq.1.sendOutputs i { all with eq := eq.2 }
  let out (a : Nat) : Col := mapGet uneqCol t.outCols a
  let t := { t with drawers := u.drawers.filter (fun e => e.2 != ({} : Drawer)), ctxs := pw.1, benches := be.1.filter (fun e => e.2 != ({} : Bench)) }
  let t := (t.groomsTake k keys sent out).pwTake k out
  (((t.benchTake out).laneCounts u).detections i)

end Sys2Proof.Machine
end

