-- ==== Sys2Proof/Machine/Hinge.lean ====
section
/-! DEFINITION. The hinge (R23 to R26, R434): the frame that ends, then every change that is due, as one state for the frame that
begins. -/
namespace Sys2Proof.Machine

/-- The label that the mate gives the hinge in STANDBY and ISOLATE while the heartbeat is received (R294): the next after that of its
last heartbeat, or after the unit's own when the last frame brought none. -/
def State.mateLabel (s : State) : Option Nat :=
  if s.decides || s.hbLost || !s.mateUp then none
  else if s.mate.hbNow && s.mate.hbRun != 0 then some ((ofBe (s.mate.hb.take 5) + 1) % 2 ^ 40)
  else some ((s.epoch + 1) % 2 ^ 40)

/-- The rest of the frame passes, and the next begins. -/
def State.nextFrameBegins (s : State) : State :=
  let s := (s.elapse (75000 - s.cyc)).swapUnlock
  { s with clk := { frame := s.frame + 1, cyc := 0 } }

/-- The commit at this hinge changed the source that the word of output `a` names (R193). -/
def wordMoved (old new : State) (a : Nat) (prot : Bool) : Bool := old.mc.act.source a prot != new.mc.act.source a prot

/-- Moves of lane-pair groups, then of selectors, each in ascending order (R25). `old` is the state before the commit. -/
def State.moves (old s : State) : State :=
  let s := (List.range 32).foldl (fun (s : State) g => s.grpTurn g) s
  (s.sels.map (fun e => e.1)).foldl (fun (t : State) a => t.selTurn a (wordMoved old s a false || wordMoved old s a true)) s

/-- Equalised groups at the hinge; the outputs of those that re-anchored owe NDF. -/
def State.eqTurns (old s : State) : State × List Nat :=
  (s.eqs.map (fun e => e.1)).foldl (fun (t : State × List Nat) q =>
    let a := eqOut (t.1.eqg q).cfg
    let u := t.1.eqTurn q (wordMoved old s a false || wordMoved old s a true)
    (u.1, if u.2.anchored then t.2 ++ [a] else t.2)) (s, [])

/-- New bench settings take effect (R437); an analyser that is off holds no alignment. -/
def benchTurn (d : Bench) : Bench :=
  match d.cfgDue with
  | none => d
  | some w =>
    let old := d
    let d := { d with cfg := w, cfgDue := none }
    let d := if d.pattern = old.pattern then d else { d with gen := 0x7FFFFF }
    if d.anaEn then d
    else { d with ip := {}, mon := {}, ana := 0x7FFFFF, good := 0, sync := false, win := 0 }

/-- Every bench drawer at the hinge. -/
def State.benchTurns (s : State) : State := { s with benches := mapMapVals {} (fun _ d => benchTurn d) s.benches }

/-- Groups and selectors decide from what takes effect at this hinge; their moves follow at the next (R191, R193). -/
def State.decisions (old s : State) : State :=
  let s := (List.range 32).foldl (fun (s : State) g => s.grpDecide g) s
  let pw (n : Nat) : Bool := (s.ctx n).failed
  (s.sels.map (fun e => e.1)).foldl (fun (t : State) a =>
    t.selDecide a (t.sideCond pw (t.mc.act.source a false)) (t.sideCond pw (t.mc.act.source a true))
      (wordMoved old s a false) (wordMoved old s a true)) s

/-- The outputs that changed what they carry owe a frame with NDF (R106), as do those of `more`. -/
def State.sourceChanges (old s : State) (more : List Nat) : State :=
  let as := (old.outputs ++ s.outputs).filter (fun a => carryChanged (old.carry a) (s.carry a))
  { s with ndf := (as ++ more).foldl (fun (m : SMap Nat) a => mput m a 1) s.ndf }

/-- Selector `e.1` goes to the mate when its record changed (R297). -/
def State.mirrorSelTurn (old s : State) (e : Nat × Sel) : State :=
  if (old.sel e.1).mirror 20 = e.2.mirror 20 then s else s.mirrorSel e.1

/-- Group `e.1` goes to the mate when its record changed (R297). -/
def State.mirrorGrpTurn (old s : State) (e : Nat × Sel) : State :=
  if (old.grpAsk e.1).mirror 32 = (s.grpAsk e.1).mirror 32 then s else s.mirrorGrp e.1

/-- The selectors, then the groups, that changed. -/
def State.mirrorSels (old s : State) : State := s.sels.foldl (State.mirrorSelTurn old) s
def State.mirrorGrps (old s : State) : State := s.groups.foldl (State.mirrorGrpTurn old) s

/-- In PRIMARY the selectors and groups that changed go to the mate, with the contexts, TIMING and TIME (R297). -/
def State.mirrorTurn (old s : State) : State := (State.mirrorGrps old (State.mirrorSels old s)).mirrorFrame

/-- What a hinge does to the traffic functions, in the modes that have them: `old` is the state of the frame that ended. -/
def State.trafficHinge (old s : State) : State :=
  let s := (State.moves old s.powerHinge).actions
  let t := State.eqTurns old s.lanesHinge
  State.mirrorTurn old (State.sourceChanges old (State.decisions old t.1.benchTurns) t.2)

/-- CLK_OUT and PPS_OUT from this hinge on (R267, R275). -/
def State.clockTurn (s : State) : State :=
  if s.domUp 2 then { s with tm := { s.tm with clkOut := s.clkOuts }, nt := { s.nt with pps := s.nt.pps && s.ppsMay } } else s

/-- The queue-fill checks that disagreed in the frame (R345). -/
def State.fillChecks (s : State) (i : HingeIn) : State :=
  let s := if i.eqErr then s.eqMismatch else s
  let s := if i.trErr then s.trMismatch else s
  if i.chErr then s.chMismatch else s

/-- The changes of the hinge that begins the present frame, in the order of R25. -/
def State.changes (old s : State) : State :=
  let s := s.modeHinge
  if !(s.domUp 1 && s.domUp 2) then s
  else
    let s := s.commitHinge s.frame s.epoch
    let s := if trafficMode s.mode then State.trafficHinge old s else s.powerHinge.actions
    s.clockTurn.readyChk.notifyTurn

/-- A hinge. -/
def State.hingeTurn (s : State) (i : HingeIn) : State :=
  let s := (s.fabricFrame i).fillChecks i
  let t := s.nextFrameBegins
  let t := (t.labelHinge t.mateLabel).count .dfab 0 4
  State.changes s t.mateHinge

/-- HINGE: there is none without the timing domain, without power or under RESET_N. -/
def execHinge (i : HingeIn) (s : State) : Host.Outcome State Fault Refusal :=
  let s := s.start
  if s.domUp 2 && (s.pow.phase == .running || s.pow.phase == .soft) then ok (s.hingeTurn i) else ok s

/-- MAP_INIT_DONE (R134, R161, R183). -/
def execMapInitDone (s : State) : Host.Outcome State Fault Refusal :=
  let s := s.start
  if s.fabricOn && !s.mc.inited && s.pow.phase == .running then ok s.mapInit.readyChk else ok s

end Sys2Proof.Machine
end

