-- ==== Sys2Proof/Machine/Dispatch.lean ====
section
/-! DEFINITION. Which meaning each command has: one arm per row of spec/opcode_table.json. -/
namespace Sys2Proof.Machine

/-- The effect of command `i` on everything but the queue. -/
def exec (i : Instr) (s : State) : Host.Outcome State Fault Refusal :=
  match i with
  | .powerOn st => Sys2Proof.Machine.execPowerOn st s
  | .resetNAssert => Sys2Proof.Machine.execResetNAssert s
  | .resetNRelease st => Sys2Proof.Machine.execResetNRelease st s
  | .softReset key => Sys2Proof.Machine.execSoftReset key s
  | .softResetEnd => Sys2Proof.Machine.execSoftResetEnd s
  | .hinge i0 => Sys2Proof.Machine.execHinge i0 s
  | .frameTick l bits => Sys2Proof.Machine.execFrameTick l bits s
  | .laneFrameRx l f => Sys2Proof.Machine.execLaneFrameRx l f s
  | .fasCandidateOpen n p => Sys2Proof.Machine.execFasCandidateOpen n p s
  | .fasCandidateConfirm n p q stuff diff => Sys2Proof.Machine.execFasCandidateConfirm n p q stuff diff s
  | .fasCandidateDrop n p => Sys2Proof.Machine.execFasCandidateDrop n p s
  | .sigDetChange n present => Sys2Proof.Machine.execSigDetChange n present s
  | .cdrLockChange n locked => Sys2Proof.Machine.execCdrLockChange n locked s
  | .quadPllLockChange q locked => Sys2Proof.Machine.execQuadPllLockChange q locked s
  | .refOffsetUpdate q off => Sys2Proof.Machine.execRefOffsetUpdate q off s
  | .refRangeClear q => Sys2Proof.Machine.execRefRangeClear q s
  | .laneDefectDeclare n d run => Sys2Proof.Machine.execLaneDefectDeclare n d run s
  | .laneDefectClear n d run => Sys2Proof.Machine.execLaneDefectClear n d run s
  | .fillerBerCheck n => Sys2Proof.Machine.execFillerBerCheck n s
  | .drawerDefectDeclare n c d run => Sys2Proof.Machine.execDrawerDefectDeclare n c d run s
  | .drawerDefectClear n c d run => Sys2Proof.Machine.execDrawerDefectClear n c d run s
  | .integWrite n r set clear => Sys2Proof.Machine.execIntegWrite n r set clear s
  | .laneEnSet n => Sys2Proof.Machine.execLaneEnSet n s
  | .laneEnClear n => Sys2Proof.Machine.execLaneEnClear n s
  | .rateWrite n rate => Sys2Proof.Machine.execRateWrite n rate s
  | .loopWrite n loop => Sys2Proof.Machine.execLoopWrite n loop s
  | .eqLoad n => Sys2Proof.Machine.execEqLoad n s
  | .eqLoadDone n => Sys2Proof.Machine.execEqLoadDone n s
  | .eyeStart n => Sys2Proof.Machine.execEyeStart n s
  | .eyeAbort n => Sys2Proof.Machine.execEyeAbort n s
  | .eyePointDone n count => Sys2Proof.Machine.execEyePointDone n count s
  | .drwRead n => Sys2Proof.Machine.execDrwRead n s
  | .drwReadClear n => Sys2Proof.Machine.execDrwReadClear n s
  | .drwWrite n => Sys2Proof.Machine.execDrwWrite n s
  | .reqPush hi => Sys2Proof.Machine.execReqPush hi s
  | .listStart => Sys2Proof.Machine.execListStart s
  | .listAbort => Sys2Proof.Machine.execListAbort s
  | .listRequestFetch => Sys2Proof.Machine.execListRequestFetch s
  | .listTagCheckDone => Sys2Proof.Machine.execListTagCheckDone s
  | .mapConnect => Sys2Proof.Machine.execMapConnect s
  | .mapUneq => Sys2Proof.Machine.execMapUneq s
  | .mapAis => Sys2Proof.Machine.execMapAis s
  | .slot => Sys2Proof.Machine.execSlot s
  | .const => Sys2Proof.Machine.execConst s
  | .party => Sys2Proof.Machine.execParty s
  | .hear => Sys2Proof.Machine.execHear s
  | .planeEnWrite v => Sys2Proof.Machine.execPlaneEnWrite v s
  | .mapInitDone => Sys2Proof.Machine.execMapInitDone s
  | .wordRecompute w altered => Sys2Proof.Machine.execWordRecompute w altered s
  | .centreLossSweep => Sys2Proof.Machine.execCentreLossSweep s
  | .routeBurstWrite f edit burst => Sys2Proof.Machine.execRouteBurstWrite f edit burst s
  | .benchRead => Sys2Proof.Machine.execBenchRead s
  | .benchReadClear => Sys2Proof.Machine.execBenchReadClear s
  | .benchWrite => Sys2Proof.Machine.execBenchWrite s
  | .gRead => Sys2Proof.Machine.execGRead s
  | .gReadClear => Sys2Proof.Machine.execGReadClear s
  | .confRead => Sys2Proof.Machine.execConfRead s
  | .confReadClear => Sys2Proof.Machine.execConfReadClear s
  | .commitNow => Sys2Proof.Machine.execCommitNow s
  | .commitArm dropLate => Sys2Proof.Machine.execCommitArm dropLate s
  | .commitCancel => Sys2Proof.Machine.execCommitCancel s
  | .commitTake => Sys2Proof.Machine.execCommitTake s
  | .commitCut => Sys2Proof.Machine.execCommitCut s
  | .catchupDone => Sys2Proof.Machine.execCatchupDone s
  | .sumAct => Sys2Proof.Machine.execSumAct s
  | .sumEdit => Sys2Proof.Machine.execSumEdit s
  | .sumDone => Sys2Proof.Machine.execSumDone s
  | .selLo => Sys2Proof.Machine.execSelLo s
  | .selFs => Sys2Proof.Machine.execSelFs s
  | .selMsP => Sys2Proof.Machine.execSelMsP s
  | .selMsW => Sys2Proof.Machine.execSelMsW s
  | .selClear => Sys2Proof.Machine.execSelClear s
  | .sRead => Sys2Proof.Machine.execSRead s
  | .sReadClear => Sys2Proof.Machine.execSReadClear s
  | .sWrite => Sys2Proof.Machine.execSWrite s
  | .grpLo g => Sys2Proof.Machine.execGrpLo g s
  | .grpFs g => Sys2Proof.Machine.execGrpFs g s
  | .grpMsP g => Sys2Proof.Machine.execGrpMsP g s
  | .grpMsW g => Sys2Proof.Machine.execGrpMsW g s
  | .grpClear g => Sys2Proof.Machine.execGrpClear g s
  | .gCfgWrite g v => Sys2Proof.Machine.execGCfgWrite g v s
  | .holdoffExpire t side run => Sys2Proof.Machine.execHoldoffExpire t side run s
  | .wtrExpire t run => Sys2Proof.Machine.execWtrExpire t run s
  | .apsMmDeclare g => Sys2Proof.Machine.execApsMmDeclare g s
  | .apsMmClear g => Sys2Proof.Machine.execApsMmClear g s
  | .dramCfgWrite c v => Sys2Proof.Machine.execDramCfgWrite c v s
  | .dramTrainDone c => Sys2Proof.Machine.execDramTrainDone c s
  | .dramTrainFail c step => Sys2Proof.Machine.execDramTrainFail c step s
  | .dqsRetune c => Sys2Proof.Machine.execDqsRetune c s
  | .dramHotChange c hot => Sys2Proof.Machine.execDramHotChange c hot s
  | .windowWrite m addr data => Sys2Proof.Machine.execWindowWrite m addr data s
  | .winEnable w v => Sys2Proof.Machine.execWinEnable w v s
  | .qRead => Sys2Proof.Machine.execQRead s
  | .qReadClear => Sys2Proof.Machine.execQReadClear s
  | .qWrite => Sys2Proof.Machine.execQWrite s
  | .eqMultiframe q side tag => Sys2Proof.Machine.execEqMultiframe q side tag s
  | .eqContainerRelease q tag k altered => Sys2Proof.Machine.execEqContainerRelease q tag k altered s
  | .ctxRead => Sys2Proof.Machine.execCtxRead s
  | .ctxReadClear => Sys2Proof.Machine.execCtxReadClear s
  | .ctxWrite => Sys2Proof.Machine.execCtxWrite s
  | .tplRead => Sys2Proof.Machine.execTplRead s
  | .tplWrite => Sys2Proof.Machine.execTplWrite s
  | .tplInval => Sys2Proof.Machine.execTplInval s
  | .ethFrameRx p f => Sys2Proof.Machine.execEthFrameRx p f s
  | .ethFrameTx p sfdAgo => Sys2Proof.Machine.execEthFrameTx p sfdAgo s
  | .ethLinkChange p up => Sys2Proof.Machine.execEthLinkChange p up s
  | .launchSlot i0 => Sys2Proof.Machine.execLaunchSlot i0 s
  | .hostTxDesc p => Sys2Proof.Machine.execHostTxDesc p s
  | .playoutUnit n => Sys2Proof.Machine.execPlayoutUnit n s
  | .jbBurstWrite n f => Sys2Proof.Machine.execJbBurstWrite n f s
  | .jbMerge n f => Sys2Proof.Machine.execJbMerge n f s
  | .refActivityChange r a => Sys2Proof.Machine.execRefActivityChange r a s
  | .unstableClear r => Sys2Proof.Machine.execUnstableClear r s
  | .timingUpdate m => Sys2Proof.Machine.execTimingUpdate m s
  | .persistExpire r run => Sys2Proof.Machine.execPersistExpire r run s
  | .hit p => Sys2Proof.Machine.execHit p s
  | .refQualify r run => Sys2Proof.Machine.execRefQualify r run s
  | .lockoutEnd r => Sys2Proof.Machine.execLockoutEnd r s
  | .transitionStep phase => Sys2Proof.Machine.execTransitionStep phase s
  | .dpllLocked => Sys2Proof.Machine.execDpllLocked s
  | .holdoverOos seconds => Sys2Proof.Machine.execHoldoverOos seconds s
  | .loFailDeclare => Sys2Proof.Machine.execLoFailDeclare s
  | .loFailClear => Sys2Proof.Machine.execLoFailClear s
  | .timeRead => Sys2Proof.Machine.execTimeRead s
  | .samplePush hi => Sys2Proof.Machine.execSamplePush hi s
  | .masterTimeout run => Sys2Proof.Machine.execMasterTimeout run s
  | .stepGo abs neg => Sys2Proof.Machine.execStepGo abs neg s
  | .ppsOutEdge => Sys2Proof.Machine.execPpsOutEdge s
  | .ppsIn => Sys2Proof.Machine.execPpsIn s
  | .actArm i0 action dropLate => Sys2Proof.Machine.execActArm i0 action dropLate s
  | .actCancel i0 => Sys2Proof.Machine.execActCancel i0 s
  | .dxEnable => Sys2Proof.Machine.execDxEnable s
  | .heartbeatRx l lo lagNs => Sys2Proof.Machine.execHeartbeatRx l lo lagNs s
  | .hbFrameMissed => Sys2Proof.Machine.execHbFrameMissed s
  | .mirReq l rec => Sys2Proof.Machine.execMirReq l rec s
  | .mirCommit l rec => Sys2Proof.Machine.execMirCommit l rec s
  | .mirSel l rec => Sys2Proof.Machine.execMirSel l rec s
  | .mirGrp l rec => Sys2Proof.Machine.execMirGrp l rec s
  | .mirEqcfg l rec => Sys2Proof.Machine.execMirEqcfg l rec s
  | .mirPwcfg l rec => Sys2Proof.Machine.execMirPwcfg l rec s
  | .mirPwctx l rec => Sys2Proof.Machine.execMirPwctx l rec s
  | .mirTiming l rec => Sys2Proof.Machine.execMirTiming l rec s
  | .mirTime l rec => Sys2Proof.Machine.execMirTime l rec s
  | .mirPull l rec => Sys2Proof.Machine.execMirPull l rec s
  | .mirPullEnd l rec => Sys2Proof.Machine.execMirPullEnd l rec s
  | .mirRelease => Sys2Proof.Machine.execMirRelease s
  | .swap => Sys2Proof.Machine.execSwap s
  | .join => Sys2Proof.Machine.execJoin s
  | .matePull => Sys2Proof.Machine.execMatePull s
  | .rtsAlignDone => Sys2Proof.Machine.execRtsAlignDone s
  | .rtsVerifyDone actD actS editD editS => Sys2Proof.Machine.execRtsVerifyDone actD actS editD editS s
  | .rtsFail => Sys2Proof.Machine.execRtsFail s
  | .gaspIn => Sys2Proof.Machine.execGaspIn s
  | .claimMateChange asserted => Sys2Proof.Machine.execClaimMateChange asserted s
  | .faultWrite f => Sys2Proof.Machine.execFaultWrite f s
  | .chainEnum f => Sys2Proof.Machine.execChainEnum f s
  | .chainRd side f => Sys2Proof.Machine.execChainRd side f s
  | .chainWr side f => Sys2Proof.Machine.execChainWr side f s
  | .chainResetAddr side f => Sys2Proof.Machine.execChainResetAddr side f s
  | .chainWake side f => Sys2Proof.Machine.execChainWake side f s
  | .chainForward side f => Sys2Proof.Machine.execChainForward side f s
  | .chainCmdExecute => Sys2Proof.Machine.execChainCmdExecute s
  | .notifyRepeat => Sys2Proof.Machine.execNotifyRepeat s
  | .armModeReturn => Sys2Proof.Machine.execArmModeReturn s
  | .pcieRequest r => Sys2Proof.Machine.execPcieRequest r s
  | .pcieCompletionTimeout tag => Sys2Proof.Machine.execPcieCompletionTimeout tag s
  | .perstN e => Sys2Proof.Machine.execPerstN e s
  | .matrixGrant t rs b => Sys2Proof.Machine.execMatrixGrant t rs b s
  | .matrixTimeout t => Sys2Proof.Machine.execMatrixTimeout t s
  | .bridgeTmo => Sys2Proof.Machine.execBridgeTmo s
  | .lockBrk t => Sys2Proof.Machine.execLockBrk t s
  | .wdKick key => Sys2Proof.Machine.execWdKick key s
  | .wdFired run => Sys2Proof.Machine.execWdFired run s
  | .remapWrite m remap => Sys2Proof.Machine.execRemapWrite m remap s
  | .evtMaskWrite p i1 v => Sys2Proof.Machine.execEvtMaskWrite p i1 v s
  | .eventQueuePop => Sys2Proof.Machine.execEventQueuePop s
  | .eventQueueFlush => Sys2Proof.Machine.execEventQueueFlush s
  | .chgCapture v => Sys2Proof.Machine.execChgCapture v s
  | .cntPreset p i1 k v => Sys2Proof.Machine.execCntPreset p i1 k v s
  | .cntWrap p i1 k => Sys2Proof.Machine.execCntWrap p i1 k s
  | .perfSnap => Sys2Proof.Machine.execPerfSnap s
  | .perfFreeze on => Sys2Proof.Machine.execPerfFreeze on s
  | .snapPin level => Sys2Proof.Machine.execSnapPin level s
  | .traceEnable v => Sys2Proof.Machine.execTraceEnable v s
  | .traceRecord stage id info item => Sys2Proof.Machine.execTraceRecord stage id info item s
  | .tracePop => Sys2Proof.Machine.execTracePop s
  | .traceDrainWrite => Sys2Proof.Machine.execTraceDrainWrite s
  | .spInitDone => Sys2Proof.Machine.execSpInitDone s
  | .stLineTest r => Sys2Proof.Machine.execStLineTest r s
  | .stStall => Sys2Proof.Machine.execStStall s
  | .lcGo target => Sys2Proof.Machine.execLcGo target s
  | .lcDone => Sys2Proof.Machine.execLcDone s
  | .loadId => Sys2Proof.Machine.execLoadId s
  | .loadAuth => Sys2Proof.Machine.execLoadAuth s
  | .enforceWrite on => Sys2Proof.Machine.execEnforceWrite on s
  | .tamper => Sys2Proof.Machine.execTamper s
  | .respond => Sys2Proof.Machine.execRespond s
  | .idResponseReady => Sys2Proof.Machine.execIdResponseReady s
  | .vinFail => Sys2Proof.Machine.execVinFail s
  | .shed stage run => Sys2Proof.Machine.execShed stage run s
  | .vinBack held => Sys2Proof.Machine.execVinBack held s
  | .holdupExhausted => Sys2Proof.Machine.execHoldupExhausted s
  | .holdup ok => Sys2Proof.Machine.execHoldup ok s
  | .domEnWrite hi v => Sys2Proof.Machine.execDomEnWrite hi v s
  | .domainUsable d => Sys2Proof.Machine.execDomainUsable d s
  | .xtal ok => Sys2Proof.Machine.execXtal ok s
  | .wakeNEdge => Sys2Proof.Machine.execWakeNEdge s
  | .wakeTimerExpire run => Sys2Proof.Machine.execWakeTimerExpire run s
  | .modeRequest req => Sys2Proof.Machine.execModeRequest req s
  | .dramQueueTimeout c sub => Sys2Proof.Machine.execDramQueueTimeout c sub s
  | .rxFramerTimeout n => Sys2Proof.Machine.execRxFramerTimeout n s
  | .txFramerTimeout n => Sys2Proof.Machine.execTxFramerTimeout n s
  | .indirectPortTimeout p => Sys2Proof.Machine.execIndirectPortTimeout p s
  | .dramTrainTimeout c => Sys2Proof.Machine.execDramTrainTimeout c s
  | .pageLock p i1 => Sys2Proof.Machine.execPageLock p i1 s
  | .w1cWrite addr v set => Sys2Proof.Machine.execW1cWrite addr v set s
  | .rcRead user addr => Sys2Proof.Machine.execRcRead user addr s
  | .word64LowerRead addr => Sys2Proof.Machine.execWord64LowerRead addr s
  | .word64LowerWrite addr v => Sys2Proof.Machine.execWord64LowerWrite addr v s
  | .word64UpperWrite addr v => Sys2Proof.Machine.execWord64UpperWrite addr v s
  | .regWrite addr v => Sys2Proof.Machine.execRegWrite addr v s
  | .ppsWidthEnd => Sys2Proof.Machine.execPpsWidthEnd s
  | .tamperNRelease => Sys2Proof.Machine.execTamperNRelease s
  | .gaspInRelease => Sys2Proof.Machine.execGaspInRelease s
  | .tokInChange on => Sys2Proof.Machine.execTokInChange on s
  | .chainClockLoss g => Sys2Proof.Machine.execChainClockLoss g s
  | .matrixResponse t => Sys2Proof.Machine.execMatrixResponse t s
  | .indirectCommandDone p => Sys2Proof.Machine.execIndirectCommandDone p s
  | .pcieConfigRequest c => Sys2Proof.Machine.execPcieConfigRequest c s
  | .pauseExpire p => Sys2Proof.Machine.execPauseExpire p s

end Sys2Proof.Machine
end

