-- ==== Sys2Proof/WellFormed.lean ====
section
/-! DEFINITION. Well-formed commands: those whose operands have a form that the spec gives them. A byte list has the length of what
it stands for, a page instance exists and a word reference names a word. -/
namespace Sys2Proof

open Sys2Proof.Machine

/-- A page has an instance `i` (R406). -/
def pageExists (p : Page) (i : Nat) : Bool := decide (i < pageCount p)

/-- A mirror record of type `type` (R295). -/
def recordForm (type : Nat) (r : List Byte) : Bool := r.length == 16 && (r.getD 0 0).toNat == type

/-- Command `i` is well formed. -/
def Instr.wf (i : Instr) : Bool :=
  match i with
  | .heartbeatRx _ lo _ => lo.length == 56
  | .mirReq _ r => recordForm 1 r
  | .mirCommit _ r => recordForm 2 r
  | .mirSel _ r => recordForm 3 r
  | .mirGrp _ r => recordForm 4 r
  | .mirEqcfg _ r => recordForm 5 r
  | .mirPwcfg _ r => recordForm 6 r
  | .mirPwctx _ r => recordForm 7 r
  | .mirTiming _ r => recordForm 8 r
  | .mirTime _ r => recordForm 9 r
  | .mirPull _ r => recordForm 0xA r
  | .mirPullEnd _ r => recordForm 0xB r
  | .pcieRequest r => pcieForm r
  | .evtMaskWrite p i _ => pageExists p i
  | .cntPreset p i _ _ => pageExists p i
  | .cntWrap p i _ => pageExists p i
  | .pageLock p i => pageExists p i
  | .wordRecompute w _ => wordExists (w.fabric == .slot) w.index.toNat
  | .laneFrameRx _ _ | .powerOn _ | .resetNAssert | .resetNRelease _ | .softReset _ | .softResetEnd | .hinge _ | .frameTick _ _
  | .fasCandidateOpen _ _ | .fasCandidateConfirm _ _ _ _ _ | .fasCandidateDrop _ _ | .sigDetChange _ _ | .cdrLockChange _ _
  | .quadPllLockChange _ _ | .refOffsetUpdate _ _ | .refRangeClear _ | .laneDefectDeclare _ _ _ | .laneDefectClear _ _ _
  | .fillerBerCheck _ | .drawerDefectDeclare _ _ _ _ | .drawerDefectClear _ _ _ _ | .integWrite _ _ _ _ | .laneEnSet _
  | .laneEnClear _ | .rateWrite _ _ | .loopWrite _ _ | .eqLoad _ | .eqLoadDone _ | .eyeStart _ | .eyeAbort _
  | .eyePointDone _ _ | .drwRead _ | .drwReadClear _ | .drwWrite _ | .reqPush _ | .listStart | .listAbort | .listRequestFetch
  | .listTagCheckDone | .mapConnect | .mapUneq | .mapAis | .slot | .const | .party | .hear | .planeEnWrite _ | .mapInitDone
  | .centreLossSweep | .routeBurstWrite _ _ _ | .benchRead | .benchReadClear | .benchWrite | .gRead | .gReadClear | .confRead
  | .confReadClear | .commitNow | .commitArm _ | .commitCancel | .commitTake | .commitCut | .catchupDone | .sumAct | .sumEdit
  | .sumDone | .selLo | .selFs | .selMsP | .selMsW | .selClear | .sRead | .sReadClear | .sWrite | .grpLo _ | .grpFs _
  | .grpMsP _ | .grpMsW _ | .grpClear _ | .gCfgWrite _ _ | .holdoffExpire _ _ _ | .wtrExpire _ _ | .apsMmDeclare _
  | .apsMmClear _ | .dramCfgWrite _ _ | .dramTrainDone _ | .dramTrainFail _ _ | .dqsRetune _ | .dramHotChange _ _
  | .windowWrite _ _ _ | .winEnable _ _ | .qRead | .qReadClear | .qWrite | .eqMultiframe _ _ _ | .eqContainerRelease _ _ _ _ | .ctxRead | .ctxReadClear
  | .ctxWrite | .tplRead | .tplWrite | .tplInval | .ethFrameRx _ _ | .ethFrameTx _ _ | .ethLinkChange _ _ | .launchSlot _
  | .hostTxDesc _ | .playoutUnit _ | .jbBurstWrite _ _ | .jbMerge _ _ | .refActivityChange _ _ | .unstableClear _
  | .timingUpdate _ | .persistExpire _ _ | .hit _ | .refQualify _ _ | .lockoutEnd _ | .transitionStep _ | .dpllLocked
  | .holdoverOos _ | .loFailDeclare | .loFailClear | .timeRead | .samplePush _ | .masterTimeout _ | .stepGo _ _ | .ppsOutEdge
  | .ppsIn | .actArm _ _ _ | .actCancel _ | .dxEnable | .hbFrameMissed | .mirRelease | .swap | .join | .matePull
  | .rtsAlignDone | .rtsVerifyDone _ _ _ _ | .rtsFail | .gaspIn | .claimMateChange _ | .faultWrite _ | .chainEnum _
  | .chainRd _ _ | .chainWr _ _ | .chainResetAddr _ _ | .chainWake _ _ | .chainForward _ _ | .chainCmdExecute | .notifyRepeat
  | .armModeReturn | .pcieCompletionTimeout _ | .perstN _ | .matrixGrant _ _ _ | .matrixTimeout _ | .bridgeTmo | .lockBrk _
  | .wdKick _ | .wdFired _ | .remapWrite _ _ | .eventQueuePop | .eventQueueFlush | .chgCapture _ | .perfSnap | .perfFreeze _
  | .snapPin _ | .traceEnable _ | .traceRecord _ _ _ _ | .tracePop | .traceDrainWrite | .spInitDone | .stLineTest _ | .stStall
  | .lcGo _ | .lcDone | .loadId | .loadAuth | .enforceWrite _ | .tamper | .respond | .idResponseReady | .vinFail | .shed _ _
  | .vinBack _ | .holdupExhausted | .holdup _ | .domEnWrite _ _ | .domainUsable _ | .xtal _ | .wakeNEdge | .wakeTimerExpire _
  | .modeRequest _ | .dramQueueTimeout _ _ | .rxFramerTimeout _ | .txFramerTimeout _ | .indirectPortTimeout _
  | .dramTrainTimeout _ | .w1cWrite _ _ _ | .rcRead _ _ | .word64LowerRead _ | .word64LowerWrite _ _ | .word64UpperWrite _ _
  | .regWrite _ _ | .ppsWidthEnd | .tamperNRelease | .gaspInRelease | .tokInChange _ | .chainClockLoss _ | .matrixResponse _
  | .indirectCommandDone _ | .pcieConfigRequest _ | .pauseExpire _ => true

end Sys2Proof
end

