-- ==== Sys2Proof/Safety.lean ====
section
/-! DEFINITION. What counts as a safe run, in the terms that statements use: a scratchpad in canonical form, runs of several steps,
and which commands the indirect ports latch. -/
namespace Sys2Proof.Machine

/-- The state's addressed memory is in its one canonical form. -/
def State.memWf (s : State) : Bool := Memory.wf s.sp

/-- `n` steps in a row; a fault or a refusal ends the run. -/
def runSteps (n : Nat) (s : State) : Host.Outcome State Fault Refusal :=
  match n with
  | 0 => .next s
  | n + 1 =>
    match step s with
    | .next t => runSteps n t
    | .fault f => .fault f
    | .refused r => .refused r

/-- Every waiting command has operands of a form that the spec gives. -/
def State.queueWf (s : State) : Bool := s.pending.all Instr.wf

/-- Begins a frame, or a new start of the module. -/
def movesTime (c : Instr) : Bool :=
  match c with
  | .hinge _ | .powerOn _ | .holdupExhausted => true
  | _ => false

/-! Registers (R10). -/

/-- Offsets of the registers of page `p` whose write does more than give each field its bits: commands, enables with effects of their
own, masks, and fields whose writing another one guards. -/
def writeActs (p : Page) : List Nat :=
  [0x18, 0xA0] ++
  match p with
  | .global => [0x120, 0x140]
  | .power => [0x110, 0x114, 0x120]
  | .event => [0x110, 0x130, 0x720]
  | .perf => [0x100, 0x140]
  | .timing => [0x104, 0x120]
  | .ntime => [0x100, 0x12C, 0x134, 0x160, 0x208]
  | .mate => [0x100]
  | .seq => [0x100, 0x108]
  | .secure => [0x208, 0x220, 0x260, 0x2A0]
  | .dramc => [0x100, 0x180]
  | .bench => [0x104]
  | .lanep => [0x100, 0x110, 0x130]
  | .lanef => [0x110, 0x184, 0x304, 0x320]
  | .mapc => [0x100, 0x10C, 0x118, 0x140, 0x148]
  | .prot => [0x104, 0x200, 0x204]
  | .sfab | .conf | .eq => [0x114]
  | .pw => [0x114, 0x144]
  | .eth => [0x104, 0x140, 0x144, 0x150, 0x154, 0x158]
  | .matrix | .dfab => []

/-- Offsets of the registers of page `p` whose read does more than give a word and clear what reading clears: the heads of the event
and trace queues, the captured time. -/
def readActs (p : Page) : List Nat :=
  match p with
  | .event => [0x118]
  | .perf => [0x150]
  | .ntime => [0x110]
  | .global | .power | .timing | .mate | .matrix | .seq | .secure | .dramc | .bench | .lanep | .lanef | .dfab | .mapc | .sfab | .conf
  | .prot | .eq | .pw | .eth => []

/-- The value that field `x`, reading `old`, has after its bits `w` of a word are written (R10, R16); `lock` is PAGE_CTL.LOCK. -/
def FSpec.written (x : FSpec) (lock : Bool) (old w : Nat) : Nat :=
  let taken := if x.lo ≤ w ∧ w ≤ x.hi then w else old
  match x.acc with
  | .rw | .rws => taken
  | .rwl => if lock then old else taken
  | .w1c => andNot x.fld.width old w % 2 ^ x.fld.width
  | .w1s => (old ||| w) % 2 ^ x.fld.width
  | .wo => w
  | .ro | .rc => old

/-! The indirect ports (R115, R142, R144, R157, R184, R215, R232, R236, R404). -/

/-- The page and instance that hold an indirect port. -/
def portPage (p : Port) : Page × Nat :=
  match p with
  | .drw n => (.lanef, n.val)
  | .bench => (.bench, 0)
  | .sfab => (.sfab, 0)
  | .conf => (.conf, 0)
  | .prot => (.prot, 0)
  | .eq => (.eq, 0)
  | .pwCtx | .pwTpl => (.pw, 0)

/-- The index that a command at the port latches. -/
def State.portIdx (s : State) (p : Port) : Nat :=
  match p with
  | .drw n => s.rd R.LANEF_DRW_IDX_COLUMN n.val
  | .bench => s.rd R.BENCH_B_IDX_DRAWER
  | .sfab => s.rd R.SFAB_G_IDX_DRAWER
  | .conf => s.rd R.CONF_B_IDX_BRIDGE
  | .prot => s.rd R.PROT_S_IDX_OUT
  | .eq => s.rd R.EQ_Q_IDX_GROUP
  | .pwCtx => s.rd R.PW_C_IDX_CTX
  | .pwTpl => s.rd R.PW_T_IDX_TEMPLATE

/-- The settings that a command at the port latches. -/
def State.portSettings (s : State) (p : Port) : List Nat :=
  match p with
  | .drw n => [s.drwCfgWord n.val]
  | .bench => [s.benchCfgWord]
  | .sfab | .conf => []
  | .prot => [s.sCfgWord]
  | .eq => [s.qCfgWord]
  | .pwCtx => s.cCfg
  | .pwTpl => [s.rd R.PW_T_CTL_LABELS, s.rd R.PW_T_CTL_VLANS, s.rd R.PW_T_CTL_ENC] ++
      (List.range 24).map (fun j => s.rd R.PW_T_DATA_BYTES 0 j)

/-- The commands that are a write of an indirect port's command register: the port, and the bits written. READ is 1, WRITE 2, CLR or
INVAL 4; at the selector port EXEC is 8, with the protection command from bit 4 on (1 CLEAR, 2 LO, 3 FS, 4 MS_P, 5 MS_W). -/
def portIssue (c : Instr) : Option (Port × Nat) :=
  match c with
  | .drwRead n => some (.drw n, 1)
  | .drwReadClear n => some (.drw n, 5)
  | .drwWrite n => some (.drw n, 2)
  | .benchRead => some (.bench, 1)
  | .benchReadClear => some (.bench, 5)
  | .benchWrite => some (.bench, 2)
  | .gRead => some (.sfab, 1)
  | .gReadClear => some (.sfab, 5)
  | .confRead => some (.conf, 1)
  | .confReadClear => some (.conf, 5)
  | .selLo => some (.prot, 0x28)
  | .selFs => some (.prot, 0x38)
  | .selMsP => some (.prot, 0x48)
  | .selMsW => some (.prot, 0x58)
  | .selClear => some (.prot, 0x18)
  | .sRead => some (.prot, 1)
  | .sReadClear => some (.prot, 5)
  | .sWrite => some (.prot, 2)
  | .qRead => some (.eq, 1)
  | .qReadClear => some (.eq, 5)
  | .qWrite => some (.eq, 2)
  | .ctxRead => some (.pwCtx, 1)
  | .ctxReadClear => some (.pwCtx, 5)
  | .ctxWrite => some (.pwCtx, 2)
  | .tplRead => some (.pwTpl, 1)
  | .tplWrite => some (.pwTpl, 2)
  | .tplInval => some (.pwTpl, 4)
  | _ => none

end Sys2Proof.Machine
end

