-- ==== Sys2Proof/Certificates/Slice0/Obligations.lean ====
section
/-! DEFINITION. The statements about the block: what each command does, what no command does, and the invariants of a run. -/
open Sys2Proof Sys2Proof.Machine

/-- For every command c and state s, a step of s with c at the front of its queue is exec of c on s with the queue's rest. (R10,
R20) -/
def Obligations.StepRunsFrontCommand : Prop :=
  ∀ (c : Instr) (rest : List Instr) (s : State), s.pending = c :: rest → step s = exec c { s with pending := rest }

/-- A write of the command register of an indirect port on a page that serves its offsets: an idle port latches the bits written,
the index and the settings of that moment and sets BUSY, its timer starts, and nothing else changes; a port that is busy ignores
the write. (R404, R115, R142, R144, R157, R184, R187, R215, R232, R236) -/
def Obligations.PortCommandLatches : Prop :=
  ∀ (c : Instr) (p : Port) (op : Nat) (s : State), portIssue c = some (p, op) → s.served (portPage p).1 (portPage p).2 = true →
    (s.portBusy p = false → exec c s = .next
      (({ s.start with ports := mput s.ports (portKey p) ⟨op, s.portIdx p, s.portSettings p⟩ }.wr (portBusyFld p).1 1 (portBusyFld p).2).mark
        (.port (portKey p)))) ∧
    (s.portBusy p = true → exec c s = .next s.start)

/-- On a page that serves its offsets: EN = 1 is stored when the lane holds a valid record for its rate and sets EN_REFUSED
otherwise; EN = 0 aborts a running eye scan, clears EN and notes that a running lane stops at the next hinge; the equalisation
registers follow EN; a new RATE is stored and the equalisation registers follow it, unless the lane is enabled or grouped, which
sets RATE_REFUSED; a LOOP value is stored, unless it is not 0 outside MAINT, which sets LOOP_REFUSED. Nothing else changes.
(R43, R57, R60, R195) -/
def Obligations.LaneControlWrites : Prop :=
  ∀ (n : Fin 64) (s : State), s.served .lanep n = true →
    (s.on R.LANEP_CTL_EN n = false → s.on R.LANEP_EQ_STAT_LOADED n = true →
      recordValid ((s.lane n).recs.getD (s.rd R.LANEP_CTL_RATE n) []) = true →
      exec (.laneEnSet n) s = .next ((s.start.wr R.LANEP_CTL_EN 1 n).eqShow n)) ∧
    (s.on R.LANEP_CTL_EN n = false → (s.on R.LANEP_EQ_STAT_LOADED n = false ∨
      recordValid ((s.lane n).recs.getD (s.rd R.LANEP_CTL_RATE n) []) = false) →
      exec (.laneEnSet n) s = .next (s.start.wr R.LANEP_STAT_EN_REFUSED 1 n)) ∧
    (s.on R.LANEP_CTL_EN n = true → exec (.laneEnSet n) s = .next s.start) ∧
    (let stops := fun t : State => ((t.wr R.LANEP_CTL_EN 0 n).updLane n (fun l => { l with stopDue := s.running n })).eqShow n
     (s.on R.LANEP_EYE_STAT_BUSY n = false → exec (.laneEnClear n) s = .next (stops s.start)) ∧
     (s.on R.LANEP_EYE_STAT_BUSY n = true → exec (.laneEnClear n) s = .next
       (stops (((s.start.wr R.LANEP_EYE_STAT_BUSY 0 n).wr R.LANEP_EYE_STAT_ABORTED 1 n).raise .lanep n 5)))) ∧
    (∀ rate : BitVec 2, s.rd R.LANEP_CTL_RATE n = rate.toNat → exec (.rateWrite n rate) s = .next s.start) ∧
    (∀ rate : BitVec 2, s.rd R.LANEP_CTL_RATE n ≠ rate.toNat → s.on R.LANEP_CTL_EN n = false → s.inGroup n = false →
      exec (.rateWrite n rate) s = .next ((s.start.wr R.LANEP_CTL_RATE rate.toNat n).eqShow n)) ∧
    (∀ rate : BitVec 2, s.rd R.LANEP_CTL_RATE n ≠ rate.toNat → (s.on R.LANEP_CTL_EN n = true ∨ s.inGroup n = true) →
      exec (.rateWrite n rate) s = .next (s.start.wr R.LANEP_STAT_RATE_REFUSED 1 n)) ∧
    (∀ loop : BitVec 2, (loop = 0 ∨ s.mode = mMAINT) → exec (.loopWrite n loop) s = .next (s.start.wr R.LANEP_CTL_LOOP loop.toNat n)) ∧
    (∀ loop : BitVec 2, loop ≠ 0 → s.mode ≠ mMAINT → exec (.loopWrite n loop) s = .next (s.start.wr R.LANEP_STAT_LOOP_REFUSED 1 n))

/-- START on a served page of an enabled lane sets BUSY and POINT 0, and sets REFUSED while a scan runs; ABORT ends a running scan
with ABORTED and its event; the end of a point of a running scan writes its count, at most one for each of its 2^DWELL_LOG2 unit
intervals and saturating at 0xFFFF, to the scratchpad at EYE_DEST + 2 × POINT and advances POINT, and the last of the 8192
points also clears BUSY, sets DONE and raises the event. (R58, R59) -/
def Obligations.EyeScanCommands : Prop :=
  ∀ (n : Fin 64) (s : State),
    (s.served .lanep n = true → s.on R.LANEP_EYE_STAT_BUSY n = true →
      exec (.eyeStart n) s = .next (s.start.wr R.LANEP_EYE_STAT_REFUSED 1 n) ∧
      exec (.eyeAbort n) s = .next
        (((s.start.wr R.LANEP_EYE_STAT_BUSY 0 n).wr R.LANEP_EYE_STAT_ABORTED 1 n).raise .lanep n 5)) ∧
    (s.served .lanep n = true → s.on R.LANEP_EYE_STAT_BUSY n = false →
      exec (.eyeAbort n) s = .next s.start ∧
      (s.on R.LANEP_CTL_EN n = true → exec (.eyeStart n) s = .next
        ((s.start.wr R.LANEP_EYE_STAT_BUSY 1 n).wr R.LANEP_EYE_STAT_POINT 0 n))) ∧
    (∀ count, s.on R.LANEP_EYE_STAT_BUSY n = true → count ≤ 2 ^ s.rd R.LANEP_EYE_CTL_DWELL_LOG2 n →
      s.rd R.LANEP_EYE_STAT_POINT n < 8191 →
      exec (.eyePointDone n count) s = .next
        ((s.start.spWrite (s.rd R.LANEP_EYE_DEST_BLOCK n * 16384 + 2 * s.rd R.LANEP_EYE_STAT_POINT n)
          (leBytes 2 (min count 0xFFFF))).wr R.LANEP_EYE_STAT_POINT (s.rd R.LANEP_EYE_STAT_POINT n + 1) n)) ∧
    (∀ count, s.on R.LANEP_EYE_STAT_BUSY n = true → count ≤ 2 ^ s.rd R.LANEP_EYE_CTL_DWELL_LOG2 n →
      8191 ≤ s.rd R.LANEP_EYE_STAT_POINT n →
      exec (.eyePointDone n count) s = .next
        (((((s.start.spWrite (s.rd R.LANEP_EYE_DEST_BLOCK n * 16384 + 2 * s.rd R.LANEP_EYE_STAT_POINT n)
          (leBytes 2 (min count 0xFFFF))).wr R.LANEP_EYE_STAT_POINT (s.rd R.LANEP_EYE_STAT_POINT n + 1) n).wr
          R.LANEP_EYE_STAT_BUSY 0 n).wr R.LANEP_EYE_STAT_DONE 1 n).raise .lanep n 4))

/-- LOAD on a served page of a lane that loads nothing sets BUSY and clears the three error bits; while a load runs it is ignored.
The load of an image that reads without a parity detection ends by R56's checks in order: a wrong magic or version ends it with
FMT_ERR, a wrong CRC with CRC_ERR, a record out of range with RANGE_ERR, and otherwise the lane holds its four records. Each
error drops the records held and raises the event. (R53, R55, R56, R359) -/
def Obligations.EqualisationLoad : Prop :=
  ∀ (n : Fin 64) (s : State),
    (s.served .lanep n = true → s.on R.LANEP_EQ_STAT_BUSY n = false → exec (.eqLoad n) s = .next
      ((((s.start.wr R.LANEP_EQ_STAT_BUSY 1 n).wr R.LANEP_EQ_STAT_FMT_ERR 0 n).wr R.LANEP_EQ_STAT_CRC_ERR 0 n).wr
        R.LANEP_EQ_STAT_RANGE_ERR 0 n)) ∧
    (s.served .lanep n = true → s.on R.LANEP_EQ_STAT_BUSY n = true → exec (.eqLoad n) s = .next s.start) ∧
    (s.on R.LANEP_EQ_STAT_BUSY n = true → s.on R.SECURE_SP_STAT_INIT_DONE = true → s.spDetect eqImage 8 = none →
      let u := s.start.wr R.LANEP_EQ_STAT_BUSY 0 n
      let good := ofLe (s.spBytes eqImage 4) = 0x3834365A ∧ ofLe (s.spBytes (eqImage + 4) 2) = 1
      let crc := crc32 (s.spBytes eqImage 0x1020) = ofLe (s.spBytes (eqImage + 0x1020) 4)
      let rs := (List.range 4).map (fun i => s.spBytes (eqImage + 0x20 + 16 * (4 * n.val + i)) 16)
      (¬ good → exec (.eqLoadDone n) s = .next (u.eqFail n R.LANEP_EQ_STAT_FMT_ERR)) ∧
      (good → s.spDetect eqImage 4132 = none → ¬ crc → exec (.eqLoadDone n) s = .next (u.eqFail n R.LANEP_EQ_STAT_CRC_ERR)) ∧
      (good → s.spDetect eqImage 4132 = none → crc → rs.all recordOk = false →
        exec (.eqLoadDone n) s = .next (u.eqFail n R.LANEP_EQ_STAT_RANGE_ERR)) ∧
      (good → s.spDetect eqImage 4132 = none → crc → rs.all recordOk = true →
        exec (.eqLoadDone n) s = .next (u.eqTake n rs)))

/-- An event names what the defect's integrator shows, and one that names anything else changes nothing. A raw lane defect other
than OOF of a running lane that is not declared and not suppressed, and has held for SET, is noted for declaration at the next
hinge; a declared lane defect whose raw condition has been absent for CLEAR is noted for clearance; a monitored drawer defect
likewise with DINTEG. Nothing else changes. (R89, R92, R115, R116) -/
def Obligations.DefectIntegration : Prop :=
  ∀ (n : Fin 64) (s : State),
    (∀ d : LaneDefect, s.running n = true → d ≠ .oof → (s.laneRaw n).testBit (laneDefBit d) = true →
      (s.laneDef n).testBit (laneDefBit d) = false →
      (laneUnsuppressed (setBit (s.laneDef n) (laneDefBit d))).testBit (laneDefBit d) = true →
      s.rd R.LANEF_INTEG_SET n (laneDefBit d) ≤ s.laneRun n (laneDefBit d) →
      exec (.laneDefectDeclare n d (s.laneRun n (laneDefBit d))) s =
        .next (s.start.setLane n { s.lane n with pendSet := setBit (s.lane n).pendSet (laneDefBit d) })) ∧
    (∀ d : LaneDefect, d ≠ .oof → (s.laneDef n).testBit (laneDefBit d) = true → (s.laneRaw n).testBit (laneDefBit d) = false →
      s.rd R.LANEF_INTEG_CLEAR n (laneDefBit d) ≤ s.laneRun n (laneDefBit d) →
      exec (.laneDefectClear n d (s.laneRun n (laneDefBit d))) s =
        .next (s.start.setLane n { s.lane n with pendClr := setBit (s.lane n).pendClr (laneDefBit d) })) ∧
    (∀ (c : BitVec 13) (d : DrawerDefect), s.running n = true → (s.drw n c.toNat).monEn = true →
      (s.drw n c.toNat).raw.testBit (drwDefBit d) = true → (s.drw n c.toNat).declared.testBit (drwDefBit d) = false →
      (drwUnsuppressed (setBit (s.drw n c.toNat).declared (drwDefBit d)) (s.actionB n)).testBit (drwDefBit d) = true →
      s.rd R.LANEF_DINTEG_SET n (drwDefBit d) ≤ s.drwRun n c.toNat (drwDefBit d) →
      exec (.drawerDefectDeclare n c d (s.drwRun n c.toNat (drwDefBit d))) s = .next (s.start.setDrw n c.toNat
        { s.drw n c.toNat with pendSet := setBit (s.drw n c.toNat).pendSet (drwDefBit d) })) ∧
    (∀ (c : BitVec 13) (d : DrawerDefect), (s.drw n c.toNat).declared.testBit (drwDefBit d) = true →
      (s.drw n c.toNat).raw.testBit (drwDefBit d) = false → s.rd R.LANEF_DINTEG_CLEAR n (drwDefBit d) ≤ s.drwRun n c.toNat (drwDefBit d) →
      exec (.drawerDefectClear n c d (s.drwRun n c.toNat (drwDefBit d))) s = .next (s.start.setDrw n c.toNat
        { s.drw n c.toNat with pendClr := setBit (s.drw n c.toNat).pendClr (drwDefBit d) })) ∧
    (∀ (d : LaneDefect) (run : Nat), run ≠ s.laneRun n (laneDefBit d) →
      exec (.laneDefectDeclare n d run) s = .next s.start ∧ exec (.laneDefectClear n d run) s = .next s.start) ∧
    (∀ (c : BitVec 13) (d : DrawerDefect) (run : Nat), run ≠ s.drwRun n c.toNat (drwDefBit d) →
      exec (.drawerDefectDeclare n c d run) s = .next s.start ∧ exec (.drawerDefectClear n c d run) s = .next s.start)

/-- A change of the received amplitude of a lane whose PMA domain is usable shows in SIG_DET. When the amplitude of a running lane
outside a near-end loop disappears, the raw conditions of LOS and OOF hold, OOF is declared, and the framer is in SEARCH with no
candidate. When it appears, or while a near-end loop ignores the pins (the model's reading, log entry 91), the raw condition of
LOS ends. A Dexgor lane keeps it beside its framer, which loses SYNC and its candidates without it. (R91, R85, R82) -/
def Obligations.SignalLossStartsSearch : Prop :=
  (∀ (n : Fin 64) (s : State), s.domUp (20 + n.val / 4) = true → s.running n = true → s.nearLoop n = false →
    ∃ t, exec (.sigDetChange (.horale n) false) s = .next t ∧ t.on R.LANEP_STAT_SIG_DET n = false ∧ (t.laneRaw n).testBit 0 = true ∧
      (t.laneRaw n).testBit 2 = true ∧ (t.laneDef n).testBit 2 = true ∧ t.inSync n = false ∧ (t.lane n).cands = [] ∧
      t.rd R.LANEF_STATE_CAND n = 0) ∧
  (∀ (n : Fin 64) (present : Bool) (s : State), s.domUp (20 + n.val / 4) = true → (present = true ∨ s.nearLoop n = true) →
    exec (.sigDetChange (.horale n) present) s = .next ((s.start.wrB R.LANEP_STAT_SIG_DET present n).setRawDef n 0 false)) ∧
  (∀ (l : Fin 2) (present : Bool) (s : State), s.domUp 3 = true →
    let r := { s.dxRx l with sig := present }
    exec (.sigDetChange (.dexgor l) present) s = .next
      (if r.sig && r.cdr && s.dx.pll && !s.dx.refRange then s.start.setDxRx l r
       else s.start.setDxRx l { r with sync := false, cands := [], errFas := 0 }))

/-- While the PMA domain of the lane's quad is usable: a change of CDR lock shows in STAT, its loss raises CDR_LOL, and the LOL
condition is judged again; a PLL that locks shows in STAT of the quad's four lanes, and one that loses lock raises PLL_LOL and
declares REF_RANGE; a measured reference offset is stored in REF_OFFSET of the four lanes and declares REF_RANGE outside ±1,000
ppm; REF_RANGE clears on each locked lane within ±950 ppm. The Dexgor reference keeps the same in its own record, and the framer
of a Dexgor lane that has lost signal or clock is in SEARCH without candidates. (R42, R91) -/
def Obligations.LaneClockChanges : Prop :=
  ∀ s : State,
    (∀ n : Fin 64, s.domUp (20 + n.val / 4) = true →
      exec (.cdrLockChange (.horale n) true) s = .next ((s.start.wr R.LANEP_STAT_CDR_LOCK 1 n).judgeLol n) ∧
      (s.on R.LANEP_STAT_CDR_LOCK n = true → exec (.cdrLockChange (.horale n) false) s = .next
        ((((s.start.wr R.LANEP_STAT_CDR_LOCK 0 n).eyeStop n).raise .lanep n 2).judgeLol n)) ∧
      (s.on R.LANEP_STAT_CDR_LOCK n = false → exec (.cdrLockChange (.horale n) false) s = .next
        ((s.start.wr R.LANEP_STAT_CDR_LOCK 0 n).judgeLol n))) ∧
    (∀ q : Fin 16, s.domUp (20 + q.val) = true →
      exec (.quadPllLockChange (.quad q) true) s = .next ((quadLanes q.val).foldl (fun (t : State) n =>
        ((t.wr R.LANEP_STAT_PLL_LOCK 1 n).setRaw .lanep n 1 false).judgeLol n) s.start).readyChk ∧
      exec (.quadPllLockChange (.quad q) false) s = .next ((quadLanes q.val).foldl (fun (t : State) n =>
        (((t.wr R.LANEP_STAT_PLL_LOCK 0 n).setRaw .lanep n 1 true).raise .lanep n 1).refRangeLane n) s.start).readyChk ∧
      (∀ off : Int, -100000 ≤ off → off ≤ 100000 → exec (.refOffsetUpdate (.quad q) off) s = .next
        ((quadLanes q.val).foldl (fun (t : State) n => t.wr R.LANEP_REF_OFFSET_OFFSET (ofSigned 20 off) n) s.start)) ∧
      (∀ off : Int, (off < -100000 ∨ 100000 < off) → exec (.refOffsetUpdate (.quad q) off) s = .next
        ((quadLanes q.val).foldl (fun (t : State) n =>
          (t.wr R.LANEP_REF_OFFSET_OFFSET (ofSigned 20 (clampInt (-524288) 524287 off)) n).refRangeLane n) s.start)) ∧
      exec (.refRangeClear (.quad q)) s = .next ((quadLanes q.val).foldl (fun (t : State) n =>
        if t.on R.LANEP_STAT_PLL_LOCK n = true ∧ -95000 ≤ toSigned 20 (t.rd R.LANEP_REF_OFFSET_OFFSET n) ∧
            toSigned 20 (t.rd R.LANEP_REF_OFFSET_OFFSET n) ≤ 95000 then
          ((t.wr R.LANEP_REF_OFFSET_REF_RANGE 0 n).setRaw .lanep n 0 false).judgeLol n else t) s.start)) ∧
    (∀ (l : Fin 2) (locked : Bool), s.domUp 3 = true →
      let r := { s.dxRx l with cdr := locked }
      exec (.cdrLockChange (.dexgor l) locked) s = .next
        (if r.sig && r.cdr && s.dx.pll && !s.dx.refRange then s.start.setDxRx l r
         else s.start.setDxRx l { r with sync := false, cands := [], errFas := 0 })) ∧
    (∀ locked : Bool, exec (.quadPllLockChange .dexgor locked) s = .next
      (({ s.start with dx := { s.dx with pll := locked, refRange := s.dx.refRange || !locked } }.dxJudge 0).dxJudge 1)) ∧
    (∀ off : Int, exec (.refOffsetUpdate .dexgor off) s = .next (({ s.start with dx := { s.dx with
      refOff := off, refRange := s.dx.refRange || decide (off < -100000 ∨ 100000 < off) } }.dxJudge 0).dxJudge 1)) ∧
    (s.dx.pll = true → -95000 ≤ s.dx.refOff → s.dx.refOff ≤ 95000 →
      exec (.refRangeClear .dexgor) s = .next { s.start with dx := { s.dx with refRange := false } })

/-- The check of a running lane closes its 100 ms block, and judges SD over the window of its threshold, EXC over one block and STV
at 16 violations; a block within which SYNC was entered is no part of a window. A write of a lane integrator stores SET and
CLEAR and judges the running integration by them; INTEG[2] takes no write; DINTEG likewise for the drawers of the lane. (R89,
R90, R91) -/
def Obligations.ErrorEstimateAndIntegrators : Prop :=
  ∀ (n : Fin 64) (s : State),
    (s.running n = true → exec (.fillerBerCheck n) s = .next
      (let l := s.lane n
       let bl := if l.blkPart then [] else ((l.fillNow, l.diffNow) :: l.blocks).take 10000
       let e := s.rd R.LANEF_CTL_SD_EXP n
       let u := s.start.setLane n { l with blocks := bl, fillNow := 0, diffNow := 0, violNow := 0, blkPart := false }
       let v := u.setRawDef n 7 (overThreshold bl (10 ^ (e - 5)) e)
       let w := v.setRawDef n 8 (overThreshold bl 1 3)
       w.setRawDef n 10 (decide (16 ≤ l.violNow)))) ∧
    (s.served .lanef n = true → ∀ (d : LaneDefect) (set clear : Byte), d ≠ .oof →
      exec (.integWrite n (.lane d) set clear) s = .next
        (((s.start.wr R.LANEF_INTEG_SET set.toNat n (laneDefBit d)).wr R.LANEF_INTEG_CLEAR clear.toNat n
          (laneDefBit d)).integJudge n (laneDefBit d))) ∧
    (s.served .lanef n = true → ∀ set clear : Byte, exec (.integWrite n (.lane .oof) set clear) s = .next s.start) ∧
    (s.served .lanef n = true → ∀ (d : DrawerDefect) (set clear : Byte),
      exec (.integWrite n (.drawer d) set clear) s = .next
        ((s.drawers.filter (fun e => e.1 / 8192 == n.val)).foldl (fun (t : State) e => t.integJudgeDrw n (e.1 % 8192) (drwDefBit d))
          ((s.start.wr R.LANEF_DINTEG_SET set.toNat n (drwDefBit d)).wr R.LANEF_DINTEG_CLEAR clear.toNat n
            (drwDefBit d))))

/-- In SEARCH an exact match opens a candidate while fewer than four are open, and is discarded when four are, which a Horale lane
counts; a confirmation moves the candidate and raises its count, and at CONF_N (3 on a Dexgor lane) the framer enters SYNC; a
dropped candidate closes. STATE follows the candidates of a Horale lane. The receive timer of a lane in SYNC, once two frames
have passed since the last one delivered, sends its framer to SEARCH, and the transmit timer of a running lane makes it send
filler until the next hinge; each counts code 0xE and is a recovery, of cause 7 and 8, with the lane as WHERE. (R82, R83, R84,
R289, R404) -/
def Obligations.FrameAlignmentCandidates : Prop :=
  ((∀ (n : Fin 64) (s : State), s.searching n = true →
    (∀ p, (s.lane n).cands.length < 4 → exec (.fasCandidateOpen (.horale n) p) s = .next
      ((s.start.setLane n { s.lane n with cands := (s.lane n).cands ++ [(p, 0)] }).showCands n)) ∧
    (∀ p, 4 ≤ (s.lane n).cands.length → exec (.fasCandidateOpen (.horale n) p) s = .next (s.start.count .lanef n 5)) ∧
    (∀ p q stuff diff c, mget? (s.lane n).cands p = some c → confirms (s.rate n) p q stuff diff = true →
      (c + 1 < s.rd R.LANEF_CTL_CONF_N n → exec (.fasCandidateConfirm (.horale n) p q stuff diff) s = .next
        ((s.start.setLane n { s.lane n with cands := moveCand (s.lane n).cands p q }).showCands n)) ∧
      (s.rd R.LANEF_CTL_CONF_N n ≤ c + 1 →
        exec (.fasCandidateConfirm (.horale n) p q stuff diff) s = .next (s.start.enterSync n))) ∧
    (∀ p, exec (.fasCandidateDrop (.horale n) p) s = .next
      ((s.start.setLane n { s.lane n with cands := (s.lane n).cands.filter (fun c => c.1 != p) }).showCands n))) ∧
  (∀ (l : Fin 2) (s : State), s.dxSearching l = true →
    (∀ p, (s.dxRx l).cands.length < 4 → exec (.fasCandidateOpen (.dexgor l) p) s = .next
      (s.start.setDxRx l { s.dxRx l with cands := (s.dxRx l).cands ++ [(p, 0)] })) ∧
    (∀ p, 4 ≤ (s.dxRx l).cands.length → exec (.fasCandidateOpen (.dexgor l) p) s = .next s.start) ∧
    (∀ p q stuff diff c, mget? (s.dxRx l).cands p = some c → confirms 2 p q stuff diff = true →
      (c + 1 < 3 → exec (.fasCandidateConfirm (.dexgor l) p q stuff diff) s = .next
        (s.start.setDxRx l { s.dxRx l with cands := moveCand (s.dxRx l).cands p q })) ∧
      (3 ≤ c + 1 → exec (.fasCandidateConfirm (.dexgor l) p q stuff diff) s = .next
        (s.start.setDxRx l { s.dxRx l with sync := true, cands := [], errFas := 0 }))) ∧
    (∀ p, exec (.fasCandidateDrop (.dexgor l) p) s = .next
      (s.start.setDxRx l { s.dxRx l with cands := (s.dxRx l).cands.filter (fun c => c.1 != p) })))) ∧
  (∀ (n : Fin 64) (s : State), s.running n = true →
    (s.inSync n = true → s.ran (.frame n) 150000 = true → exec (.rxFramerTimeout n) s = .next (((s.start.enterSearch n).count .lanef n 0xE).recover 7 n)) ∧
    exec (.txFramerTimeout n) s = .next
      (((s.start.setLane n { s.lane n with txHeld := true, ohead := none }).count .lanef n 0xE).recover 8 n))

/-- At the tick of a lane whose pins carry frames, the frame being sent leaves the lane: the FAS, the scrambled and stuffed region,
and a filler that takes the bits left, in the polarity TX_INV asks for; FILL_TX and STUFF_TX show its lengths; then the next
frame starts. A lane that sends no frame yet only starts one. A lane that sends none drives its pins as R65 and R404 say. (R27,
R45, R46, R47, R48, R49, R50, R55, R65, R68, R70, R72) -/
def Obligations.FrameTickSendsTheFrame : Prop :=
  ∀ (n : Fin 64) (bits : Nat) (s : State),
    (∀ d, s.laneDrive n = d → d ≠ .frames → exec (.frameTick (.horale n) bits) s = .next
      ((s.start.updLane n (fun l => { l with ohead := none })).emit (.laneIdle (.horale n) d))) ∧
    (s.laneDrive n = .frames → (s.lane n).ohead = none → exec (.frameTick (.horale n) bits) s = .next (s.start.txStart n)) ∧
    (s.laneDrive n = .frames → ∀ lo, (s.lane n).ohead = some lo →
      let region := scramble scrInit (bytesToBits (lo ++ s.txPayload n lo))
      let st := stuffCount false 0 region
      let fill := bits - (64 + region.length + st)
      let hist := ((64 + region.length + st + fill) :: (s.start.loopSent n |>.lane n).ltx).take 64
      let u := (s.start.loopSent n).updLane n (fun l =>
        { l with bipTx := bip16 0 0 region, lastTx := some (stuff false 0 region, fill), ltx := hist, ohead := none })
      let v := (u.wr R.LANEP_FILL_TX_COUNT fill n).wr R.LANEP_STUFF_TX_COUNT st n
      let w := v.count .lanep n 1 st
      exec (.frameTick (.horale n) bits) s = .next
        ((w.emit (.lane (.horale n) fasWord (stuff false 0 region) fill (v.txInv n))).txStart n))

/-- A frame met in SYNC outside a near-end loop, whose bits in the polarity RX_INV asks for contain a FAS where R85 looks for it:
the stuffing, the violations, the filler differences and the frame are counted, the overhead is checked and accepted, the
payload is delivered and the receive timer starts anew; then an errored FAS is counted, and LOSS_M in a row send the framer to
SEARCH. The model's own order of these. (R50, R51, R55, R71, R72, R85, R86) -/
def Obligations.FrameReceivedInSync : Prop :=
  ∀ (n : Fin 64) (f : RxFrame) (s : State), s.running n = true → s.inSync n = true → s.nearLoop n = false →
    ∀ g, lineFrame (s.rate n) (polarity (s.rxInv n) f.bits) = some g →
    let v := s.start.updLane n (fun l => { l with fillNow := l.fillNow + g.fill, diffNow := l.diffNow + g.diff,
                                                  violNow := l.violNow + g.viol })
    let w := (((v.count .lanep n 2 g.removed).count .lanep n 3 g.viol).count .lanep n 4 g.diff).count .lanef n 1
    let bytes := bitsToBytes (scramble scrInit g.data)
    let lo := bytes.take 56
    let x := (w.checkBip n lo (bip16 0 0 g.data)).wr R.LANEF_RX_EPOCH_EPOCH (ofBe (sliceBytes lo 0 5)) n
    let y := (((x.acceptTrace n (lo.getD 5 0)).acceptOh n lo).acceptLabel n lo).acceptAlarms n lo
    let z := y.frameLength n lo g.removed g.fill
    let d := ((z.loopTake n (bytes.drop 56)).deliver n f.rowSkew.val (bytes.drop 56)).mark (.frame n)
    let e := if g.errored then (d.lane n).errFas + 1 else 0
    let u := if g.errored then d.count .lanef n 2 else d
    exec (.laneFrameRx (.horale n) f) s = .next
      (if u.rd R.LANEF_CTL_LOSS_M n ≤ e then u.enterSearch n else u.updLane n (fun l => { l with errFas := e }))

/-- A write of REQ_HI on a served page stores the word; a compiler that is not open or runs a list sets REFUSED, a full queue sets
OVERRUN and raises it, and otherwise the request is submitted. START of an allowed list sets LIST_BUSY with LIST_DONE 0, and
without enforcement nothing is copied; a start that is not allowed sets REFUSED. ABORT of a running list stops it after the
request in progress, and does nothing else. The end of a tag check rejects every request of a list that could not be copied with
FETCH (7) and ends the list; with a tag that checks the list runs from the buffer; with one that fails every request is rejected
with AUTH (5), LIST_DONE shows them, and the list ends. The commits written during the check are then checked in the order they
were written. A due fetch takes the next request from the buffer, or reads it from memory; an error response rejects it with
FETCH and ends the list. (R129, R287, R296, R372, R370, R371) -/
def Obligations.PushesAndLists : Prop :=
  (∀ s : State, s.served .mapc 0 = true →
    (∀ hi : W32, let u := s.start.wr R.MAPC_REQ_HI_WORD hi.toNat
      ((s.compilerOpen = false ∨ s.on R.MAPC_STAT_LIST_BUSY = true) → exec (.reqPush hi) s = .next u.mapRefused) ∧
      (s.compilerOpen = true → s.on R.MAPC_STAT_LIST_BUSY = false → 256 ≤ s.pushFill →
        exec (.reqPush hi) s = .next ((u.wr R.MAPC_REJ_INFO_OVERRUN 1).raise .mapc 0 1)) ∧
      (s.compilerOpen = true → s.on R.MAPC_STAT_LIST_BUSY = false → s.pushFill < 256 →
        exec (.reqPush hi) s = .next (u.submit (BitVec.ofNat 64 (hi.toNat * 2 ^ 32 + s.rd R.MAPC_REQ_LO_WORD)) false false).queueMark)) ∧
    ((s.compilerOpen = false ∨ s.on R.MAPC_STAT_LIST_BUSY = true ∨ s.pushFill ≠ 0 ∨ s.rd R.MAPC_LIST_LEN_LEN = 0) →
      exec .listStart s = .next s.start.mapRefused) ∧
    (s.compilerOpen = true → s.on R.MAPC_STAT_LIST_BUSY = false → s.pushFill = 0 → s.rd R.MAPC_LIST_LEN_LEN ≠ 0 → s.enforced = false →
      exec .listStart s = .next { (s.start.wr R.MAPC_STAT_LIST_BUSY 1).wr R.MAPC_LIST_DONE_DONE 0 with
        mc := { s.mc with fetched := 0, stopping := false, buf := [], tag := [], checking := false, listAuth := true } }) ∧
    (s.on R.MAPC_STAT_LIST_BUSY = true →
      exec .listAbort s = .next { s.start with mc := { s.mc with stopping := true } }.listCheck) ∧
    (s.on R.MAPC_STAT_LIST_BUSY = false → exec .listAbort s = .next s.start)) ∧
  (∀ s : State,
    let after := fun u : State => u.mc.asks.foldl State.commitAsk { u with mc := { u.mc with asks := [] } }
    (s.mc.checking = true → s.mc.buf = [] →
      exec .listTagCheckDone s = .next (after (s.start.rejectAll (List.replicate (s.rd R.MAPC_LIST_LEN_LEN) 0) 7).listEnd)) ∧
    (s.mc.checking = true → s.mc.buf ≠ [] →
      let t := s.start.checkTag (tagHeader 0x4C 0 s.authSeq s.mc.buf.length) (s.mc.buf.flatMap (fun w => leBytes 8 w.toNat)) s.mc.tag
      (t.2 = true → exec .listTagCheckDone s = .next (after { t.1 with mc := { t.1.mc with checking := false } })) ∧
      (t.2 = false → exec .listTagCheckDone s = .next
        (after ((t.1.rejectAll (s.mc.buf.map (fun w => w.toNat)) 5).wr R.MAPC_LIST_DONE_DONE s.mc.buf.length).listEnd))) ∧
    (∀ w, s.fetchDue = true → s.mc.buf[s.mc.fetched]? = some w → exec .listRequestFetch s = .next
      ({ s.start with mc := { s.mc with fetched := s.mc.fetched + 1 } }.submit w s.mc.listAuth true)) ∧
    (s.fetchDue = true → s.mc.buf[s.mc.fetched]? = none →
      let r := s.start.listRead (s.rd R.MAPC_LIST_ADDR_ADDR * 8 + 8 * s.mc.fetched) 8
      (r.cause = 0 → exec .listRequestFetch s = .next
        ({ r.s with mc := { r.s.mc with fetched := s.mc.fetched + 1 } }.submit (BitVec.ofNat 64 (ofLe r.data)) false true)) ∧
      (r.cause ≠ 0 → exec .listRequestFetch s = .next (r.s.reject 0 7).listEnd)))

/-- A well-formed, authorised request at the head of a compiler that may take it is rejected for a void output (2) or source (3), or
for want of a route (4); otherwise it completes: CONNECT leaves a word that has its source already, and else releases the old
route and uses a present or a newly placed one; UNEQ and AIS write the plain word and release the route. (R119, R123, R124,
R126, R127) -/
def Obligations.DrawerRequests : Prop :=
  ∀ (s : State) (r : Req) (rest : List Req), s.mc.queue = r :: rest → s.mayTake r = true → commonReason r s.enforced = 0 →
    let w := r.word.toNat
    let a := rqOut w
    let src := rqIn w
    let rej := fun c : Nat => exec .mapConnect s = .next ((s.start.reject w c).dequeue r).queueMark
    let acc := fun (b : Bank) (p q : Nat) => exec .mapConnect s = .next ((s.start.accept b p q).dequeue r).queueMark
    let u := setOut s.mc.edit a (rqProt w) unequippedWord
    (rqOp w = 1 →
      (s.void a = true → rej 2) ∧
      (s.void a = false → s.void src = true → rej 3) ∧
      (s.void a = false → s.void src = false → s.mc.edit.source a (rqProt w) = .drawer src → acc s.mc.edit 0 0) ∧
      (s.void a = false → s.void src = false → s.mc.edit.source a (rqProt w) ≠ .drawer src →
        (∀ t, u.1.routeOf src (portOf a) = some t → acc (u.1.put (outKey a (rqProt w)) (routeWord t)) 0 u.2) ∧
        (u.1.routeOf src (portOf a) = none →
          (∀ b t, u.1.place s.allowedGroups src (portOf a) = some (b, t) → acc (b.put (outKey a (rqProt w)) (routeWord t)) 1 u.2) ∧
          (u.1.place s.allowedGroups src (portOf a) = none → rej 4)))) ∧
    (rqOp w = 2 →
      (s.void a = true → exec .mapUneq s = .next ((s.start.reject w 2).dequeue r).queueMark) ∧
      (s.void a = false → exec .mapUneq s = .next ((s.start.accept u.1 0 u.2).dequeue r).queueMark)) ∧
    (rqOp w = 3 →
      (s.void a = true → exec .mapAis s = .next ((s.start.reject w 2).dequeue r).queueMark) ∧
      (s.void a = false →
        let v := setOut s.mc.edit a (rqProt w) aisWord
        exec .mapAis s = .next ((s.start.accept v.1 0 v.2).dequeue r).queueMark))

/-- A well-formed, authorised request at the head of a compiler that may take it is rejected for a quarter that is off, on the
output's side (2) or on the source's (3), and a party that would be the 16,385th joined of its quarter is rejected (6);
otherwise its one word is written to the edit bank. (R126, R127, R154, R155, R156) -/
def Obligations.SlotRequests : Prop :=
  ∀ (s : State) (r : Req) (rest : List Req), s.mc.queue = r :: rest → s.mayTake r = true → commonReason r s.enforced = 0 →
    let w := r.word.toNat
    let rej := fun c : Nat => Host.Outcome.next ((s.start.reject w c).dequeue r).queueMark
    let acc := fun b : Bank => Host.Outcome.next ((s.start.accept b 0 0).dequeue r).queueMark
    let so := s.quarterOn (slotQuarter (rqSlotOut w))
    let si := s.quarterOn (slotQuarter (rqSlotIn w))
    (rqOp w = 8 →
      (so = false → exec .slot s = rej 2) ∧ (so = true → si = false → exec .slot s = rej 3) ∧
      (so = true → si = true → exec .slot s = acc (s.mc.edit.put (slotKey (rqSlotOut w)) (slotWord (rqProt w) (rqSlotIn w))))) ∧
    (rqOp w = 9 →
      (so = false → exec .const s = rej 2) ∧
      (so = true → exec .const s = acc (s.mc.edit.put (slotKey (rqSlotOut w)) (constWord w)))) ∧
    (rqOp w = 0xA →
      let q := bridgeQuarter (rqBridge w)
      let k := partyKey (rqBridge w) (rqParty w)
      let joins := rqJoin w = true ∧ wJoined (s.mc.edit.word k) = false
      let needs := rqJoin w = true ∧ rqMute w = false
      (s.quarterOn q = false → exec .party s = rej 2) ∧
      (s.quarterOn q = true → needs → si = false → exec .party s = rej 3) ∧
      (s.quarterOn q = true → (¬ needs ∨ si = true) → joins → 16384 ≤ s.mc.edit.joined q → exec .party s = rej 6) ∧
      (s.quarterOn q = true → (¬ needs ∨ si = true) → (¬ joins ∨ s.mc.edit.joined q < 16384) →
        exec .party s = acc (s.mc.edit.put k (partyWord (rqJoin w) (rqMute w) (rqProt w) (rqSlotIn w))))) ∧
    (rqOp w = 0xB →
      let br := s.quarterOn (bridgeQuarter (rqLegBridge w))
      ((so = false ∨ br = false) → exec .hear s = rej 2) ∧
      (so = true → br = true →
        exec .hear s = acc (s.mc.edit.put (slotKey (rqSlotOut w)) (legWord (rqProt w) (rqLegBridge w) (rqLegParty w)))))

/-- A write of COMMIT_CTL on a served page stores DROP_LATE and clears COMMIT_TAG; during a list's check it waits for the check's
end, and otherwise its tag is checked if one is needed. A commit whose tag fails sets AUTH_FAIL and is refused; one with a
commit pending or a compiler that is not open is refused; otherwise it becomes pending, in PRIMARY held for the RELEASE of its
record. CANCEL withdraws the pending commit, in PRIMARY by a record, and does nothing while the compiler is not open. (R164,
R165, R166, R168, R170, R172, R287, R296, R370, R371) -/
def Obligations.CommitsAsked : Prop :=
  ∀ (s : State) (d : Bool), s.served .mapc 0 = true →
    let stored := fun dl : Nat => s.start.wr R.MAPC_COMMIT_CTL_DROP_LATE dl
    let ask := fun (ctl dl : Nat) => ({ ctl := ctl, epoch := (stored dl).rd R.MAPC_COMMIT_EPOCH_EPOCH,
                                        tag := (stored dl).tagBytes R.MAPC_COMMIT_TAG_TAG } : Ask)
    let clear := fun dl : Nat => (stored dl).clearWords R.MAPC_COMMIT_TAG_TAG 4
    let waits := fun (c : Instr) (ctl dl : Nat) => s.mc.checking = true →
      exec c s = .next { clear dl with mc := { s.mc with asks := s.mc.asks ++ [ask ctl dl] } }
    let asked := fun (c : Instr) (now arm drop : Bool) (kind : CommitKind) (ctl dl : Nat) =>
      let t := (clear dl).commitTag (ask ctl dl)
      let v := t.1
      waits c ctl dl ∧ (s.mc.checking = false →
      (t.2 = false → exec c s = .next (v.wr R.MAPC_COMMIT_STAT_AUTH_FAIL 1).commitRefused) ∧
      (t.2 = true → (v.compilerOpen = false ∨ v.mc.commit.isSome = true) → exec c s = .next v.commitRefused) ∧
      (t.2 = true → v.compilerOpen = true → v.mc.commit = none → v.mode ≠ mPRIMARY →
        exec c s = .next (v.commitPend kind false)) ∧
      (t.2 = true → v.compilerOpen = true → v.mc.commit = none → v.mode = mPRIMARY →
        exec c s = .next ((v.commitPend kind true).commitHold now arm drop false (ask ctl dl).epoch)))
    asked .commitNow true false false .now 1 0 ∧
    asked (.commitArm d) false true d (.arm (ask 0 (b2n d)).epoch d) (2 + 4 * b2n d) (b2n d) ∧
    (let dl := s.rd R.MAPC_COMMIT_CTL_DROP_LATE
     let t := (clear dl).commitTag (ask (8 + 4 * dl) dl)
     let v := t.1
     dl < 2 → waits .commitCancel (8 + 4 * dl) dl ∧ (s.mc.checking = false →
      (t.2 = false → exec .commitCancel s = .next (v.wr R.MAPC_COMMIT_STAT_AUTH_FAIL 1).commitRefused) ∧
      (t.2 = true → v.compilerOpen = false → exec .commitCancel s = .next v) ∧
      (t.2 = true → v.compilerOpen = true → v.mode = mPRIMARY → exec .commitCancel s = .next (v.commitHold false false false true 0)) ∧
      (t.2 = true → v.compilerOpen = true → v.mode ≠ mPRIMARY → exec .commitCancel s = .next v.commitCancel)))

/-- A pending commit that is neither held nor taken, with nothing ahead of it and no catch-up running, is taken: NOW for the next
frame whose cut has not passed; an armed one whose epoch has not passed keeps waiting for it, and a late one is dropped or
applied at the next hinge as DROP_LATE says. CUT is set when the commit is due at the next hinge and its cut, 600 control cycles
before, has come. The end of a catch-up levels the banks. (R164, R165, R167, R168, R170, R171, R173) -/
def Obligations.CommitsTakenAndCut : Prop :=
  ∀ (s : State) (c : Commit), s.mc.commit = some c →
    (c.held = false → c.taken = false → c.ahead = 0 → c.list = false → s.on R.MAPC_COMMIT_STAT_CATCHUP = false → s.mc.inited = true →
      let put := fun c' : Commit => Host.Outcome.next { s.start with mc := { s.mc with commit := some c' } }
      let en := s.labelOf (s.nextFrame - s.frame)
      (c.kind = .now → exec .commitTake s = put { c with taken := true, due := some s.nextFrame }) ∧
      (∀ e drop, c.kind = .arm e drop →
        (epochStep en e < 2 ^ 39 → exec .commitTake s = put { c with taken := true }) ∧
        (2 ^ 39 ≤ epochStep en e → drop = true → exec .commitTake s = .next s.start.lateDrop) ∧
        (2 ^ 39 ≤ epochStep en e → drop = false →
          exec .commitTake s = put { c with taken := true, due := some s.nextFrame, late := true }))) ∧
    (c.dueAt (s.frame + 1) (s.labelOf 1) = true → 74400 ≤ s.cyc → exec .commitCut s = .next (s.start.wr R.MAPC_COMMIT_STAT_CUT 1)) ∧
    ((c.dueAt (s.frame + 1) (s.labelOf 1) = false ∨ s.cyc < 74400) → exec .commitCut s = .next s.start)

/-- SUM_ACT and SUM_EDIT on a served page set SUM_BUSY and name the scan, unless a scan or a catch-up runs or the banks are not
initialised, which is refused like a commit. A scan's end computes the active sums first, then the edit sums, clears SUM_BUSY
and raises SUM_DONE once. (R176, R177) -/
def Obligations.ChecksumScans : Prop :=
  ∀ s : State,
    (s.served .mapc 0 = true →
      (s.on R.MAPC_COMMIT_STAT_SUM_BUSY = false → s.on R.MAPC_COMMIT_STAT_CATCHUP = false → s.mc.inited = true →
        exec .sumAct s = .next ({ s.start with mc := { s.mc with sumAct := true, sumEdit := false } }.wr R.MAPC_COMMIT_STAT_SUM_BUSY 1) ∧
        exec .sumEdit s = .next ({ s.start with mc := { s.mc with sumAct := false, sumEdit := true } }.wr R.MAPC_COMMIT_STAT_SUM_BUSY 1)) ∧
      ((s.on R.MAPC_COMMIT_STAT_SUM_BUSY = true ∨ s.on R.MAPC_COMMIT_STAT_CATCHUP = true ∨ s.mc.inited = false) →
        exec .sumAct s = .next ((s.start.wr R.MAPC_COMMIT_STAT_REFUSED 1).raise .mapc 0 9) ∧
        exec .sumEdit s = .next ((s.start.wr R.MAPC_COMMIT_STAT_REFUSED 1).raise .mapc 0 9))) ∧
    (s.on R.MAPC_COMMIT_STAT_SUM_BUSY = true →
      (s.mc.sumAct = true →
        let u := s.start.sumActive
        let v := { u with mc := { u.mc with sumAct := false } }
        (v.mc.sumEdit = true → exec .sumDone s = .next v) ∧
        (v.mc.sumEdit = false → exec .sumDone s = .next ((v.wr R.MAPC_COMMIT_STAT_SUM_BUSY 0).raise .mapc 0 12))) ∧
      (s.mc.sumAct = false →
        let u := s.start.sumEditing
        exec .sumDone s = .next (({ u with mc := { u.mc with sumEdit := false } }.wr R.MAPC_COMMIT_STAT_SUM_BUSY 0).raise .mapc 0 12)))

/-- A write of PLANE_EN on a served page stores it, and re-places the edit routes of the groups it removes, at once or after the
catch-up while the edit bank is held. The end of initialisation leaves both banks as at start-up and sets both READY bits. A
recompute of a word that failed its code rebuilds it. A sweep makes the output words of the lost centre unequipped. A burst
write of the oldest dirty burst writes it. The end of a catch-up runs it. Each of them completes in every state, and changes
nothing where it does not apply. (R134, R136, R167, R173, R177, R179, R180, R183, R211) -/
def Obligations.FabricMaintenance : Prop :=
  ∀ s : State,
    (∀ v : BitVec 8, s.served .mapc 0 = true →
      let gone := andNot 8 (s.rd R.MAPC_CTL_PLANE_EN) v.toNat
      let u := s.start.wr R.MAPC_CTL_PLANE_EN v.toNat
      (gone = 0 → exec (.planeEnWrite v) s = .next u) ∧
      (gone ≠ 0 → u.editHeld = true →
        exec (.planeEnWrite v) s = .next { u with mc := { s.mc with placeDue := s.mc.placeDue ||| gone } }) ∧
      (gone ≠ 0 → u.editHeld = false → exec (.planeEnWrite v) s = .next (u.replaceGroups gone))) ∧
    ((s.fabricOn = true → s.mc.inited = false → s.pow.phase = .running →
      exec .mapInitDone s = .next (({ s.start with mc := { s.mc with act := {}, edit := {}, dirty := [], inited := true } }.wr R.MAPC_STAT_READY 1).wr
        R.SFAB_STAT_READY 1).readyChk) ∧
     ((s.fabricOn = false ∨ s.mc.inited = true ∨ s.pow.phase ≠ .running) → exec .mapInitDone s = .next s.start)) ∧
    (∀ (w : WordRef) (altered : List (Nat × List Byte)),
      (wordExists (w.fabric == .slot) w.index.toNat = true → s.mc.inited = true → (mget? (s.bank w.edit).bad (refKey w)).isSome = true →
        exec (.wordRecompute w altered) s = .next ((s.start.upset altered).rebuild w.edit (refKey w))) ∧
      ((wordExists (w.fabric == .slot) w.index.toNat = false ∨ s.mc.inited = false ∨ mget? (s.bank w.edit).bad (refKey w) = none) →
        exec (.wordRecompute w altered) s = .next s.start)) ∧
    (s.mc.sweeps = [] → exec .centreLossSweep s = .next s.start) ∧
    (∀ edit t r, s.mc.sweeps = (edit, t) :: r →
      let b := s.bank edit
      let ks := ((b.listed 0 (2 * outCount)).filter (fun e =>
        wKind e.2 == 1 && wCslot e.2 == t && (b.slotInput (portOf (e.1 / 2)) t).isNone)).map (·.1)
      let u := if ks.isEmpty then s.start
        else (s.start.setBank edit (ks.foldl (fun b k => b.put k unequippedWord) b)).sumStale edit
      exec .centreLossSweep s = .next { u with mc := { u.mc with sweeps := r } }) ∧
    (∀ (f : Fabric) (edit : Bool) (burst : Nat),
      let x := match f with
        | .drawer => if burst < 153600 then burst else imageBursts
        | .slot => 153600 + burst
      (s.dramReady = true → s.mc.inited = true → s.oldestDirty edit x = true →
        exec (.routeBurstWrite f edit burst) s = .next (s.start.routeWrite edit x)) ∧
      ((s.dramReady = false ∨ s.mc.inited = false ∨ s.oldestDirty edit x = false) →
        exec (.routeBurstWrite f edit burst) s = .next s.start)) ∧
    (s.on R.MAPC_COMMIT_STAT_CATCHUP = true → exec .catchupDone s = .next s.start.catchupDone) ∧
    (s.on R.MAPC_COMMIT_STAT_CATCHUP = false → exec .catchupDone s = .next s.start)

/-- A command in progress ends with BUSY clear. A WRITE keeps the latched settings for the next hinge (bench; lane drawer whose
MON_EN changes), or writes the selector, group, context or template; a READ captures; an EXEC issues the selector command; a
drawer whose shelf is not present, and a void output, set ERR. A port timer abandons the command: BUSY clears, ERR sets where
the port has one, and recovery 9 names the page. (R115, R142, R144, R157, R184, R187, R215, R232, R236, R404, R437) -/
def Obligations.PortCommandsEnd : Prop :=
  ∀ (s : State) (c : PortCmd),
    let ends := fun (p : Port) (t : State) => mget? s.ports (portKey p) = some c → exec (.indirectCommandDone p) s = .next t
    (∀ n : Fin 64, let u := s.start.portFree (.drw n)
      (rateCols (u.rate n) ≤ c.idx → ends (.drw n) (u.wr R.LANEF_DRW_CMD_ERR 1 n)) ∧
      (c.idx < rateCols (u.rate n) →
        (c.op = 2 → ends (.drw n) (u.setDrw n c.idx ((u.drw n c.idx).written (c.cfg.headD 0x601)))) ∧
        (c.op = 1 → ends (.drw n) (u.drwCapture n (u.drw n c.idx))) ∧
        (c.op = 5 → ends (.drw n) ((u.drwCapture n (u.drw n c.idx)).setDrw n c.idx
          { u.drw n c.idx with bipErr := 0, justRx := 0, justCore := 0 })))) ∧
    (c.op = 2 →
      (let u := s.start.portFree .bench
       ends .bench (u.setBench c.idx { u.bench c.idx with cfgDue := some (c.cfg.headD 0) })) ∧
      (let u := s.start.portFree .prot
       (u.void c.idx = true → ends .prot u.sErr) ∧ (u.void c.idx = false → ends .prot (u.selWrite c.idx (c.cfg.headD 0)))) ∧
      ends .eq ((s.start.portFree .eq).eqWrite c.idx (c.cfg.headD 0)) ∧
      ends .pwCtx ((s.start.portFree .pwCtx).ctxWrite c.idx (ctxOf c.cfg)) ∧
      (let u := s.start.portFree .pwTpl
       (u.decides = false → ends .pwTpl (u.wr R.PW_T_CMD_ERR 1)) ∧
       (u.decides = true → ends .pwTpl ({ u with tpls := mput u.tpls c.idx (tplOf c.cfg) }.mirrorPwcfg (Tpl.cfgBodies (tplOf c.cfg) c.idx true))))) ∧
    (c.op = 1 ∨ c.op = 5 →
      let clr := decide (c.op = 5)
      (let u := s.start.portFree .prot
       u.void c.idx = false → ends .prot (u.selCapture c.idx clr)) ∧
      ends .eq ((s.start.portFree .eq).eqCapture c.idx clr) ∧
      ends .pwCtx ((s.start.portFree .pwCtx).ctxCapture c.idx clr)) ∧
    (c.op = 4 → let u := s.start.portFree .pwTpl
      ((u.decides = false ∨ u.tplUsed c.idx = true) → ends .pwTpl (u.wr R.PW_T_CMD_ERR 1)) ∧
      (u.decides = true → u.tplUsed c.idx = false →
        ends .pwTpl ({ u with tpls := mdel u.tpls c.idx }.mirrorPwcfg (Tpl.cfgBodies (tplOf []) c.idx false)))) ∧
    (∀ k, c.op = 8 + 16 * k → k < 8 → let u := s.start.portFree .prot
      u.void c.idx = false → ends .prot (u.selCommand c.idx k)) ∧
    (∀ p : Port, s.portBusy p = true → s.ran (.port (portKey p)) 6000 = true → exec (.indirectPortTimeout p) s = .next
      ((match portErr p with
        | some f => (s.start.portFree p).wr f.1 1 f.2
        | none => s.start.portFree p).recover 9 (portSlot p)))

/-- On a served page, a command to a group that the unit decides and that the group accepts is held for the next hinge and mirrored;
any other sets CMD_ERR and raises its event. A G_CFG write whose enable R195 does not accept sets CFG_ERR and changes nothing
else; otherwise its fields are stored and mirrored, but a reserved WTR or HOLDOFF keeps its value. (R187, R195, R287, R16) -/
def Obligations.GroupCommands : Prop :=
  ∀ (g : Fin 32) (s : State), s.served .prot 0 = true →
    let u := s.grp g
    let good := fun (c : Instr) (k : Nat) => s.decides = true → u.accepts (grpPar u.cfg) k = true →
      exec c s = .next ((s.start.setGrp g { u with cmdDue := some k }).mirrorGrp g)
    let bad := fun (c : Instr) (k : Nat) => (s.decides = false ∨ u.accepts (grpPar u.cfg) k = false) →
      exec c s = .next ((s.start.wr R.PROT_G_STAT_CMD_ERR 1 0 g).raise .prot 0 1)
    (good (.grpLo g) cmdLO ∧ bad (.grpLo g) cmdLO) ∧ (good (.grpFs g) cmdFS ∧ bad (.grpFs g) cmdFS) ∧
    (good (.grpMsP g) cmdMSP ∧ bad (.grpMsP g) cmdMSP) ∧ (good (.grpMsW g) cmdMSW ∧ bad (.grpMsW g) cmdMSW) ∧
    (good (.grpClear g) cmdCLEAR ∧ bad (.grpClear g) cmdCLEAR) ∧
    (∀ v : W32, let w := grpW v.toNat
      let p := grpP v.toNat
      let refused := v.toNat.testBit 0 && (w == p || s.rate w != s.rate p || s.grpHolds g w || s.grpHolds g p)
      let wtr := bits v.toNat 22 10
      let hold := bits v.toNat 15 7
      (refused = true → exec (.gCfgWrite g v) s = .next (s.start.wr R.PROT_G_STAT_CFG_ERR 1 0 g)) ∧
      (refused = false →
        let a := if wtr ≤ 720 then s.start.wr R.PROT_G_CFG_WTR wtr 0 g else s.start
        let b := if hold ≤ 100 then a.wr R.PROT_G_CFG_HOLDOFF hold 0 g else a
        exec (.gCfgWrite g v) s = .next
          ((((((b.wr R.PROT_G_CFG_P_LANE p 0 g).wr R.PROT_G_CFG_W_LANE w 0 g).wr R.PROT_G_CFG_REVERT (v.toNat / 4) 0 g).wr
            R.PROT_G_CFG_DUAL (v.toNat / 2) 0 g).wr R.PROT_G_CFG_EN v.toNat 0 g).mirrorGrp g)))

/-- While timers run, the end of a hold-off makes the side's condition a request, and the end of a wait-to-restore is noted for the
hinge, for an output's selector and for a group's alike. A change of APS_MM of an enabled group, declared with a cause and
cleared without one, shows in G_STAT and raises its event. (R186, R190, R202, R203) -/
def Obligations.ProtectionTimers : Prop :=
  ∀ s : State,
    (s.timersRun = true → ∀ run : Nat,
      (∀ a : BitVec 20, let u := s.sel a.toNat
        exec (.holdoffExpire (.out a) .working run) s =
          .next (s.start.setSel a.toNat { u with w := u.w.expire (selPar u.cfg).holdoff run }) ∧
        exec (.holdoffExpire (.out a) .protect run) s =
          .next (s.start.setSel a.toNat { u with p := u.p.expire (selPar u.cfg).holdoff run }) ∧
        (u.wtr = true → (selPar u.cfg).wtr ≤ run → 8000 * run ≤ u.wtrRan + 1 →
          exec (.wtrExpire (.out a) run) s = .next (s.start.setSel a.toNat { u with wtrDue := true }))) ∧
      (∀ g : Fin 32, let u := s.grp g
        exec (.holdoffExpire (.group g) .working run) s =
          .next (s.start.setGrp g { u with w := u.w.expire (grpPar u.cfg).holdoff run }) ∧
        exec (.holdoffExpire (.group g) .protect run) s =
          .next (s.start.setGrp g { u with p := u.p.expire (grpPar u.cfg).holdoff run }) ∧
        (u.wtr = true → (grpPar u.cfg).wtr ≤ run → 8000 * run ≤ u.wtrRan + 1 →
          exec (.wtrExpire (.group g) run) s = .next (s.start.setGrp g { u with wtrDue := true })))) ∧
    (∀ g : Fin 32, let u := s.grp g
      (grpPar u.cfg).en = true →
      (u.mm = false → s.apsCause g = true →
        exec (.apsMmDeclare g) s = .next (((s.start.setGrp g { u with mm := true }).showGrp g).raise .prot 0 3)) ∧
      (u.mm = true → s.apsCause g = false →
        exec (.apsMmClear g) s = .next (((s.start.setGrp g { u with mm := false }).showGrp g).raise .prot 0 3)) ∧
      ((u.mm = true ∨ s.apsCause g = false) → exec (.apsMmDeclare g) s = .next s.start) ∧
      ((u.mm = false ∨ s.apsCause g = true) → exec (.apsMmClear g) s = .next s.start))

/-- A CFG write to a trained channel sets CFG_REFUSED; to another it stores the fields, SPEED and DENSITY only with a code that is
not reserved, notes whether a code was reserved, and the bring-up of both channels is judged. The end of a training that runs
sets TRAINED and raises its event; a failed step clears TRAIN_BUSY, sets TRAIN_FAIL with FAIL_STEP and raises its event; a
training that has run for 80 ms and times out does the same with the step it had reached, which the spec leaves open and the
model takes as a free value, and is recovery 10. A retune changes nothing that software sees. HOT follows the component. A queue
timeout counts, raises its event and is recovery 6 naming the subchannel. (R206, R404) -/
def Obligations.DramTraining : Prop :=
  ∀ (c : Fin 2) (s : State),
    (s.served .dramc c = true → ∀ v : W32,
      (s.on R.DRAMC_STAT_TRAINED c = true → exec (.dramCfgWrite c v) s = .next (s.start.wr R.DRAMC_STAT_CFG_REFUSED 1 c)) ∧
      (s.on R.DRAMC_STAT_TRAINED c = false →
        let a := if bits v.toNat 6 2 = 3 then s.start else s.start.wr R.DRAMC_CFG_SPEED (v.toNat / 64) c
        let b := if bits v.toNat 3 2 = 3 then a else a.wr R.DRAMC_CFG_DENSITY (v.toNat / 8) c
        let d := ((b.wr R.DRAMC_CFG_WIDTH (v.toNat / 32) c).wr R.DRAMC_CFG_RANKS (v.toNat / 4) c).wr R.DRAMC_CFG_VALID v.toNat c
        let rsv := bits v.toNat 6 2 == 3 || bits v.toNat 3 2 == 3
        exec (.dramCfgWrite c v) s = .next
          (({ d with dramRsv := BitVec.ofNat 2 (putBit d.dramRsv.toNat c rsv) }.dramBringUp 0).dramBringUp 1))) ∧
    (s.on R.DRAMC_STAT_TRAIN_BUSY c = true →
      exec (.dramTrainDone c) s = .next
        (((s.start.wr R.DRAMC_STAT_TRAIN_BUSY 0 c).wr R.DRAMC_STAT_TRAINED 1 c).raise .dramc c 1).readyChk ∧
      (∀ step : BitVec 4, exec (.dramTrainFail c step) s = .next
        ((((s.start.wr R.DRAMC_STAT_TRAIN_BUSY 0 c).wr R.DRAMC_STAT_TRAIN_FAIL 1 c).wr R.DRAMC_STAT_FAIL_STEP step.toNat c).raise .dramc c 2)) ∧
      (s.ran (.train c) trainLimit = true → exec (.dramTrainTimeout c) s = .next
        (((((s.start.takeFresh.wr R.DRAMC_STAT_TRAIN_BUSY 0 c).wr R.DRAMC_STAT_TRAIN_FAIL 1 c).wr R.DRAMC_STAT_FAIL_STEP
          (Config.trainStep s.fresh).toNat c).raise .dramc c 2).recover 10 c))) ∧
    exec (.dqsRetune c) s = .next s.start ∧
    (∀ hot : Bool, s.domUp (48 + c) = true → s.domUp (50 + c) = true →
      exec (.dramHotChange c hot) s = .next (s.start.wr R.DRAMC_STAT_HOT (b2n hot) c)) ∧
    (∀ sub : Bool, s.on R.DRAMC_STAT_TRAINED c = true → exec (.dramQueueTimeout c sub) s = .next
      (((s.start.count .dramc c 6).raise .dramc c 4).recover 6 (2 * c.val + b2n sub)))

/-- A window is stored on a served page unless it is enabled onto the host region or beyond the memory, which raises WIN_ERR and
stores nothing. A write through a window takes place where it wins the arbiter of T4, and waits there otherwise (M1's and M5's
wait at their master). It reaches device memory burst by burst, and one whose bursts pass their check is answered without error;
a disabled window and a read-only one give an error response, recorded in ERR_INFO, and so does an address outside T4 and a
master that the table does not admit. (R208, R209, R214, R326, R328, R333) -/
def Obligations.DramWindows : Prop :=
  ∀ s : State,
    (s.served .dramc 0 = true → ∀ (w : Fin 8) (v : W32),
      let target := bits v.toNat 0 11
      let top := (s.channelGiB 0 + s.channelGiB 1) * 2 ^ 30
      let outside := target * 2 ^ 25 < hostRegion ∨ top < (target + 1) * 2 ^ 25
      (v.toNat.testBit 31 = true → outside → exec (.winEnable w v) s = .next (s.start.raise .dramc 0 3)) ∧
      ((v.toNat.testBit 31 = false ∨ ¬ outside) → exec (.winEnable w v) s = .next
        (((s.start.wr R.DRAMC_WIN_EN (v.toNat / 2 ^ 31) 0 w).wr R.DRAMC_WIN_RO (v.toNat / 2 ^ 30) 0 w).wr R.DRAMC_WIN_TARGET target 0 w))) ∧
    (∀ (m : Master) (a : W32) (data : List Byte), s.busUp = true →
      let k := masterNum m
      let r := s.start.issue k a.toNat true data data.length
      let asks := fun j : Nat => if j = k ∧ (s.start.nextAt j 4).isNone then (if s.start.targetBusy j 4 then none else some r)
        else s.start.candidate j 4
      let u := { s.start with mx := { s.mx with last := mapSet 5 s.mx.last 4 k } }.count .matrix 0 1
      (r.target ≠ 4 → exec (.windowWrite m a data) s = .next (s.start.busErr k defaultTarget a.toNat cDEFAULT)) ∧
      (r.target = 4 → admits k 4 true = false →
        exec (.windowWrite m a data) s = .next (s.start.busErr k defaultTarget a.toNat cDENIED)) ∧
      (r.target = 4 → admits k 4 true = true → s.start.bestOf 4 asks ≠ some r →
        (k ≠ 1 → k ≠ 5 → exec (.windowWrite m a data) s = .next { s.start with mx := { s.mx with waiting := s.mx.waiting ++ [r] } }) ∧
        ((k = 1 ∨ k = 5) → exec (.windowWrite m a data) s = .next s.start)) ∧
      (r.target = 4 → admits k 4 true = true → s.start.bestOf 4 asks = some r →
        (∃ t, t = u.winWriteBus r.loc data ∧ exec (.windowWrite m a data) s = .next (t.s.noteErr r t.cause)) ∧
        (data ≠ [] → u.windowAddr r.loc = none →
          exec (.windowWrite m a data) s = .next (u.busErr k defaultTarget a.toNat cDEFAULT)) ∧
        (∀ d, data ≠ [] → u.windowAddr r.loc = some (d, true) →
          exec (.windowWrite m a data) s = .next (u.busErr k 4 a.toNat cDENIED)) ∧
        (∀ d, data ≠ [] → data.length ≤ 2 ^ 25 - r.loc % 2 ^ 25 → u.windowAddr r.loc = some (d, false) →
          let t := u.deviceWrite (data.length / 64 + 2) d data
          (t.2 = true → exec (.windowWrite m a data) s = .next t.1) ∧
          (t.2 = false → exec (.windowWrite m a data) s = .next (t.1.busErr k 4 a.toNat cDET)))))

/-- At container 0 of a multiframe of either copy a group that is not OFF takes the offsets of its two copies once both have brought
theirs, and without the alignment of both it measures nothing. When the H byte of the next container has come in the later copy
of a group whose output runs on its own path, the container is released once: the earlier copy's is fetched from its slab, a
detection there loses it and is counted, one copy is chosen (in EQUALISED the cleaner one as R220 says, else that of the
preferred side) and a substitution is counted. A container of the earlier copy that cannot be had and is taken all the same is
sent as 0xFF, which is the model's choice (log entry 78). (R216, R217, R218, R219, R220, R221, R223, R224, R225) -/
def Obligations.EqualisedGroups : Prop :=
  ∀ (q : Fin 65536) (s : State),
    let g := s.eqg q
    (∀ (side : Side) (tag : BitVec 16), (g.st = eqOFF ∨ (g.copy (side == .protect)).n ≠ 32 * tag.toNat) →
      exec (.eqMultiframe q side tag) s = .next s.start) ∧
    (∀ (side : Side) (tag : BitVec 16), g.st ≠ eqOFF → (g.copy (side == .protect)).n = 32 * tag.toNat →
      ((g.cw.off = none ∨ g.cp.off = none) → exec (.eqMultiframe q side tag) s = .next (s.start.setEq q
        { g with agree := 0, inWin := 0, outWin := 0, absent := 0, cw := { g.cw with mf := false }, cp := { g.cp with mf := false } })) ∧
      (∀ ow op, g.cw.off = some ow → g.cp.off = some op →
        ((g.cw.mf && g.cp.mf) = false → exec (.eqMultiframe q side tag) s = .next (s.start.setEq q g)) ∧
        ((g.cw.mf && g.cp.mf) = true → exec (.eqMultiframe q side tag) s = .next (s.start.setEq q (eqFollow (eqAligned
          { g with cw := { g.cw with mf := false }, cp := { g.cp with mf := false } } (s.eqLive q) ow op)))))) ∧
    (∀ (tag : BitVec 16) (i : Fin 32) (altered : List (Nat × List Byte)),
      let n := 32 * tag.toNat + i.val
      let late := (g.copy g.later).sight? n
      let released := (g.out.rel.map (fun r => r.1)) = some n
      ((g.path = false ∨ g.out.gen ≠ .run ∨ late = none ∨ released) → exec (.eqContainerRelease q tag i altered) s = .next s.start) ∧
      (∀ sl, g.path = true → g.out.gen = .run → late = some sl → ¬ released →
        let s1 := s.start.upset altered
        let early := g.copy (!g.later)
        let se := (early.sight? n).getD {}
        let read := s.eqLive q && se.present && g.ring.holds n
        let f := if read then s1.eqFetch q g.ring (seqTag early.n) n else (s1, g.ring, none)
        let lost := read && f.2.2.isNone
        let a := f.1.setEq q { g with ring := f.2.1 }
        let b := if lost then a.eqLost q else a
        let e : EqSight := { se with present := read, det := lost }
        let l : EqSight := { sl with det := (g.copy g.later).lostByte n }
        let u := b.sel (eqOut g.cfg)
        let ch := if g.st ≠ eqEQUALISED then (u.prot, false) else if g.later then eqChoose u u.prot e l else eqChoose u u.prot l e
        let c := if ch.2 then b.count .eq 0 1 else b
        let take := if ch.1 == (c.eqg q).later then none else some (f.2.2.getD (List.replicate 34 0xFF))
        exec (.eqContainerRelease q tag i altered) s = .next (c.setEq q { c.eqg q with
          out := { (c.eqg q).out with rel := some (n, take) }, other := ch.1 != u.prot, subst := satAdd 16 (c.eqg q).subst (b2n ch.2) })))

/-- On a running port with link, a frame is counted on the port and at the time-stamp unit; one outside the length limits counts
code 4, one with a wrong FCS code 3; a PAUSE frame counts code 7 and, with PAUSE_RX, starts the pause that its time says, of
none for 0. Any other good frame joins the receive queue with its stamp, or is discarded and counted when that is full, and the
queue empties as far as it can. In an empty queue the frame is discarded for its destination address, goes to the host when no
template has its tags or its headers name no context (and waits while the host ring is full, which is the model's choice, log
entry 99), is discarded as a fragment, and otherwise reaches the context that its key names. (R228, R230, R237, R238, R239,
R245, R272) -/
def Obligations.EthernetFramesReceived : Prop :=
  ∀ (p : Fin 8) (f : EthRx) (s : State), s.portRuns p = true → s.on R.ETH_STAT_LINK p = true →
    let u := (s.start.count .eth p 1).count .ntime 0 5
    let len := f.bytes.length + 4
    let bad := len < 64 ∨ u.rd R.ETH_CTL_MAX_LEN p < len
    let res := fun t : State => exec (.ethFrameRx p f) s = .next t
    (bad → res (u.count .eth p 4)) ∧
    (¬ bad → f.fcsOk = false → res (u.count .eth p 3)) ∧
    (¬ bad → f.fcsOk = true → u.isPause p f.bytes = true →
      let v := u.count .eth p 7
      (v.on R.ETH_CTL_PAUSE_RX p = true → res
        (((v.setEth p { v.eth p with quanta := fieldBe f.bytes 16 2 }).mark (.pause p)).wrB R.ETH_STAT_PAUSED (fieldBe f.bytes 16 2 != 0) p)) ∧
      (v.on R.ETH_CTL_PAUSE_RX p = false → res v)) ∧
    (¬ bad → f.fcsOk = true → u.isPause p f.bytes = false →
      let stamp := u.stampNs p false f.sfdAgo f.fecPos
      let ids := vlanIds 3 f.bytes 12
      let e := u.eth p
      let room := e.rxq.length < 512 ∧ (e.rxq.foldl (fun a y => a + y.1.bytes.length) 0) + f.bytes.length ≤ 131072
      let v := u.setEth p { e with rxq := e.rxq ++ [(f, stamp)] }
      let w := v.setEth p { v.eth p with rxq := [] }
      (¬ room → res ((u.count .eth p 5).raise .eth p 3)) ∧
      (room → res (State.rxDrain (e.rxq.length + 1) p v)) ∧
      (e.rxq = [] → f.bytes.length ≤ 131072 →
        (w.daOk p f.bytes = false → res w.pwDiscard) ∧
        (w.daOk p f.bytes = true →
          let host := (w.portTpls p).any (fun t => t.vids == ids) = false ∨ w.pwKey p f.bytes (12 + 4 * ids.length) = .none ∨
            (∃ enc k labels o stop, w.pwKey p f.bytes (12 + 4 * ids.length) = .key enc k labels o stop ∧ w.ctxFor p enc k labels = none)
          (host → w.ringFull p = false → res (w.toHost p f stamp)) ∧ (host → w.ringFull p = true → res v) ∧
          ((w.portTpls p).any (fun t => t.vids == ids) = true →
            (w.pwKey p f.bytes (12 + 4 * ids.length) = .frag → res w.pwDiscard) ∧
            (∀ enc k labels o stop n, w.pwKey p f.bytes (12 + 4 * ids.length) = .key enc k labels o stop →
              w.ctxFor p enc k labels = some n → res (w.pwPacket n f.bytes o stop))))))

/-- The frame at the head of a running, linked, unpaused port's queue leaves it with its stamp, is counted, and its descriptor is
written. A launch slot visits its contexts in order and then the host frames. A change of the link shows in LINK, BLOCK_LOCK
and, at 25 Gbit/s with FEC, FEC_LOCK, clears PAUSED on a loss, and raises the event; the end of a pause clears PAUSED once its
time has passed, and does nothing before. A transmit descriptor is not read while the port or ring is off, memory is not ready,
a frame is held, or the ring is empty. (R228, R244, R246, R272, R274) -/
def Obligations.EthernetFramesSent : Prop :=
  ∀ s : State,
    (∀ (p : Fin 8) (ago : Nat) x r, (s.eth p).txq = x :: r → s.portRuns p = true → s.on R.ETH_STAT_LINK p = true →
      s.on R.ETH_STAT_PAUSED p = false →
      let stamp := s.stampNs p true ago 0
      let b := s.txBytes p x stamp
      let u := ((s.start.setEth p { s.eth p with txq := r }).count .eth p 2).count .ntime 0 5
      exec (.ethFrameTx p ago) s = .next ((u.emit (.eth p b.1)).descDone p x (b2n b.2 * 128)
        (if x.ctl.testBit 2 then some stamp else none))) ∧
    (∀ sl : Fin 125, exec (.launchSlot sl) s = .next ((List.range 8).foldl (State.launchHost sl.val)
      ((s.ctxsWith (fun c => c.launchSlot == sl.val)).foldl State.visitTurn s.start))) ∧
    (∀ p : Fin 8, s.portRuns p = true →
      (s.ran (.pause p) (s.eth p).pauseTime = true → exec (.pauseExpire p) s = .next (s.start.wr R.ETH_STAT_PAUSED 0 p)) ∧
      (s.ran (.pause p) (s.eth p).pauseTime = false → exec (.pauseExpire p) s = .next s.start) ∧
      (s.on R.ETH_STAT_LINK p = false → exec (.ethLinkChange p true) s = .next
        ((((s.start.wr R.ETH_STAT_LINK 1 p).wr R.ETH_STAT_BLOCK_LOCK 1 p).wr R.ETH_STAT_FEC_LOCK
          (b2n ((s.eth p).speed && (s.eth p).fec)) p).raise .eth p 0)) ∧
      (s.on R.ETH_STAT_LINK p = true → exec (.ethLinkChange p false) s = .next
        (((((s.start.wr R.ETH_STAT_LINK 0 p).wr R.ETH_STAT_BLOCK_LOCK 0 p).wr R.ETH_STAT_FEC_LOCK 0 p).wr R.ETH_STAT_PAUSED 0 p).raise .eth p 0))) ∧
    (∀ p : Fin 8, (s.portRuns p = false ∨ s.on R.ETH_EN_HTX_EN p = false ∨ s.dramReady = false ∨ (s.eth p).hold.isSome = true ∨
      (s.eth p).next % 2 ^ (s.rd R.ETH_HTX_SIZE_SIZE p + 1) = s.rd R.ETH_HTX_PTR_WR p % 2 ^ (s.rd R.ETH_HTX_SIZE_SIZE p + 1)) →
      exec (.hostTxDesc p) s = .next s.start)

/-- On a running port with its transmit ring enabled and ready memory, when no frame is held and the ring is not empty: the
descriptor and then its frame are read; a frame that cannot be read is finished with an error; one without LAUNCH is queued if
the queue has room; one whose launch instant has passed is dropped or sent late; any other is held. (R246) -/
def Obligations.HostTransmitDescriptors : Prop :=
  ∀ (p : Fin 8) (s : State), s.portRuns p = true → s.on R.ETH_EN_HTX_EN p = true → s.dramReady = true → (s.eth p).hold = none →
    let e := s.eth p
    let size := s.rd R.ETH_HTX_SIZE_SIZE p
    let m := 2 ^ (size + 1)
    e.next % m ≠ s.rd R.ETH_HTX_PTR_WR p % m →
    let d := descAddr (s.rd R.ETH_HTX_BASE_BASE p) size e.next
    let r := s.start.hostRead d 32
    let res := fun t : State => exec (.hostTxDesc p) s = .next t
    (r.2 = none → res r.1) ∧
    (∀ b, r.2 = some b →
      let ctl := (b.getD 7 0).toNat % 8
      let q := r.1.hostRead (ofLe (sliceBytes b 0 5)) (ofLe (sliceBytes b 5 2))
      let u := q.1.setEth p { q.1.eth p with next := (e.next + 1) % m }
      (q.2 = none → res (u.descDone p { bytes := [], desc := some d, ctl := ctl } 0x80 none)) ∧
      (∀ data, q.2 = some data →
        let x : TxItem := { bytes := padFrame data, desc := some d, ctl := ctl }
        let ep := ofLe (sliceBytes b 8 5)
        let slot := (b.getD 13 0).toNat
        (ctl.testBit 0 = false → e.room x.bytes = false → res q.1) ∧
        (ctl.testBit 0 = false → e.room x.bytes = true → res (u.queueHost p x)) ∧
        (ctl.testBit 0 = true → u.launchPassed ep slot = true → res (u.launchLate p x)) ∧
        (ctl.testBit 0 = true → u.launchPassed ep slot = false → res (u.setEth p { u.eth p with hold := some (x, ep, slot) }))))

/-- A unit time of an enabled context that is up: in RUN the due unit is played, or the context goes back to FILL while memory is
not ready; in FILL it starts once its first unit is there and the buffer is filled. A burst of units that is due is written
whole with its check bytes. A late unit is merged into its burst; where the burst's check fails, the unit is discarded, counted
and reported. (R207, R208, R240, R241) -/
def Obligations.PseudowirePlayout : Prop :=
  ∀ (n : Fin 16384) (s : State), (s.ctx n).en = true → s.ctxUp n = true →
    let c := s.ctx n
    let plays := fun t : State => exec (.playoutUnit n) s = .next (t.mirrorPwctx n)
    (c.st = xRUN → s.dramReady = false → plays (s.start.setCtx n { c with st := xFILL })) ∧
    (c.st = xRUN → s.dramReady = true → plays (s.start.playUnit n (c.play.getD 0))) ∧
    (∀ f, c.st = xFILL → s.dramReady = true → c.begin? = some f → c.filled f = true →
      plays ((s.start.setCtx n { c with st := xRUN, play := some f }).playUnit n f)) ∧
    (∀ f, c.st = xFILL → s.dramReady = true → c.begin? = some f → c.filled f = false → plays s.start) ∧
    (∀ f : Nat, let a := f / 2 * 2
      (s.dramReady = true → c.burstDue a = true → exec (.jbBurstWrite n f) s = .next
        ((s.start.setCtx n { c with line := mdel (mdel c.line a) (a + 1), bursts := mput c.bursts (f / 2) 1 }).burstPut 2
          (unitTag f) (unitBurst n f) (c.gathered a))) ∧
      ((s.dramReady = false ∨ c.burstDue a = false) → exec (.jbBurstWrite n f) s = .next s.start)) ∧
    (∀ f u, s.dramReady = true → mget? c.late f = some u →
      let t := (s.start.setCtx n { c with late := mdel c.late f }).burstGet 2 (unitTag f) (unitBurst n f)
      (t.2 = none → exec (.jbMerge n f) s = .next ((t.1.count .pw 0 5).raise .pw 0 3)) ∧
      (∀ b, t.2 = some b → exec (.jbMerge n f) s = .next
        ((t.1.setCtx n { t.1.ctx n with units := mput (t.1.ctx n).units f u.2 }).burstPut 2 (unitTag f) (unitBurst n f)
          (patchBytes b (32 * (f % 2)) u.1)))) ∧
    (∀ f, mget? c.late f = none → exec (.jbMerge n f) s = .next s.start)

/-- While the timing domain is usable: a change of activity of a pin reference shows in REF_STAT while the reference is enabled, and
the reference is judged; UNSTABLE, declared and cleared, likewise; a line or clock reference follows its lane or the servo. A
phase departure beyond HIT × 100 ns of an active, watched reference is recorded, counted and reported, and judged as a hit; a
smaller one is not. A reference that has been good for its wait-to-restore, since it became good or its lockout ended,
qualifies. The end of a lockout, 60 s after it began and not before, clears it. A deviation that has stood at every update for
the persistence disqualifies, and a disqualification selects again. (R252, R255, R256, R257, R258, R259) -/
def Obligations.ReferenceChanges : Prop :=
  ∀ (r : Fin 13) (s : State), s.timingUp = true →
    (r.val < 8 → s.on R.TIMING_REF_CFG_EN 0 r = true →
      exec (.refActivityChange r .active) s = .next ((s.start.wr R.TIMING_REF_STAT_ACTIVE 1 0 r).refEvent r false) ∧
      exec (.refActivityChange r .inactive) s = .next ((s.start.wr R.TIMING_REF_STAT_ACTIVE 0 0 r).refEvent r false) ∧
      exec (.refActivityChange r .unstable) s = .next
        (((s.start.wr R.TIMING_REF_STAT_UNSTABLE 1 0 r).raise .timing 0 10).refEvent r false)) ∧
    (r.val < 8 → s.on R.TIMING_REF_CFG_EN 0 r = false → ∀ a, exec (.refActivityChange r a) s = .next s.start) ∧
    (8 ≤ r.val → ∀ a, exec (.refActivityChange r a) s = .next ((s.start.refFollow r).refEvent r false)) ∧
    exec (.unstableClear r) s = .next ((s.start.wr R.TIMING_REF_STAT_UNSTABLE 0 0 r).refEvent r false) ∧
    (∀ dep : Nat, let lim := s.rd R.TIMING_REF_CFG_HIT 0 r
      (r.val ≠ 12 → lim ≠ 0 → 100 * lim < dep → s.refActive r = true →
        exec (.hit ⟨r, dep⟩) s = .next ((((s.start.wr R.TIMING_REF_STAT_HIT 1 0 r).count .timing 0 3).raise .timing 0 11).refEvent r true)) ∧
      ((r.val = 12 ∨ lim = 0 ∨ dep ≤ 100 * lim ∨ s.refActive r = false) → exec (.hit ⟨r, dep⟩) s = .next s.start)) ∧
    (∀ run, (s.ref r).good = true → s.refQual r = false → s.on R.TIMING_REF_STAT_LOCKOUT 0 r = false → s.loFail = false →
      s.rd R.TIMING_REF_CFG_WTR 0 r ≤ run → (s.ref r).since + 8000 * s.rd R.TIMING_REF_CFG_WTR 0 r ≤ s.frame →
      exec (.refQualify r run) s = .next (((s.start.wr R.TIMING_REF_STAT_QUAL 1 0 r).raise .timing 0 0).refShow r)) ∧
    (s.on R.TIMING_REF_STAT_LOCKOUT 0 r = true →
      (s.ran (.lockout r) 36000000000 = false → exec (.lockoutEnd r) s = .next s.start) ∧
      (s.ran (.lockout r) 36000000000 = true → exec (.lockoutEnd r) s = .next
        (((s.start.wr R.TIMING_REF_STAT_LOCKOUT 0 0 r).setRef r { s.ref r with since := s.frame }).refShow r))) ∧
    (∀ run, s.on R.TIMING_REF_STAT_PERSIST_RUN 0 r = true → s.rd R.TIMING_THRESH_PERSIST ≤ run → run ≤ (s.ref r).beyond →
      exec (.persistExpire r run) s = .next (s.start.selectAfter (s.start.freqDisqualify r)))

/-- While the timing domain is usable: an update measures and judges the references unless LO_IN has failed, selects, moves the
output frequency and keeps history or holdover time. A transition step, outside STANDBY and ISOLATE, retargets and restarts (a
retarget to holdover enters it: the model's reading, log entry 102), or records its phase and either counts on or, as the tenth,
ends the transition. LOCKING becomes LOCKED with its event once the phase has stayed within ±100 ns for 10 updates. HO_OOS is
set once the holdover has lasted HO_SPEC. LO_FAIL disqualifies every reference and free-runs; it clears on its own. (R253, R254,
R255, R260, R262, R263, R264, R265, R266) -/
def Obligations.DpllCommands : Prop :=
  ∀ s : State,
    (s.timingUp = true →
      (∀ m, s.loFail = false → exec (.timingUpdate m) s = .next
        ((s.start.refsUpdate m).selectRef.dpllTick m.phase (s.dpll == dHOLDOVER))) ∧
      (∀ m, s.loFail = true → exec (.timingUpdate m) s = .next
        (s.start.selectRef.dpllTick m.phase (s.dpll == dHOLDOVER))) ∧
      (∀ phase, s.dpll = dTRANSITION → s.mode ≠ mSTANDBY → s.mode ≠ mISOLATE →
        (∀ t, s.tm.retarget = some t →
          let u := ({ (s.start.wr R.TIMING_DPLL_STAT_TARGET t).wr R.TIMING_DPLL_STAT_STEP 1 with
            tm := { s.tm with retarget := none, phases := [] } }.count .timing 0 2).raise .timing 0 3
          (t ≠ 15 → exec (.transitionStep phase) s = .next u) ∧ (t = 15 → exec (.transitionStep phase) s = .next u.enterHoldover)) ∧
        (s.tm.retarget = none →
          let u := { s.start with tm := { s.tm with phases := s.tm.phases ++ [phase] } }
          (s.rd R.TIMING_DPLL_STAT_STEP < 10 → exec (.transitionStep phase) s = .next (u.bump R.TIMING_DPLL_STAT_STEP)) ∧
          (10 ≤ s.rd R.TIMING_DPLL_STAT_STEP → exec (.transitionStep phase) s = .next u.transitionEnd))) ∧
      (s.dpll = dLOCKING → 10 ≤ s.tm.inPhase → exec .dpllLocked s = .next ((s.start.wr R.TIMING_DPLL_STAT_STATE dLOCKED).raise .timing 0 5)) ∧
      ((s.dpll ≠ dLOCKING ∨ s.tm.inPhase < 10) → exec .dpllLocked s = .next s.start) ∧
      (s.loFail = false → exec .loFailDeclare s = .next
        (let u := (((s.start.wr R.TIMING_DPLL_STAT_LO_FAIL 1).wr R.TIMING_LO_STAT_LO_FAIL 1).setRaw .timing 0 12 true).raise .timing 0 12
         let v := (List.range 13).foldl (fun (t : State) r =>
           ((t.disqualify r).setRef r { t.ref r with good := false }).refNoFreq r |>.refShow r) u
         (v.wr R.TIMING_LO_STAT_VALID 0).enterFreerun))) ∧
    (s.loFail = true → exec .loFailClear s = .next
      (((s.start.wr R.TIMING_DPLL_STAT_LO_FAIL 0).wr R.TIMING_LO_STAT_LO_FAIL 0).setRaw .timing 0 12 false)) ∧
    (let due := s.dpll = dHOLDOVER ∧ s.on R.TIMING_DPLL_STAT_HO_OOS = false ∧
        s.rd R.TIMING_HO_CFG_HO_SPEC ≤ s.rd R.TIMING_HO_ELAPSED_SECONDS
     let now := s.rd R.TIMING_HO_ELAPSED_SECONDS
     (due → exec (.holdoverOos now) s = .next ((s.start.wr R.TIMING_DPLL_STAT_HO_OOS 1).raise .timing 0 7)) ∧
     (¬ due → exec (.holdoverOos now) s = .next s.start) ∧
     (∀ t, t ≠ now → exec (.holdoverOos t) s = .next s.start))

/-- A sample pushed on a served page shows in OFFSET, limited to its range, and is counted; the servo in FREERUN counts samples of
one master, a new master frees it, and otherwise the servo moves by it. The master's timeout frees the servo. GO stores ABS and
NEG and asks for a step, or sets REFUSED while one is pending. A read of TIME_SUB answers the sub-nanoseconds and captures the
rest. (R271, R276, R277, R278, R280) -/
def Obligations.ClockSamplesAndSteps : Prop :=
  ∀ s : State,
    (s.served .ntime 0 = true →
      (∀ hi : W32,
        let id := s.rd R.NTIME_MASTER_ID_ID
        let off := clampInt (-(2 ^ 47)) (2 ^ 47) (toSigned 64 (hi.toNat * 2 ^ 32 + s.rd R.NTIME_SAMP_LO_OFFSET))
        let u := ((s.start.mark .sample).wr R.NTIME_OFFSET_OFFSET (ofSigned 32 (clampInt (-(2 ^ 31)) (2 ^ 31 - 1) (off / 65536)))).count .ntime 0 1
        (u.servo = vFREERUN → exec (.samplePush hi) s = .next (u.servoCount id)) ∧
        (u.servo ≠ vFREERUN → u.nt.master ≠ some id → exec (.samplePush hi) s = .next (u.servoFree.servoCount id)) ∧
        (u.servo ≠ vFREERUN → u.nt.master = some id → exec (.samplePush hi) s = .next (u.servoSample off))) ∧
      (∀ abs neg : Bool,
        let u := (s.start.wr R.NTIME_STEP_CTL_ABS (b2n abs)).wr R.NTIME_STEP_CTL_NEG (b2n neg)
        let a := (s.rd R.NTIME_STEP_SEC_HI_SEC * 2 ^ 32 + s.rd R.NTIME_STEP_SEC_LO_SEC) * ntSec + s.rd R.NTIME_STEP_NS_NS * ntNs
        (s.nt.step.isSome = true → exec (.stepGo abs neg) s = .next (u.wr R.NTIME_STEP_CTL_REFUSED 1)) ∧
        (s.nt.step = none → exec (.stepGo abs neg) s = .next
          (({ u with nt := { s.nt with step := some (abs, neg, a) } }.wr R.NTIME_STEP_CTL_PENDING 1).wr R.NTIME_STAT_STEP_PEND 1))) ∧
      exec .timeRead s = .next (s.start.timeRead.1.emit (.read (R.NTIME_TIME_SUB_SUB.addr 0 0) s.start.timeRead.2))) ∧
    (∀ run, s.timingUp = true → s.servo ≠ vFREERUN → s.rd R.NTIME_LIMITS_MASTER_TMO ≤ run →
      s.ran .sample (60000000 * run) = true →
      exec (.masterTimeout run) s = .next s.start.servoFree)

/-- ARM with a reserved ACTION on a served page sets ERR; otherwise ACTION and DROP_LATE are stored, and a slot whose epoch has
passed is dropped with DROP_LATE, or pending and late, and any other is pending. CANCEL withdraws. PPS_OUT rises where the pulse
is enabled outside ISOLATE with a usable clock and a whole second begins, and falls once it has been high for its width. A
PPS_IN edge stores the time and raises its event. (R275, R281, R284) -/
def Obligations.ActionsAndPulses : Prop :=
  ∀ s : State,
    (s.served .ntime 0 = true → ∀ (i : Fin 16),
      (∀ (a : BitVec 4) (drop : Bool), (a.toNat = 0 ∨ 5 ≤ a.toNat) →
        exec (.actArm i a drop) s = .next (s.start.wr R.NTIME_ACT_CTL_ERR 1 0 i)) ∧
      (∀ (a : BitVec 4) (drop : Bool), a.toNat ≠ 0 → a.toNat < 5 →
        let u := (s.start.wr R.NTIME_ACT_CTL_ACTION a.toNat 0 i).wr R.NTIME_ACT_CTL_DROP_LATE (b2n drop) 0 i
        let late := decide (2 ^ 39 ≤ epochStep (u.labelOf 1) (u.actEpoch i))
        (late = true → drop = true → exec (.actArm i a drop) s = .next
          ((((u.wr R.NTIME_ACT_CTL_PENDING 0 0 i).wr R.NTIME_ACT_CTL_DROPPED 1 0 i).count .ntime 0 4).raise .ntime 0 6)) ∧
        ((late = false ∨ drop = false) → exec (.actArm i a drop) s = .next
          { u.wr R.NTIME_ACT_CTL_PENDING 1 0 i with nt := { s.nt with lateArmed := putBit s.nt.lateArmed i late } })) ∧
      exec (.actCancel i) s = .next ({ s.start with nt := { s.nt with lateArmed := clrBit s.nt.lateArmed i } }.wr
        R.NTIME_ACT_CTL_PENDING 0 0 i)) ∧
    (s.on R.NTIME_PPS_EN = true → s.mode ≠ mISOLATE → s.timingUp = true → s.secondNow = true →
      exec .ppsOutEdge s = .next { s.start with nt := { s.nt with pps := true, ppsAt := s.now } }) ∧
    ((s.on R.NTIME_PPS_EN = false ∨ s.mode = mISOLATE ∨ s.timingUp = false ∨ s.secondNow = false) →
      exec .ppsOutEdge s = .next s.start) ∧
    (let ends := s.nt.ppsAt + 600000 * s.rd R.NTIME_PPS_WIDTH
     (ends ≤ s.now → exec .ppsWidthEnd s = .next { s.start with nt := { s.nt with pps := false } }) ∧
     (s.now < ends → exec .ppsWidthEnd s = .next s.start)) ∧
    (s.timingUp = true → exec .ppsIn s = .next
      ((((s.start.wr R.NTIME_PPS_IN_SEC_SEC (ntSeconds s.time)).wr R.NTIME_PPS_IN_NS_NS (ntNanos s.time)).wr
        R.NTIME_PPS_IN_NS_VALID 1).raise .ntime 0 7))

/-- A mask write on a served page stores the mask, its bits without a source reading 1, and makes each set source that it unmasks
pending. A pop answers the head item and counts it, or the idle item of an empty queue. FLUSH empties the queue. A CHG_IDX write
of an existing shelf captures its change bits and clears them. (R337, R338, R339, R342, R343, R344) -/
def Obligations.EventQueueCommands : Prop :=
  ∀ s : State,
    (∀ (p : Page) (i : Nat) (v : W32), s.pageServed p i = true →
      exec (.evtMaskWrite p i v) s = .next
        (let new := v.toNat ||| (2 ^ 32 - 2 ^ pageEvents p)
         let old := s.rd (R.HDR_EVT_MASK_MASK p) i
         let st := s.rd (R.HDR_EVT_STATUS_STATUS p) i
         ((List.range 32).foldl (fun (t : State × Bool) b =>
           if st.testBit b && old.testBit b && !new.testBit b then (becomePending (raiseN 3) p i b t.2 t.1, true) else t)
           (s.start.wr (R.HDR_EVT_MASK_MASK p) new i, s.grpPend (eventGroup p i) != 0)).1)) ∧
    (s.served .event 0 = true →
      let a := R.EVENT_EQ_DATA_ITEM.addr 0 0
      (∀ x r, s.ev.queue = x :: r →
        let u := { s.start with ev := { s.ev with queue := r } }.count .event 0 2
        exec .eventQueuePop s = .next ({ u with capHi := mapSet 0 u.capHi a (x.toNat / 2 ^ 32) }.emit (.read a (x.toNat % 2 ^ 32)))) ∧
      (s.ev.queue = [] → exec .eventQueuePop s = .next
        ({ s.start with capHi := mapSet 0 s.capHi a (idleItem / 2 ^ 32) }.emit (.read a (idleItem % 2 ^ 32)))) ∧
      exec .eventQueueFlush s = .next s.start.eqFlush ∧
      (∀ v : W32, let sel := v.toNat.testBit 31
        let port := bits v.toNat 4 7
        let sh := 16 * port + v.toNat % 16
        port < 75 → (sel = true ∨ port < 64) →
        let m := mapGet 0 (if sel then s.ev.chgSel else s.ev.chgDrw) sh
        let u := (List.range 16).foldl (fun (t : State) j => t.wr R.EVENT_CHG_MAP_CHANGED (m / 2 ^ (32 * j)) 0 j) s.start
        (sel = true → exec (.chgCapture v) s = .next { u with ev := { u.ev with chgSel := mapSet 0 u.ev.chgSel sh 0 } }) ∧
        (sel = false → exec (.chgCapture v) s = .next { u with ev := { u.ev with chgDrw := mapSet 0 u.ev.chgDrw sh 0 } })))

/-- A preset on a served page stores the counter and holds no lower word any more. A wrap that is due raises CNT_WRAP, once for
each. SNAP on a served page, and the rising SNAP pin in mode 1, copy every powered page's counters, advance SNAP_SEQ, set VALID,
and record the source, the epoch and the cycle; a second trigger in one control cycle only lowers the source. FREEZE follows its
write. The pin's level is kept. (R347, R349, R350, R351) -/
def Obligations.CountersAndSnapshots : Prop :=
  ∀ s : State,
    (∀ (p : Page) (i : Nat) (k : Fin 8) (v : BitVec 48), s.pageServed p i = true →
      exec (.cntPreset p i k v) s = .next
        { s.start.wr (R.HDR_CNT_COUNT p) v.toNat i k with heldLo := mdel s.heldLo ((R.HDR_CNT_COUNT p).addr i k) }) ∧
    (∀ (p : Page) (i : Nat) (k : Fin 8), s.ev.wraps.contains (pageSlot p i * 8 + k.val) = true →
      exec (.cntWrap p i k) s = .next
        ({ s.start with ev := { s.ev with wraps := s.ev.wraps.erase (pageSlot p i * 8 + k.val) } }.raise .perf 0 0)) ∧
    (let taken := fun (t : State) (src : Nat) =>
       let sh := allPages.foldl (fun m x => if t.pageUp x.1 x.2 then t.shadowPage m x.1 x.2 else m) t.ev.shadow
       let u := { t with ev := { t.ev with shadow := sh, snapAt := some s.now } }
       let v := ((u.bumpWrap R.PERF_SNAP_STAT_SNAP_SEQ).wr R.PERF_SNAP_STAT_VALID 1).wr R.PERF_SNAP_EPOCH_SOURCE src
       ((v.wr R.PERF_SNAP_EPOCH_EPOCH v.epoch).wr R.PERF_SNAP_OFFSET_CYCLES s.cyc).raise .perf 0 3
     let again := fun (t : State) (src : Nat) => t.wr R.PERF_SNAP_EPOCH_SOURCE (min src (s.rd R.PERF_SNAP_EPOCH_SOURCE))
     let pin := { s.start with ev := { s.ev with snapPin := true } }
     (s.served .perf 0 = true →
       (s.ev.snapAt ≠ some s.now → exec .perfSnap s = .next (taken s.start 1)) ∧
       (s.ev.snapAt = some s.now → exec .perfSnap s = .next (again s.start 1))) ∧
     (s.pageUp .perf 0 = true → s.ev.snapPin = false → s.rd R.PERF_CTL_PIN_MODE = 1 →
       (s.ev.snapAt ≠ some s.now → exec (.snapPin true) s = .next (taken pin 2)) ∧
       (s.ev.snapAt = some s.now → exec (.snapPin true) s = .next (again pin 2)))) ∧
    (s.served .perf 0 = true → ∀ on : Bool, exec (.perfFreeze on) s = .next (s.start.wr R.PERF_CTL_FREEZE (b2n on))) ∧
    (∀ level : Bool, s.pageUp .perf 0 = true → (level = false ∨ s.ev.snapPin = true ∨ s.rd R.PERF_CTL_PIN_MODE ≠ 1) →
      exec (.snapPin level) s = .next { s.start with ev := { s.ev with snapPin := level } })

/-- EN written on a served page stores the settings and starts the trace with the seed, or sets REFUSED outside the modes that
trace. A stage that an item tagged before reaches writes a record with its number; the first stage decides by the LFSR and the
filter and tags the item. A read of TR_DATA0 pops the head record, or answers the idle record of an empty FIFO or with DRAIN_EN.
The drain, where it wins its target or the default target answers it, pops a record, writes its 16 bytes to the ring and
advances WIDX, or sets DRAIN_ERR; where it does not win it waits. (R352, R353, R354, R355) -/
def Obligations.TraceCommands : Prop :=
  ∀ s : State,
    (s.served .perf 0 = true →
      (∀ v : W32, exec (.traceEnable v) s = .next (s.start.trCtlWrite (setBit v.toNat 0))) ∧
      (∀ x r, s.ev.trace = x :: r → s.on R.PERF_TR_CTL_DRAIN_EN = false →
        exec .tracePop s = .next (((({ s.start with ev := { s.ev with trace := r } }.wr R.PERF_TR_DATA_WORD (x.toNat / 2 ^ 32) 0 1).wr
          R.PERF_TR_DATA_WORD (x.toNat / 2 ^ 64) 0 2).wr R.PERF_TR_DATA_WORD (x.toNat / 2 ^ 96) 0 3).emit
          (.read (R.PERF_TR_DATA_WORD.addr 0 0) (x.toNat % 2 ^ 32)))) ∧
      ((s.ev.trace = [] ∨ s.on R.PERF_TR_CTL_DRAIN_EN = true) →
        exec .tracePop s = .next ((((s.start.wr R.PERF_TR_DATA_WORD 0 0 1).wr R.PERF_TR_DATA_WORD 0 0 2).wr R.PERF_TR_DATA_WORD 0 0 3).emit
          (.read (R.PERF_TR_DATA_WORD.addr 0 0) idleItem)))) ∧
    (∀ (stage : Byte) (id : W32) (info : BitVec 16), s.pageUp .perf 0 = true → s.tracing = true →
      let kind := s.rd R.PERF_TR_CTL_KIND
      (traceStages kind).contains stage.toNat = true → (kind ≠ 2 ∨ info.toNat % 8 ≠ 5) →
      let t := s.start.traceCandidate kind id.toNat info.toNat
      (∀ tag : BitVec 16, exec (.traceRecord stage id info (some tag)) s = .next (s.start.traceWrite tag kind stage id info)) ∧
      (t.2 = true → exec (.traceRecord stage id info none) s = .next (t.1.traceWrite t.1.ev.tagId kind stage id info)) ∧
      (t.2 = false → exec (.traceRecord stage id info none) s = .next t.1)) ∧
    (∀ x r, s.pageUp .perf 0 = true → s.ev.trace = x :: r → s.on R.PERF_TR_CTL_DRAIN_EN = true →
      let i := s.rd R.PERF_TR_WIDX_WIDX
      let a := s.rd R.PERF_TR_RING_BASE_BASE * 16 + 16 * i
      let q : BusReq := { s.start.issue 5 a true [] 16 with issued := s.mx.drainAt }
      let drained := fun mx : Matrix =>
        let u := { s.start with ev := { s.ev with trace := r }, mx := { mx with drainAt := s.now } }
        let w := u.m5Write a (leBytes 16 x.toNat)
        (w.cause = 0 → exec .traceDrainWrite s = .next (w.s.wr R.PERF_TR_WIDX_WIDX ((i + 1) % 2 ^ s.rd R.PERF_TR_RING_SIZE_SIZE))) ∧
        (w.cause ≠ 0 → exec .traceDrainWrite s = .next (w.s.wr R.PERF_TR_STAT_DRAIN_ERR 1))
      (q.byDefault = true → drained s.mx) ∧
      (q.byDefault = false → s.start.winner q.target = some q → drained { s.mx with last := mapSet 5 s.mx.last q.target 5 }) ∧
      (q.byDefault = false → (∀ v, s.start.winner q.target = some v → v.m ≠ 5) → exec .traceDrainWrite s = .next s.start)) ∧
    ((s.pageUp .perf 0 = false ∨ s.ev.trace = [] ∨ s.on R.PERF_TR_CTL_DRAIN_EN = false) → exec .traceDrainWrite s = .next s.start)

/-- LC_GO on a served page clears LC_KEY and LC_TAG. It sets LC_REFUSED where the key is missing, the change is not allowed, a wipe
runs or the tag fails, and otherwise sets WIPE_BUSY and records the target; a tag that checks advances AUTH_SEQ. The change ends
with no key held and none marked used, no response due, ENFORCE and TAMPERED clear, the target as the state and WIPE_BUSY clear.
Reloading AUTH_SEQ takes a new free value. (R366, R367, R371) -/
def Obligations.LifeCycleChanges : Prop :=
  ∀ s : State,
    (s.served .secure 0 = true → ∀ target : BitVec 2,
      let cur := s.rd R.SECURE_LC_STATE
      let clear := fun (t : State) => (t.wr R.SECURE_LC_KEY_KEY 0).clearWords R.SECURE_LC_TAG_TAG 4
      let may := s.rd R.SECURE_LC_KEY_KEY = 0x4C1FEC7C ∧ lcAllowed cur target.toNat = true ∧ s.on R.SECURE_LC_WIPE_BUSY = false
      let needs := s.enforced = true ∧ s.authHeld = true ∧ (cur = lcPROVISIONED ∨ cur = lcDEPLOYED)
      let begins := fun (t : State) => { t.wr R.SECURE_LC_WIPE_BUSY 1 with sec := { t.sec with wipe := some target.toNat } }
      let c := s.start.checkTag (tagHeader 0x53 target.toNat s.authSeq 0) [] (s.tagBytes R.SECURE_LC_TAG_TAG)
      (¬ may → exec (.lcGo target) s = .next ((clear s.start).wr R.SECURE_LC_CTL_LC_REFUSED 1)) ∧
      (may → ¬ needs → exec (.lcGo target) s = .next (begins (clear s.start))) ∧
      (may → needs → c.2 = true → exec (.lcGo target) s = .next (begins (clear c.1))) ∧
      (may → needs → c.2 = false → exec (.lcGo target) s = .next ((clear c.1).wr R.SECURE_LC_CTL_LC_REFUSED 1))) ∧
    (∀ target, s.sec.wipe = some target → ∃ t, exec .lcDone s = .next t ∧
      t.sec = { s.sec with kId := [], kAuth := [], resp := none, wipe := none } ∧ t.fresh = s.fresh + 1 ∧
      t.rd R.SECURE_LC_STATE = target % 4 ∧ t.rd R.SECURE_LC_WIPE_BUSY = 0 ∧ t.rd R.SECURE_LC_TAMPERED = 0 ∧ t.rd R.SECURE_CTL_ENFORCE = 0 ∧
      t.rd R.SECURE_LC_K_ID_HELD = 0 ∧ t.rd R.SECURE_LC_K_AUTH_HELD = 0 ∧ t.rd R.SECURE_LC_K_ID_USED = 0 ∧ t.rd R.SECURE_LC_K_AUTH_USED = 0 ∧
      t.rd R.SECURE_AUTH_SEQ_SEQ = (Config.entropy s.fresh).toNat)

/-- On a served page: a key load is refused with KEY_REFUSED where R366 keeps loads closed, and otherwise holds the key and shows
its fingerprint, marking it used in DEPLOYED; KEY_IN is cleared either way. ENFORCE = 1 is taken in PROVISIONED and DEPLOYED
while K_AUTH is held, ENFORCE = 0 in PROVISIONED, and no other write of it has an effect. RESPOND with K_ID held and no response
running sets BUSY and computes the response; when it is ready, RESP holds it and BUSY clears. TAMPER_N asserted wipes both keys,
sets TAMPERED and TAMPER_IN and raises TAMPER; released, it clears TAMPER_IN. (R366, R368, R369) -/
def Obligations.KeysAndTamper : Prop :=
  ∀ s : State,
    (s.served .secure 0 = true →
      let open' := fun (used : Fld) => s.enforced = false ∧ s.on R.SECURE_LC_TAMPER_IN = false ∧
        (s.rd R.SECURE_LC_STATE = lcPROVISIONED ∨ (s.rd R.SECURE_LC_STATE = lcDEPLOYED ∧ s.on used = false))
      let clear := fun (t : State) => t.clearWords R.SECURE_KEY_IN_KEY 8
      let idIn := ({ s.start with sec := { s.sec with kId := s.keyIn } }.wr R.SECURE_LC_K_ID_HELD 1).wr R.SECURE_KEY_ID_ID_FP (keyPrint s.keyIn)
      let authIn := ({ s.start with sec := { s.sec with kAuth := s.keyIn } }.wr R.SECURE_LC_K_AUTH_HELD 1).wr R.SECURE_KEY_ID_AUTH_FP (keyPrint s.keyIn)
      (¬ open' R.SECURE_LC_K_ID_USED → exec .loadId s = .next (clear (s.start.wr R.SECURE_AUTH_STAT_KEY_REFUSED 1))) ∧
      (¬ open' R.SECURE_LC_K_AUTH_USED → exec .loadAuth s = .next (clear (s.start.wr R.SECURE_AUTH_STAT_KEY_REFUSED 1))) ∧
      (open' R.SECURE_LC_K_ID_USED →
        (s.rd R.SECURE_LC_STATE = lcPROVISIONED → exec .loadId s = .next (clear idIn)) ∧
        (s.rd R.SECURE_LC_STATE = lcDEPLOYED → exec .loadId s = .next (clear (idIn.wr R.SECURE_LC_K_ID_USED 1)))) ∧
      (open' R.SECURE_LC_K_AUTH_USED →
        (s.rd R.SECURE_LC_STATE = lcPROVISIONED → exec .loadAuth s = .next (clear authIn)) ∧
        (s.rd R.SECURE_LC_STATE = lcDEPLOYED → exec .loadAuth s = .next (clear (authIn.wr R.SECURE_LC_K_AUTH_USED 1)))) ∧
      (let may := (s.rd R.SECURE_LC_STATE = lcPROVISIONED ∨ s.rd R.SECURE_LC_STATE = lcDEPLOYED) ∧ s.authHeld = true
       (may → exec (.enforceWrite true) s = .next (s.start.wr R.SECURE_CTL_ENFORCE 1)) ∧
       (¬ may → exec (.enforceWrite true) s = .next s.start)) ∧
      (s.rd R.SECURE_LC_STATE = lcPROVISIONED → exec (.enforceWrite false) s = .next (s.start.wr R.SECURE_CTL_ENFORCE 0)) ∧
      (s.rd R.SECURE_LC_STATE ≠ lcPROVISIONED → exec (.enforceWrite false) s = .next s.start) ∧
      (let chal := (List.range 8).flatMap (fun j => leBytes 4 (s.rd R.SECURE_CHAL_CHAL 0 j))
       s.idHeld = true → s.on R.SECURE_ID_CMD_BUSY = false → exec .respond s = .next { s.start.wr R.SECURE_ID_CMD_BUSY 1 with
         sec := { s.sec with resp := some ((hmacSha256 s.sec.kId (0x49 :: List.replicate 31 0 ++ chal)).take 16) } })) ∧
    (∀ r, s.on R.SECURE_ID_CMD_BUSY = true → s.sec.resp = some r →
      let u := (List.range 4).foldl (fun t j => t.wr R.SECURE_RESP_RESP (ofLe (sliceBytes r (4 * j) 4)) 0 j) (s.start.wr R.SECURE_ID_CMD_BUSY 0)
      exec .idResponseReady s = .next { u with sec := { u.sec with resp := none } }) ∧
    (s.domUp 0 = true →
      exec .tamper s = .next (((s.start.wipeKeys.wr R.SECURE_LC_TAMPERED 1).wr R.SECURE_LC_TAMPER_IN 1).raise .secure 0 3) ∧
      exec .tamperNRelease s = .next (s.start.wr R.SECURE_LC_TAMPER_IN 0))

/-- With AON powered, SP_INIT_DONE leaves every word 0 with good parity, sets INIT_DONE and shows it in READY. Once GAP has passed
since the last line, a test of a line that finds nothing counts a line and moves on, wrapping after line 8191 with a pass more.
A failing bit sets ST_FAIL and, when it was clear, captures its offset; a bad read-back sets RESTORE_ERR and leaves those bytes
with failing parity. A stall counts and moves on. (R357, R362, R363, R364) -/
def Obligations.ScratchpadStartAndTest : Prop :=
  ∀ s : State,
    (s.domUp 0 = true → s.on R.SECURE_SP_STAT_INIT_DONE = false → ∃ t, exec .spInitDone s = .next t ∧
      t = ({ s.start with sp := [], spBad := [] }.wr R.SECURE_SP_STAT_INIT_DONE 1).readyChk ∧ (∀ o, t.spByte o = 0) ∧ t.spBad = [] ∧ t.memWf = true) ∧
    (s.stRuns = true → s.ran .line (600 * s.rd R.SECURE_ST_CTL_GAP) = true →
      let line := s.rd R.SECURE_ST_STAT_LINE
      let moveOn := fun (t : State) =>
        if t.rd R.SECURE_ST_STAT_LINE = 8191 then ((t.wr R.SECURE_ST_STAT_LINE 8192).mark .line).bump R.SECURE_ST_STAT_PASSES
        else (t.wr R.SECURE_ST_STAT_LINE (t.rd R.SECURE_ST_STAT_LINE + 1)).mark .line
      exec .stStall s = .next (moveOn (s.start.count .secure 0 4)) ∧
      exec (.stLineTest ⟨[], []⟩) s = .next (moveOn (s.start.count .secure 0 3)) ∧
      (∀ b : Nat, let u := if s.on R.SECURE_SP_STAT_ST_FAIL then s.start else s.start.wr R.SECURE_ST_FAIL_ADDR_OFFSET (64 * line + b / 8)
        exec (.stLineTest ⟨[b], []⟩) s = .next (moveOn (((u.wr R.SECURE_SP_STAT_ST_FAIL 1).raise .secure 0 2).count .secure 0 3))) ∧
      (∀ o : Nat, o < 64 →
        exec (.stLineTest ⟨[], [o]⟩) s = .next (moveOn ((({ s.start with spBad := mput s.spBad (64 * line + o) 1 }.wr
          R.SECURE_SP_STAT_RESTORE_ERR 1).raise .secure 0 2).count .secure 0 3))))

/-- A record of 16 bytes with a right RCRC, in sequence, on a lane in SYNC, taken in STANDBY or in the return to service, advances
the expected RSEQ. A REQ or COMMIT record is held for its RELEASE, one already past counting as late and dropping the currency;
a state record waits for the hinge it names, and a late one for the next hinge; a PULL record writes its word while a pull runs,
and the sum of its bank is no longer valid; PULL_END ends the pull and begins verification. (R295, R296, R297, R298, R306) -/
def Obligations.MirrorRecordsTaken : Prop :=
  ∀ (l : Fin 2) (r : List Byte) (s : State), r.length = 16 → s.dxEn = true → s.dxSync l = true →
    crc16 (bytesToBits (r.take 14)) = ofBe (r.drop 14) → (s.mate.rxSeq = none ∨ s.mate.rxSeq = some (recSeq r)) → s.takesMirror = true →
    let type := (r.getD 0 0).toNat
    let u := s.start.updMate (fun m => { m with rxSeq := some ((recSeq r + 1) % 65536) })
    let holds := fun (c : Instr) (k : HeldKind) =>
      let hold := fun (t : State) => t.updMate (fun m => { m with held := m.held ++ [⟨s.recRow r, false, k⟩] })
      (s.rowPassed (s.recRow r) = false → exec c s = .next (hold u)) ∧
      (s.rowPassed (s.recRow r) = true → exec c s = .next (hold (((u.raise .mate 0 5).count .mate 0 4).dropCur)))
    let waits := fun (c : Instr) =>
      (s.frame < s.recFrame r → exec c s = .next (u.updMate (fun m => { m with due := m.due ++ [(s.recFrame r, r)] }))) ∧
      (s.recFrame r ≤ s.frame → exec c s = .next
        ((u.count .mate 0 5).updMate (fun m => { m with due := m.due ++ [(s.frame + 1, r)] })))
    (type = 1 → holds (.mirReq l r) (.req (BitVec.ofNat 64 (recBody r)) true false)) ∧
    (type = 2 → holds (.mirCommit l r) (commitOf (recBody r))) ∧
    (type = 3 → waits (.mirSel l r)) ∧ (type = 4 → waits (.mirGrp l r)) ∧ (type = 5 → waits (.mirEqcfg l r)) ∧
    (type = 6 → waits (.mirPwcfg l r)) ∧ (type = 7 → waits (.mirPwctx l r)) ∧ (type = 8 → waits (.mirTiming l r)) ∧
    (type = 9 → waits (.mirTime l r)) ∧
    (type = 0xA → let b := recBody r
      (s.on R.MATE_STAT_PULL_BUSY = true → exec (.mirPull l r) s = .next
        ((u.setBank (bit b 62) ((u.bank (bit b 62)).put (b2n (bit b 63) * 2 ^ 22 + bits b 40 22) (bits b 0 26))).sumStale (bit b 62))) ∧
      (s.on R.MATE_STAT_PULL_BUSY = false → exec (.mirPull l r) s = .next u)) ∧
    (type = 0xB →
      (s.on R.MATE_STAT_PULL_BUSY = true → exec (.mirPullEnd l r) s = .next ((u.wr R.MATE_STAT_PULL_BUSY 0).wr R.MATE_STAT_RTS_STEP 3)) ∧
      (s.on R.MATE_STAT_PULL_BUSY = false → exec (.mirPullEnd l r) s = .next u))

/-- For each of the eleven record rows: a list that is no record of the row's type has no form and faults. A record on a lane that
is not in SYNC changes nothing; one with a wrong RCRC is counted and drops the currency of the mirror; a right one in sequence
that the unit does not take only advances the expected RSEQ; one out of sequence is counted and drops the currency. A PULL_END
that a PRIMARY with usable maps receives asks it to serve a pull, from the first word on (the model's choice, log entry 106). At
RELEASE the first held record whose row has come leaves the queue: a request enters the compiler's queue, a cancel ends the
commit, the unit's own commit is no longer held, and one received becomes pending where none is. (R295, R296, R298) -/
def Obligations.MirrorRecordsChecked : Prop :=
  ∀ s : State,
    (∀ (l : Fin 2) (r : List Byte),
      let rows : List (Nat × Instr) := [(1, .mirReq l r), (2, .mirCommit l r), (3, .mirSel l r), (4, .mirGrp l r), (5, .mirEqcfg l r),
        (6, .mirPwcfg l r), (7, .mirPwctx l r), (8, .mirTiming l r), (9, .mirTime l r), (0xA, .mirPull l r), (0xB, .mirPullEnd l r)]
      let u := s.start.updMate (fun m => { m with rxSeq := some ((recSeq r + 1) % 65536) })
      let right := crc16 (bytesToBits (r.take 14)) = ofBe (r.drop 14)
      ∀ x ∈ rows,
        ((r.length ≠ 16 ∨ (r.getD 0 0).toNat ≠ x.1) → exec x.2 s = .fault .illFormed) ∧
        (r.length = 16 → (r.getD 0 0).toNat = x.1 →
          ((s.dxEn = false ∨ s.dxSync l = false) → exec x.2 s = .next s.start) ∧
          (s.dxEn = true → s.dxSync l = true →
            (¬ right → exec x.2 s = .next (s.start.count .mate 0 3).dropCur) ∧
            (right → s.takesMirror = false → (x.1 ≠ 0xB ∨ s.mode ≠ mPRIMARY ∨ s.mc.inited = false) →
              (s.mate.rxSeq = none ∨ s.mate.rxSeq = some (recSeq r)) → exec x.2 s = .next u) ∧
            (right → x.1 = 0xB → s.mode = mPRIMARY → s.mc.inited = true → (s.mate.rxSeq = none ∨ s.mate.rxSeq = some (recSeq r)) →
              exec x.2 s = .next (u.updMate (fun m => { m with serve := some 0, serveNo := recBody r }))) ∧
            (right → s.takesMirror = false → (x.1 ≠ 0xB ∨ s.mode ≠ mPRIMARY) → (∃ e, s.mate.rxSeq = some e ∧ e ≠ recSeq r) →
              exec x.2 s = .next (u.count .mate 0 3).dropCur)))) ∧
    (∀ h : Held, s.mate.held.find? (fun x => s.rowReached x.row) = some h →
      let u := s.start.updMate (fun m => { m with held := m.held.erase h })
      (∀ w auth list, h.kind = .req w auth list → exec .mirRelease s = .next (u.enqueue { word := w, auth := auth, list := list })) ∧
      (∀ now arm drop e, h.kind = .commit now arm drop true e → exec .mirRelease s = .next u.commitCancel) ∧
      (∀ now arm drop e, h.kind = .commit now arm drop false e → h.own = true → exec .mirRelease s = .next
        { u with mc := { u.mc with commit := u.mc.commit.map (fun c : Commit => { c with held := false, ahead := u.mc.queue.length }) } }) ∧
      (∀ now arm drop e, h.kind = .commit now arm drop false e → h.own = false → s.mc.commit = none → (now = true ∨ arm = true) →
        exec .mirRelease s = .next (u.commitPend (if now then .now else .arm e drop) false))) ∧
    (s.mate.held.find? (fun x => s.rowReached x.row) = none → exec .mirRelease s = .next s.start)

/-- On a served MATE page: DX_EN is taken when both Dexgor records are valid and refused otherwise; FAULT follows its write; SWAP on
a PRIMARY is asked when the mate is ready and refused otherwise, and has no effect elsewhere; JOIN begins step 1 in ISOLATE when
no step runs; PULL in STANDBY begins a pull unless one runs, and the mate is asked for it (log entry 106). With the unit up, an
alignment that is done within 50 ns with the heartbeat received begins the pull; sums that match make the mirror current, and in
ISOLATE the unit becomes STANDBY at the next hinge; sums that differ, and a step that fails, set RTS_CAUSE to the step, RTS_STEP
to 15, and raise the event. (R287, R290, R298, R300, R301, R306) -/
def Obligations.MateCommands : Prop :=
  ∀ s : State,
    let pulls := fun (t : State) =>
      let w := ((t.wr R.MATE_STAT_PULL_BUSY 1).wr R.MATE_STAT_RTS_STEP 2).count .mate 0 7
      (w.updMate (fun m => { m with pullNo := m.pullNo + 1 })).mirrorSend 0xB w.absRow (beBytes 8 w.mate.pullNo)
    let fails := fun (t : State) (k : Nat) =>
      (((t.wr R.MATE_STAT_RTS_CAUSE k).wr R.MATE_STAT_RTS_STEP 15).wr R.MATE_STAT_PULL_BUSY 0).readyFollow.raise .mate 0 8
    let step := s.rd R.MATE_STAT_RTS_STEP
    (s.served .mate 0 = true →
      (let valid := ∀ l ∈ List.range 2, recordOk (s.dxRecord l) = true ∧ recordValid (s.dxRecord l) = true
       (valid → exec .dxEnable s = .next (s.start.wr R.MATE_CTL_DX_EN 1)) ∧
       (¬ valid → exec .dxEnable s = .next (s.start.wr R.MATE_STAT_DX_REFUSED 1))) ∧
      (∀ f : Bool, exec (.faultWrite f) s = .next (s.start.wr R.MATE_CTL_FAULT (b2n f))) ∧
      (s.mode = mPRIMARY → s.mateReady = true → exec .swap s = .next (s.start.updMate (fun m => { m with swap := true }))) ∧
      (s.mode = mPRIMARY → s.mateReady = false → exec .swap s = .next (s.start.wr R.MATE_STAT_SWAP_REFUSED 1)) ∧
      (s.mode ≠ mPRIMARY → exec .swap s = .next s.start) ∧
      (s.mode = mISOLATE → (step = 0 ∨ step = 15) →
        exec .join s = .next ((s.start.wr R.MATE_STAT_RTS_STEP 1).wr R.MATE_STAT_RTS_CAUSE 0)) ∧
      ((s.mode ≠ mISOLATE ∨ (step ≠ 0 ∧ step ≠ 15)) → exec .join s = .next s.start) ∧
      (s.mode = mSTANDBY → s.on R.MATE_STAT_PULL_BUSY = false → exec .matePull s = .next (pulls s.start)) ∧
      ((s.mode ≠ mSTANDBY ∨ s.on R.MATE_STAT_PULL_BUSY = true) → exec .matePull s = .next s.start)) ∧
    (s.mateUp = true →
      (step = 1 → s.hbLost = false → s.aligned = true → s.on R.MATE_STAT_PULL_BUSY = false →
        exec .rtsAlignDone s = .next (pulls s.start)) ∧
      (1 ≤ step → step ≤ 4 → exec .rtsFail s = .next (fails s.start step)) ∧
      (step = 0 ∨ 5 ≤ step → exec .rtsFail s = .next s.start) ∧
      (step = 3 → ∀ actD actS editD editS : W32,
        let u := s.start.sumActive.sumEditing
        let same := u.rd R.MAPC_ACT_DSUM_SUM = actD.toNat ∧ u.rd R.MAPC_ACT_SSUM_SUM = actS.toNat ∧
          u.rd R.MAPC_EDIT_DSUM_SUM = editD.toNat ∧ u.rd R.MAPC_EDIT_SSUM_SUM = editS.toNat
        (¬ same → exec (.rtsVerifyDone actD actS editD editS) s = .next u.rtsFail) ∧
        (same → let m := u.updMate (fun m => { m with sumOk := true })
          let w := ((m.wr R.MATE_STAT_MIR_CUR 1).wr R.MATE_STAT_RTS_STEP (if m.mode = mISOLATE then 4 else 0)).readyFollow
          (w.mode = mISOLATE → exec (.rtsVerifyDone actD actS editD editS) s = .next (w.updMate (fun m => { m with role := some (mSTANDBY, w.frame + 1) }))) ∧
          (w.mode ≠ mISOLATE → exec (.rtsVerifyDone actD actS editD editS) s = .next w))))

/-- The unit keeps the level of the two wires, and while its domain is down does no more. With the mate unit up: GASP_IN asserted
sets the bit, raises its event and, in STANDBY, plans the takeover for the end of the next core row; asserted again it changes
nothing; released it clears the bit. A change of the mate's CLAIM records its time and shows in CLAIM_MATE, and CLAIM_BOTH
follows the two, raising its event when it sets; no change, no effect. (R301, R302, R304) -/
def Obligations.MatePins : Prop :=
  ∀ s : State,
    let wire := fun (b : Bool) => { s.start with pow := { s.pow with gaspWire := b } }
    let claim := fun (b : Bool) => { s.start with pow := { s.pow with claimWire := b } }
    (s.mateUp = false → exec .gaspIn s = .next (wire true) ∧ exec .gaspInRelease s = .next (wire false) ∧
      ∀ a : Bool, exec (.claimMateChange a) s = .next (claim a)) ∧
    (s.mateUp = true →
    (s.on R.MATE_STAT_GASP_IN = false →
      let u := (((wire true).wr R.MATE_STAT_GASP_IN 1).setRaw .mate 0 7 true).raise .mate 0 7
      (s.mode = mSTANDBY → exec .gaspIn s = .next (u.updMate (fun m => { m with gaspRow := some (s.absRow + 2) }))) ∧
      (s.mode ≠ mSTANDBY → exec .gaspIn s = .next u)) ∧
    (s.on R.MATE_STAT_GASP_IN = true → exec .gaspIn s = .next (wire true)) ∧
    exec .gaspInRelease s = .next (((wire false).wr R.MATE_STAT_GASP_IN 0).setRaw .mate 0 7 false) ∧
    (∀ a : Bool, s.on R.MATE_STAT_CLAIM_MATE = a → exec (.claimMateChange a) s = .next (claim a)) ∧
    (∀ a : Bool, s.on R.MATE_STAT_CLAIM_MATE = !a →
      let u := ((claim a).updMate (fun m => { m with claimAt := s.now })).wrB R.MATE_STAT_CLAIM_MATE a
      let both := s.on R.MATE_STAT_CLAIM_OWN && a
      let was := (s.rd (R.HDR_EVT_RAW_RAW .mate)).testBit 10
      (both = true → was = false → exec (.claimMateChange a) s = .next ((u.setRaw .mate 0 10 true).raise .mate 0 10)) ∧
      ((both = false ∨ was = true) → exec (.claimMateChange a) s = .next (u.setRaw .mate 0 10 both))))

/-- A heartbeat that is not 56 bytes has no form and faults. One that is not good (no SYNC, from core row 18 on, a wrong HB_CRC, a
SIDE equal to the receiver's) changes nothing. A good one is held, ends the run of misses, advances the run of frames received
once a frame, and shows its unit byte, HB_SEQ and flags in MATE_HB. A frame whose heartbeat has not come by row 18 counts as
missed; at HB_MISS of them the heartbeat is lost, which is reported once and recorded as a recovery. (R292, R293, R294, R301) -/
def Obligations.Heartbeats : Prop :=
  ∀ s : State,
    (∀ (l : Fin 2) (lo : List Byte) (lag : Nat),
      (lo.length ≠ 56 → exec (.heartbeatRx l lo lag) s = .fault .illFormed) ∧
      (lo.length = 56 → s.hbGood l lo = false → exec (.heartbeatRx l lo lag) s = .next s.start) ∧
      (lo.length = 56 → s.hbGood l lo = true → ∃ t, exec (.heartbeatRx l lo lag) s = .next t ∧
        t.mate.hb = lo ∧ t.mate.hbNow = true ∧ t.mate.hbMiss = 0 ∧
        t.mate.hbRun = (if s.mate.hbNow then s.mate.hbRun else s.mate.hbRun + 1) ∧
        t.rd R.MATE_MATE_HB_UNIT = (lo.getD 9 0).toNat ∧ t.rd R.MATE_MATE_HB_HB_SEQ = (lo.getD 10 0).toNat ∧
        t.rd R.MATE_MATE_HB_FLAGS = (lo.getD 11 0).toNat)) ∧
    (s.dxEn = true → s.mate.hbNow = false → 18 ≤ s.row →
      let u := (s.start.updMate (fun m => { m with hbNow := true, hbMiss := s.mate.hbMiss + 1, hbRun := 0 })).count .mate 0 1
      (s.mate.hbMiss + 1 < s.rd R.MATE_CTL_HB_MISS → exec .hbFrameMissed s = .next u) ∧
      (s.rd R.MATE_CTL_HB_MISS ≤ s.mate.hbMiss + 1 →
        (s.hbLost = true → exec .hbFrameMissed s = .next u) ∧
        (s.hbLost = false → exec .hbFrameMissed s = .next
          ((((u.wr R.MATE_STAT_HB_LOST 1).setRaw .mate 0 0 true).raise .mate 0 0).recover 11 0))))

/-- A powered repeater whose receiver is in step: a frame that fails its CRC is counted and forwarded. In ring mode: an ENUM gives
its address to a unit without one that holds the token and is forwarded with TAKEN = 1, and is forwarded unchanged otherwise; an
RD or WR to the unit is queued, or answered RESET, DOWN, ALIGN or BUSY; a broadcast WR is queued by a unit with an address and
forwarded; RESET_ADDR broadcast clears the address and is removed by a unit that held one (log entry 55); WAKE is answered
RESP_OK when it names the unit and wakes it, and a broadcast WAKE that wakes the unit is removed, else forwarded; a frame for
another unit is forwarded and nothing more, as are an RD broadcast and, ENUM apart, a command for UNIT 0. In arm mode a response
goes on towards the host side and an ENUM is forwarded only. (R313, R314, R315, R316, R317, R319, R320, R387) -/
def Obligations.ChainFrames : Prop :=
  ∀ (f : BitVec 96) (s : State), s.pow.phase ≠ .unpowered →
    let a := s.rd R.SEQ_CHN_ADDR_ADDR
    let on (side : ChainSide) (c : Instr) (op : Nat) (t : State) := fOp f = op → s.synced side = true → exec c s = .next t
    (∀ side, fCrcOk f = false → s.synced side = true →
      exec (.chainForward side f) s = .next (((s.start.count .seq 0 2).raise .seq 0 1).forward (otherSide side) f)) ∧
    (fCrcOk f = true → fArm f = false →
      let d := fData f % 64
      let takes := a = 0 ∧ s.chain.tokIn = true ∧ fTaken f = false ∧ 1 ≤ d ∧ d ≤ 62
      let v := s.start.acted f
      (takes → on .inp (.chainEnum f) opENUM (((v.wr R.SEQ_CHN_ADDR_ADDR d).raise .seq 0 4).forward .outp
        (chainFrame (fUnit f) (fOp f) (fTag f) true (fArm f) (fAddr f) (fData f)))) ∧
      (¬ takes → on .inp (.chainEnum f) opENUM (s.start.forward .outp f)) ∧
      (a ≠ 0 → fUnit f = a →
        (let both (t : State) := on .inp (.chainRd .inp f) opRD t ∧ on .inp (.chainWr .inp f) opWR t
         (s.inReset = true → both (v.chainRespond .inp f opERR eRESET)) ∧
         (s.inReset = false → s.domUp 1 = false → both (v.chainRespond .inp f opERR eDOWN)) ∧
         (s.inReset = false → s.domUp 1 = true → fAddr f % 4 ≠ 0 → both (v.chainRespond .inp f opERR eALIGN)) ∧
         (s.inReset = false → s.domUp 1 = true → fAddr f % 4 = 0 →
           (16 ≤ s.chain.queue.length → both ((v.chainRespond .inp f opERR eBUSY).raise .seq 0 3)) ∧
           (s.chain.queue.length < 16 → both (v.chainEnqueue .inp f)))) ∧
        on .inp (.chainWake .inp f) opWAKE ((v.chainRespond .inp f opOK 0).wake 2)) ∧
      (fUnit f = 63 → a ≠ 63 →
        (a ≠ 0 → s.inReset = false → s.domUp 1 = true → fAddr f % 4 = 0 → s.chain.queue.length < 16 →
          on .inp (.chainWr .inp f) opWR ((v.chainEnqueue .inp f).forward .outp f)) ∧
        on .inp (.chainRd .inp f) opRD (s.start.forward .outp f) ∧
        (a ≠ 0 → on .inp (.chainResetAddr .inp f) opRESET (v.wr R.SEQ_CHN_ADDR_ADDR 0)) ∧
        (a = 0 → on .inp (.chainResetAddr .inp f) opRESET ((v.wr R.SEQ_CHN_ADDR_ADDR 0).forward .outp f)) ∧
        (let wakes := s.mode = mSLEEP ∧ s.pow.waking = none ∧ s.pow.phase = .running
         (wakes → on .inp (.chainWake .inp f) opWAKE (v.wake 2)) ∧
         (¬ wakes → on .inp (.chainWake .inp f) opWAKE ((v.wake 2).forward .outp f)))) ∧
      (fUnit f ≠ 63 → (fUnit f = 0 ∨ fUnit f ≠ a) →
        on .inp (.chainRd .inp f) opRD (s.start.forward .outp f) ∧ on .inp (.chainWr .inp f) opWR (s.start.forward .outp f) ∧
        on .inp (.chainResetAddr .inp f) opRESET (s.start.forward .outp f) ∧
        on .inp (.chainWake .inp f) opWAKE (s.start.forward .outp f))) ∧
    (fCrcOk f = true → fArm f = true → ∀ side,
      (fOp f = opOK ∨ fOp f = opERR ∨ fOp f = opNOTIFY → s.synced side = true →
        exec (.chainForward side f) s = .next ((s.start.mark .arm).forward (s.chain.hostSide.getD (otherSide side)) f)) ∧
      (fOp f = opENUM → s.synced side = true → exec (.chainForward side f) s = .next ((s.start.mark .arm).forward (otherSide side) f)))

/-- While the matrix is reachable, the head of the command queue, where it names the default target or wins its target, leaves the
queue and runs as one transaction of M1, which the target's turn records; where another master wins it waits. Of its transaction
an error is answered BUS_ERR, a read with its data, a write with RESP_OK, and a broadcast not at all. Nothing runs from an empty
queue. A NOTIFY repeat with a pending group, NOTIFY_EN and the gap over sends the frame. Arm mode ends, 1 µs after the last
arm-mode frame and not before, with no host side. The token and a loss of clock are recorded while AON is powered; a start bit
is accepted again 272 control cycles after the clock is back (log entry 31). (R310, R315, R316, R317, R320, R339) -/
def Obligations.ChainQueueAndLine : Prop :=
  ∀ s : State,
    (s.chain.queue = [] → exec .chainCmdExecute s = .next s.start) ∧
    (∀ side f rest, s.chain.queue = (side, f) :: rest → (s.chainReq f).byDefault = false →
      (∀ w, s.winner (s.chainReq f).target = some w → w.m ≠ 1) → exec .chainCmdExecute s = .next s.start) ∧
    (∀ side f rest, s.chain.queue = (side, f) :: rest → s.busUp = true →
      let r := s.chainReq f
      (r.byDefault = true ∨ (s.targetBusy 1 r.target = false ∧ ∃ w, s.winner r.target = some w ∧ w.m = 1)) →
      let g := if r.byDefault then s.start else { s.start with mx := { s.mx with last := mapSet 5 s.mx.last r.target 1 } }
      let t := g.chainPop.transact r
      (fUnit f = 63 → exec .chainCmdExecute s = .next (t.s.count .seq 0 4)) ∧
      (fUnit f ≠ 63 → t.cause ≠ 0 → exec .chainCmdExecute s = .next ((t.s.chainRespond side f opERR eBUS).count .seq 0 4)) ∧
      (fUnit f ≠ 63 → t.cause = 0 → fOp f = opWR → exec .chainCmdExecute s = .next ((t.s.chainRespond side f opOK 0).count .seq 0 4)) ∧
      (fUnit f ≠ 63 → t.cause = 0 → fOp f ≠ opWR →
        exec .chainCmdExecute s = .next ((t.s.chainRespond side f opOK (ofLe t.data)).count .seq 0 4))) ∧
    (∀ t, s.notifyGroups ≠ [] → s.on R.SEQ_CHN_CFG_NOTIFY_EN = true → s.chain.notifyAt = some t →
      t + 60000000 ≤ s.now → t + s.rd R.SEQ_CHN_CFG_NOTIFY_GAP * 6000 ≤ s.now →
      let u := { s.start with chain := { s.chain with notifyAt := some s.now, notifyDue := false } }
      exec .notifyRepeat s = .next (u.chainOwn s.ownSide
        (chainFrame (s.rd R.SEQ_CHN_ADDR_ADDR) opNOTIFY 0 false s.chain.hostSide.isSome 0 (notifyData s.notifyGroups)))) ∧
    (s.notifyGroups = [] → (∀ t, s.chain.notifyAt = some t → t + 60000000 ≤ s.now) → exec .notifyRepeat s = .next { s.start with chain := { s.chain with notifyDue := false } }) ∧
    (s.ran .arm 600 = true → exec .armModeReturn s = .next { s.start with chain := { s.chain with hostSide := none } }) ∧
    (s.ran .arm 600 = false → exec .armModeReturn s = .next s.start) ∧
    (s.domUp 0 = true → ∀ on : Bool, exec (.tokInChange on) s = .next { s.start with chain := { s.chain with tokIn := on } }) ∧
    (s.domUp 0 = true → ∀ (side : ChainSide) (gone : Nat), ∃ t, exec (.chainClockLoss ⟨side, gone⟩) s = .next t ∧
      t = { s.start with chain := { s.chain with resync := t.chain.resync } } ∧ (∀ k : Clock, { t with clk := k }.synced side = decide (s.now + gone + 272 ≤ k.frame * 75000 + k.cyc)) ∧
      t.synced (otherSide side) = s.synced (otherSide side))

/-- With the matrix reachable, the transactions that the internal masters issue enter it and the target's arbiter grants its winner:
nothing without one; a winner of M0, M2, M3 or M4 leaves the queue, is remembered as granted last, takes a lock that it opens,
and acts at its target, its response in flight; one whose sequence was broken meets LOCK_BRK instead. The response ends the
transaction: its lock is released, an error recorded, its master answered. A timeout once 2^TMO_LOG2 control cycles have passed
since the grant, and a page that does not acknowledge for 2,048, end it with their error, count, report and record the recovery.
A lock that has lasted 256 control cycles is broken. On a served SEQ page: the key 0x5EED_C0DE restarts the watchdog's period
and any other value does nothing; REMAP follows a write of M2 and of no other master. With WD_EN and a period that has run out
since the last kick, the watchdog resets M2, clears REMAP, advances WD_CNT, sets WD_FIRED, and reports, counts and records it;
before that it does nothing. (R325, R328, R331, R333, R335, R404, R327, R336, R300) -/
def Obligations.MatrixTransactions : Prop :=
  (∀ (t : Target) (s : State), let n := targetNum t
    (s.busUp = true → s.winner n = none → exec (.matrixGrant t [] none) s = .next s.start) ∧
    (s.busUp = true → ∀ rs b, exec (.matrixGrant t rs b) s = .next ((s.start.enterAll rs).arbitrate n b)) ∧
    (s.busUp = true → ∀ r, s.winner n = some r → r.m ≠ 1 → r.m ≠ 5 →
      let u := { s.start with mx := { s.mx with
        last := mapSet 5 s.mx.last n r.m, waiting := s.mx.waiting.erase r, broken := s.mx.broken.erase (brokenKey r) } }.count .matrix 0 1
      let flies (w : Resp) := { w.s with mx := { w.s.mx with inflight := mput w.s.mx.inflight r.target ⟨r, w.data, w.cause⟩ } }.mark (.grant r.target)
      (s.mx.broken.contains (brokenKey r) = false ∨ r.first = true →
        exec (.matrixGrant t [] none) s = .next (flies (((u.lockBy r).atTarget r).readZero r))) ∧
      (s.mx.broken.contains (brokenKey r) = true → r.first = false →
        exec (.matrixGrant t [] none) s = .next (flies ((Resp.mk u [] cLOCKBRK).readZero r)))) ∧
    (let ends (k : Nat) (x : Inflight) (cause : Nat) :=
       ((({ s.start with mx := { s.mx with inflight := mdel s.mx.inflight k } }.lockFree x.req).noteErr x.req cause).answer x.req x.data cause)
     (∀ x, mget? s.mx.inflight n = some x →
       (exec (.matrixResponse t) s = .next (ends n x x.cause)) ∧
       (s.ran (.grant n) (2 ^ s.rd R.MATRIX_TMO_TMO_LOG2) = true → let e := ends n x cTIMEOUT
        exec (.matrixTimeout t) s = .next ((({ e with mx := { e.mx with locks := mdel s.mx.locks n } }.count .matrix 0 3).raise .matrix 0 1).recover 1
          (256 * x.req.m + 16 * n)))) ∧
     (∀ x, mget? s.mx.inflight 0 = some x → s.ran (.grant 0) 2048 = true →
       exec .bridgeTmo s = .next ((((ends 0 x cBRIDGE).count .matrix 0 3).raise .matrix 0 4).recover 2 (256 * x.req.m)))) ∧
    (mget? s.mx.inflight n = none → exec (.matrixResponse t) s = .next s.start ∧ exec (.matrixTimeout t) s = .next s.start) ∧
    (mget? s.mx.inflight 0 = none → exec .bridgeTmo s = .next s.start) ∧
    (∀ m, mget? s.mx.locks n = some m → s.ran (.lock n) 256 = true →
      let u := { s.start with mx := { s.mx with locks := mdel s.mx.locks n, broken := s.mx.broken ++ [8 * m + n] } }
      exec (.lockBrk t) s = .next ((u.raise .matrix 0 2).recover 3 (256 * m + 16 * n))) ∧
    (mget? s.mx.locks n = none → exec (.lockBrk t) s = .next s.start)) ∧
  (∀ s : State, s.served .seq 0 = true →
    exec (.wdKick 0x5EEDC0DE) s = .next { s.start with mx := { s.mx with kickAt := s.now } } ∧
    (∀ v : W32, v ≠ 0x5EEDC0DE → exec (.wdKick v) s = .next s.start) ∧
    (∀ on : Bool, exec (.remapWrite .seq on) s = .next (s.start.wr R.SEQ_CTL_REMAP (b2n on))) ∧
    (∀ (m : Master) (on : Bool), m ≠ .seq → exec (.remapWrite m on) s = .next s.start) ∧
    (∀ run : Nat,
      let due := s.on R.SEQ_CTL_WD_EN = true ∧ s.rd R.SEQ_WD_PERIOD_PERIOD ≤ run ∧ 600 * run ≤ s.now - s.mx.kickAt
      (due → let u := (((s.start.resetMasters [2]).wr R.SEQ_CTL_REMAP 0).bump R.SEQ_STAT_WD_CNT).wr R.SEQ_STAT_WD_FIRED 1
        exec (.wdFired run) s = .next
          ((({ u with mx := { u.mx with kickAt := u.now } }.raise .seq 0 0).count .seq 0 5).recover 5 0)) ∧
      (¬ due → exec (.wdFired run) s = .next s.start)))

/-- A request longer than the link carries, or past its BAR, has no form and faults. While the endpoint is down a request changes
nothing. A locked read completes as Unsupported Request, a locked write does nothing. A request for the bus enters the matrix in
its pieces, a read owing its completion; a write of the MSI-X table is stored and a read of it or of the pending bits is
completed; the user view refuses writes and, with PERF_USER clear, reads, and its spare slots read 0. A tag unanswered in time
completes as Completer Abort and is recorded. PERST_N and a lost link reset the endpoint and M0. Settings follow their requests;
configuration registers 0 and 2 show device 0x6480, the class code and the revision, the others hold free values (log entry
107). (R321, R322, R323, R324, R325, R361) -/
def Obligations.PcieRequests : Prop :=
  ∀ s : State,
    (∀ r : PcieReq, pcieForm r = false → exec (.pcieRequest r) s = .fault .illFormed) ∧
    (∀ r : PcieReq, pcieForm r = true → s.pcieUp = false → exec (.pcieRequest r) s = .next s.start) ∧
    (∀ r : PcieReq, pcieForm r = true → s.pcieUp = true →
      (r.lock = true → r.write = false → exec (.pcieRequest r) s = .next (s.start.emit (.completion r.tag 1 []))) ∧
      (r.lock = true → r.write = true → exec (.pcieRequest r) s = .next s.start) ∧
      (r.lock = false →
        let u := if r.write then s.start else { s.start.mark (.tag r.tag) with pcie := { s.pcie with owed := s.pcie.owed ++ [r.tag] } }
        let refused := fun (a : Nat) => if r.write then u.busErr 0 0 a cUSER else (u.busErr 0 0 a cUSER).complete r.tag 4 []
        (∀ a, s.pcieDest r.bar r.offset = .bus a false →
          exec (.pcieRequest r) s = .next (u.enterPieces r false [(a, if r.write then r.data.length else r.len)] 0)) ∧
        (∀ a, s.pcieDest r.bar r.offset = .bus a true →
          (r.write = false → s.on R.GLOBAL_PRIV_PERF_USER = true → exec (.pcieRequest r) s = .next
            (u.enterPieces r true (userRuns (r.len / 256 + 2) r.offset r.len).1 (userRuns (r.len / 256 + 2) r.offset r.len).2)) ∧
          ((r.write = true ∨ s.on R.GLOBAL_PRIV_PERF_USER = false) → exec (.pcieRequest r) s = .next (refused a))) ∧
        (∀ o, s.pcieDest r.bar r.offset = .table o →
          (r.write = true → exec (.pcieRequest r) s = .next (s.start.tableWrite o r.data)) ∧
          (r.write = false → exec (.pcieRequest r) s = .next (u.complete r.tag 0 (sliceBytes s.tableBytes o r.len)))) ∧
        (∀ o, s.pcieDest r.bar r.offset = .pending o →
          (r.write = true → exec (.pcieRequest r) s = .next s.start) ∧
          (r.write = false → exec (.pcieRequest r) s = .next (u.complete r.tag 0 (sliceBytes (leBytes 8 s.pcie.pba) o r.len)))) ∧
        (s.pcieDest r.bar r.offset = .noSlot →
          ((r.write = true ∨ s.on R.GLOBAL_PRIV_PERF_USER = false) → exec (.pcieRequest r) s = .next (refused r.offset)) ∧
          (r.write = false → s.on R.GLOBAL_PRIV_PERF_USER = true →
            exec (.pcieRequest r) s = .next (u.complete r.tag 0 (List.replicate r.len 0)))))) ∧
    (∀ tag : Nat,
      (s.pcie.owed.contains tag = true → s.ran (.tag tag) 30000 = true → exec (.pcieCompletionTimeout tag) s = .next
        ((({ s.start with pcie := { s.pcie with owed := s.pcie.owed.erase tag } }.forgetTag tag).emit (.completion tag 4 [])).recover 12 0)) ∧
      (s.pcie.owed.contains tag = false → exec (.pcieCompletionTimeout tag) s = .next s.start)) ∧
    exec (.perstN .assert) s = .next ({ s.start with pcie := { released := false, link := false } }.resetMasters [0]) ∧
    exec (.perstN .release) s = .next { s.start with pcie := { s.pcie with released := true } } ∧
    exec (.perstN .linkDown) s = .next ({ s.start with pcie := { released := s.pcie.released, link := false } }.resetMasters [0]) ∧
    (s.pcie.released = true → s.busUp = true → exec (.perstN .linkUp) s = .next { s.start with pcie := { s.pcie with link := true } }) ∧
    (s.pcieUp = true →
      let entry := fun (v : Fin 64) => mapGet (0, 0, true) s.pcie.table v.val
      let put := fun (v : Fin 64) (e : Nat × Nat × Bool) =>
        { s.start with pcie := { s.pcie with table := mapSet (0, 0, true) s.pcie.table v.val e } }
      (∀ tag, exec (.pcieConfigRequest (.read tag 0)) s = .next
        (s.start.takeFresh.emit (.completion tag 0 (leBytes 4 (0x64800000 + Config.vendorId.toNat))))) ∧
      (∀ tag, exec (.pcieConfigRequest (.read tag 2)) s = .next
        (s.start.takeFresh.emit (.completion tag 0 (leBytes 4 (0x02800000 + s.rd R.GLOBAL_ID_ISSUE))))) ∧
      (∀ tag (reg : BitVec 10), reg ≠ 0 → reg ≠ 2 → exec (.pcieConfigRequest (.read tag reg)) s = .next
        (s.start.takeFresh.emit (.completion tag 0 (leBytes 4 (Config.pcieSpace s.fresh reg.toNat).toNat)))) ∧
      (∀ on : Bool, exec (.pcieConfigRequest (.busMaster on)) s = .next { s.start with pcie := { s.pcie with bme := on } }.msixFlush) ∧
      (∀ v a d, exec (.pcieConfigRequest (.vectorEntry v a d)) s = .next (put v (a.toNat, d.toNat, (entry v).2.2))) ∧
      (∀ v m, exec (.pcieConfigRequest (.vectorMask v m)) s = .next (put v ((entry v).1, (entry v).2.1, m)).msixFlush))

/-- On a powered module: VIN_FAIL, when it is not declared already, runs the module from VHOLD, asserts GASP_OUT where a mate is
present, advances VIN_FAIL_CNT, counts and raises its event, and in PRIMARY plans the handover. A shed stage acts once its time
is over: its domains go off, and the event follows where it has any. VIN_OK returning ends the shedding and GASP_OUT and records
the holdup time. An exhausted holdup leaves every domain without power and PGOOD low, and keeps the secure part's record alone.
Changes of HOLDUP_OK and of the AON clock's source are kept and raise their events. (R302, R374, R376, R377, R378, R379, R380,
R386) -/
def Obligations.SupplyEvents : Prop :=
  ∀ s : State, s.pow.phase ≠ .unpowered →
    (s.pow.vinFailed = false →
      let gasp := s.on R.GLOBAL_STRAP_MATE_PRESENT
      let u := { s.start.mark .vin with pow := { s.pow with vinFailed := true, stages := [], gaspOut := gasp } }
      let told := fun (t : State) => (((t.bump R.POWER_VIN_FAIL_CNT_COUNT).count .power 0 1).setRaw .power 0 0 true).raise .power 0 0
      (gasp = true → s.mateUp = true → s.mode = mPRIMARY →
        exec .vinFail s = .next (told (u.updMate (fun m => { m with gaspRow := some (s.absRow + 3) })))) ∧
      ((gasp = false ∨ s.mateUp = false ∨ s.mode ≠ mPRIMARY) → exec .vinFail s = .next (told u)) ∧
      (∀ held, exec (.vinBack held) s = .next s.start) ∧ (∀ st run, exec (.shed st run) s = .next s.start) ∧
      exec .holdupExhausted s = .next s.start) ∧
    (s.pow.vinFailed = true →
      exec .vinFail s = .next s.start ∧
      (∀ (st : Fin 8) (run : Nat), st.val ≠ 0 → s.pow.stages.contains st.val = false → s.shedTime st.val ≤ run →
        s.ran .vin (60000 * run) = true →
        let ds := (List.range 56).filter (fun d => s.shedStage d == st.val)
        let m := ds.foldl (fun (m : BitVec 56) d => m ||| BitVec.ofNat 56 (2 ^ d)) 0
        let u := { s.start with pow := { s.pow with stages := s.pow.stages ++ [st.val], shed := s.pow.shed ||| m } }
        (ds = [] → exec (.shed st run) s = .next u) ∧
        (ds ≠ [] → exec (.shed st run) s = .next ((u.domainsOff ds).raise .power 0 2).readyChk)) ∧
      (∀ held, s.heldFor held = true → exec (.vinBack held) s = .next ((({ s.start with pow := { s.pow with vinFailed := false, stages := [], gaspOut := false } }.wr
        R.POWER_HOLD_LAST_TIME (min held 65535)).setRaw .power 0 0 false).raise .power 0 1)) ∧
      (∃ t, exec .holdupExhausted s = .next t ∧ t.pow.on = 0 ∧ t.pow.up = 0 ∧ t.pow.pgood = false ∧ t.pow.phase = .unpowered ∧
        t.sp = [] ∧ t.sec = { s.sec with resp := none } ∧ t.regs = mapKeep recordKey s.regs)) ∧
    (∀ b : Bool, s.pow.holdupOk ≠ b → (b = true → s.on R.POWER_CTL_CHG_EN = true ∧ s.pow.vinFailed = false) →
      exec (.holdup b) s = .next ({ s.start with pow := { s.pow with holdupOk := b } }.raise .power 0 3).readyChk) ∧
    (∀ b : Bool, s.pow.holdupOk = b → exec (.holdup b) s = .next s.start) ∧
    (∀ b : Bool, s.pow.xtalOk ≠ b → exec (.xtal b) s = .next ({ s.start with pow := { s.pow with xtalOk := b } }.raise .power 0 6)) ∧
    (∀ b : Bool, s.pow.xtalOk = b → exec (.xtal b) s = .next s.start)

/-- On a served POWER page a DOM_EN write that asks for a PMA without its framer or a DRAM channel without its core is refused
whole; any other is stored, and the domains no longer requested wait for the hinge. The domain whose turn it is becomes usable
when its start-up ends; no other does. In SLEEP the first wake source fixes the mode to enter and its cause; elsewhere it does
nothing. On a served GLOBAL page a mode request is pending when R389 allows it and none is pending, and is refused otherwise.
(R383, R384, R385, R387, R389, R390) -/
def Obligations.DomainsAndModes : Prop :=
  ∀ s : State,
    (s.served .power 0 = true → ∀ (hi : Bool) (v : W32),
      let old := s.domEn
      let new := if hi then old % 2 ^ 32 + v.toNat % 2 ^ 24 * 2 ^ 32 else old / 2 ^ 32 * 2 ^ 32 + v.toNat / 16 % 2 ^ 28 * 16
      (domBad new = true → exec (.domEnWrite hi v) s = .next ((s.start.wr R.POWER_STAT_DOM_REFUSED 1).raise .power 0 4)) ∧
      (domBad new = false →
        let u := if hi then s.start.wr R.POWER_DOM_EN1_EN v.toNat else s.start.wr R.POWER_DOM_EN0_EN (v.toNat / 16)
        let due := (s.pow.on.toNat &&& andNot 56 old new) ||| andNot 56 s.pow.offDue.toNat new
        exec (.domEnWrite hi v) s = .next ({ u with pow := { u.pow with offDue := BitVec.ofNat 56 due } }).readyChk)) ∧
    (∀ d : Fin 56,
      (s.nextDomain = some d.val →
        let b : BitVec 56 := BitVec.ofNat 56 (2 ^ d.val)
        let u := { s.start with pow := { s.pow with on := s.pow.on ||| b, up := s.pow.up ||| b, shed := s.pow.shed &&& ~~~b } }
        exec (.domainUsable d) s = .next ((((u.pagesStart d).count .power 0 2).domainStart d).wakeEnd).readyChk) ∧
      (s.nextDomain ≠ some d.val → exec (.domainUsable d) s = .next s.start)) ∧
    (let asleep := s.mode = mSLEEP ∧ s.pow.waking = none ∧ s.pow.phase = .running
     let wakes := fun (cause : Nat) =>
       { s.start with pow := { s.pow with waking := some (if s.on R.POWER_CTL_WAKE_MODE then mBRINGUP else mWARM, cause) } }
     (asleep → exec .wakeNEdge s = .next (wakes 1) ∧
       ∀ run, s.rd R.POWER_WAKE_TIMER_SECONDS ≠ 0 → s.rd R.POWER_WAKE_TIMER_SECONDS ≤ run →
         s.ran .sleep (600000000 * run) = true → exec (.wakeTimerExpire run) s = .next (wakes 3)) ∧
     (¬ asleep → exec .wakeNEdge s = .next s.start ∧ ∀ run, exec (.wakeTimerExpire run) s = .next s.start)) ∧
    (s.served .global 0 = true → ∀ req : BitVec 3,
      (s.pow.modeReq = none → s.mayRequest req.toNat = true →
        exec (.modeRequest req) s = .next ({ s.start with pow := { s.pow with modeReq := some req.toNat } }.wr R.GLOBAL_MODE_STAT_PENDING 1)) ∧
      ((s.pow.modeReq ≠ none ∨ s.mayRequest req.toNat = false) →
        exec (.modeRequest req) s = .next ((s.start.wr R.GLOBAL_MODE_STAT_REFUSED 1).raise .global 0 1)))

/-- After power-on the unit is in BRINGUP and runs, with management and timing usable, and every other domain is to come on exactly
when DOM_EN requests it (or the straps, for the mate unit). After RESET_N is asserted and released it is in BRINGUP again, the
domains that were powered are still powered, and what is requested and not shed comes on. A soft reset, at its begin and at its
end, keeps the mode, every domain powered and usable, and DOM_EN. (R391) -/
def Obligations.ModesAfterReset : Prop :=
  (∀ (st : Straps) (s : State), ∃ t, exec (.powerOn st) s = .next t ∧ t.mode = mBRINGUP ∧ t.pow.phase = .running ∧
    t.pow.on = 0b111 ∧ t.pow.up = 0b111 ∧ ∀ d, 3 ≤ d → t.wanted d = t.requested d) ∧
  (∀ (st : Straps) (s : State), s.pow.phase ≠ .unpowered → ∃ u t, exec .resetNAssert s = .next u ∧ exec (.resetNRelease st) u = .next t ∧
    t.mode = mBRINGUP ∧ t.pow.phase = .running ∧ t.pow.on = s.pow.on ||| 0b111 ∧ t.pow.up = 0b111 ∧
    ∀ d, 3 ≤ d → t.wanted d = (t.requested d && !(s.pow.vinFailed && s.pow.shed.getLsbD d))) ∧
  (∀ s : State, s.served .global 0 = true → ∃ t, exec (.softReset 0x5A17C0DE) s = .next t ∧ t.pow.phase = .soft ∧
    t.mode = s.mode ∧ t.pow.on = s.pow.on ∧ t.pow.up = s.pow.up ∧
    t.rd R.POWER_DOM_EN0_EN = s.rd R.POWER_DOM_EN0_EN ∧ t.rd R.POWER_DOM_EN1_EN = s.rd R.POWER_DOM_EN1_EN) ∧
  (∀ s : State, s.pow.phase = .soft → ∃ t, exec .softResetEnd s = .next t ∧ t.pow.phase = .running ∧
    t.mode = s.mode ∧ t.pow.on = s.pow.on ∧ t.pow.up = s.pow.up ∧
    t.rd R.POWER_DOM_EN0_EN = s.rd R.POWER_DOM_EN0_EN ∧ t.rd R.POWER_DOM_EN1_EN = s.rd R.POWER_DOM_EN1_EN)

/-- For every register of the map on a page that serves it after the write, every field of type W1C and every bit of it that the
hardware sets in the cycle of the write (an event bit must be one that the page has): whatever the host writes, the bit ends
set. The setting event is not lost: in an event status the bit is raised as the event that it is, one after the other, and a
watermark that was clear raises WM. The other fields of that register, and all that no report reaches, stand as the write left
them. (R12) -/
def Obligations.W1cSettingWins : Prop :=
  ∀ (addr v set : W32) (s : State) (p : Page) (i o j : Nat) (r : RSpec),
    let u := s.start.hostWriteReg addr.toNat v.toNat
    pageAt addr.toNat = some (p, i, o) → regOf p i o = some (r, j) → u.served p i = true →
    ∃ t, exec (.w1cWrite addr v set) s = .next t ∧
      t = { u with regs := t.regs, ev := t.ev, out := t.out, pcie := t.pcie, chain := t.chain } ∧
      (∀ x ∈ r.fields, x.acc = .w1c → ∀ b < x.fld.width, set.toNat.testBit (x.fld.lsb + b) = true →
        (r.off = 0x10 → x.fld.lsb + b < pageEvents p) → (t.rd x.fld i j).testBit b = true) ∧
      (∀ x ∈ r.fields, x.acc ≠ .w1c → t.rd x.fld i j = u.rd x.fld i j) ∧
      (r.off = 0x10 → t = ((List.range (pageEvents p)).filter (fun b => set.toNat.testBit b)).foldl (fun s b => s.raise p i b) u) ∧
      (p = .event → r.off = 0x130 → set.toNat.testBit 30 = true → u.on R.EVENT_WM_STICKY 0 j = false →
        t = (u.wr R.EVENT_WM_STICKY 1 0 j).raise .event 0 2)

/-- For every 32-bit register of the map whose write does no more than set fields (the writes of commands, masks and guarded
settings have statements of their own), on a page that serves it: REG_WRITE completes, every field reads what its access type
makes of the old value and the written bits (RW and RWS take them unless the value is reserved, RWL only while the page is not
locked, W1C clears the bits written 1, W1S sets them, WO takes them, RO and RC keep), and no other field of the block and
nothing else changes. A write of an unmapped address, or of a page that does not answer, changes nothing but the record of the
error response; a write of an offset without a register changes nothing. The lower word of a 64-bit register is held; the write
of the upper word writes the whole register with it. PAGE_LOCK sets LOCK of a page that serves the header, and nothing else.
(R10, R11, R14, R16, R333, R334, R408, R409) -/
def Obligations.RegisterWrites : Prop :=
  (∀ (addr v : W32) (s : State) (p : Page) (i o j : Nat) (r : RSpec),
    let u := s.start
    u.busUp = true → pageAt addr.toNat = some (p, i, o) → regOf p i o = some (r, j) → u.served p i = true → r.w64 = false →
    r.off ∉ writeActs p →
    ∃ t, exec (.regWrite addr v) s = .next t ∧ t = { u with regs := t.regs } ∧
      (∀ x ∈ r.fields, t.rd x.fld i j = x.written (u.on (R.HDR_PAGE_CTL_LOCK x.fld.page) i) (u.rd x.fld i j)
        (v.toNat / 2 ^ x.fld.lsb % 2 ^ x.fld.width)) ∧
      (∀ k, (∀ x ∈ r.fields, k ≠ x.fld.key i j) → mapGet 0 t.regs k = mapGet 0 u.regs k)) ∧
  (∀ (addr v : W32) (s : State),
    let u := s.start
    (u.busUp = false → exec (.regWrite addr v) s = .next u) ∧
    (u.busUp = true → pageAt addr.toNat = none →
      exec (.regWrite addr v) s = .next ((u.busErr 0 (errTarget 0 cDEFAULT) addr.toNat cDEFAULT).emit (.busError addr.toNat cDEFAULT))) ∧
    (∀ p i o, u.busUp = true → pageAt addr.toNat = some (p, i, o) →
      (u.answers p i o = false →
        exec (.regWrite addr v) s = .next ((u.busErr 0 (errTarget 0 cDOMOFF) addr.toNat cDOMOFF).emit (.busError addr.toNat cDOMOFF))) ∧
      (u.answers p i o = true → regOf p i o = none → exec (.regWrite addr v) s = .next u))) ∧
  (∀ (addr v : W32) (s : State) (p : Page) (i o j : Nat) (r : RSpec),
    let u := s.start
    let b := addr.toNat / 8 * 8
    u.busUp = true → pageAt b = some (p, i, o) → regOf p i o = some (r, j) → u.served p i = true → r.w64 = true → o % 8 = 0 →
    exec (.word64LowerWrite addr v) s = .next { u with heldLo := mput u.heldLo b v.toNat }) ∧
  (∀ (addr v : W32) (s : State) (p : Page) (i o j lo : Nat) (r : RSpec),
    let u := s.start
    let b := addr.toNat / 8 * 8
    u.busUp = true → pageAt (b + 4) = some (p, i, o) → regOf p i o = some (r, j) → u.served p i = true → r.w64 = true → o % 8 = 4 →
    mget? u.heldLo b = some lo →
    exec (.word64UpperWrite addr v) s = .next ({ u with heldLo := mdel u.heldLo b }.regSet 0 p i r j (v.toNat * 2 ^ 32 + lo))) ∧
  (∀ (p : Page) (i : Nat) (s : State),
    exec (.pageLock p i) s = .next (if s.start.pageServed p i then s.start.wr (R.HDR_PAGE_CTL_LOCK p) 1 i else s.start))

/-- For every register of the map whose read takes nothing from a queue, captures no time and asks no converter (those reads have
statements of their own), on a page that answers at its offset: a privileged read of a 32-bit register gives its word; its
fields of type RC then read 0, and no other field of the block and nothing else changes. A user read of a register of the
header, with PERF_USER = 1, gives the same word and changes nothing; any other user read takes the error response of the user
view. WORD64_LOWER_READ gives the lower word of a 64-bit register and captures its upper word, which the read of the upper word
gives. A read of an unmapped address, or of a page that does not answer, is an error response; a read of an offset without a
register gives 0. (R10, R13, R14, R323, R333, R334, R408) -/
def Obligations.RegisterReads : Prop :=
  (∀ (addr : W32) (s : State) (p : Page) (i o j : Nat) (r : RSpec),
    let u := s.start
    let word := u.word r.fields i j % 2 ^ 32
    u.busUp = true → pageAt addr.toNat = some (p, i, o) → u.answers p i o = true → regOf p i o = some (r, j) → r.w64 = false →
    r.off ∉ readActs p → r.fields.any (fun x => adcFld x.fld) = false →
    (∃ t : State, exec (.rcRead false addr) s = .next (t.emit (.read addr.toNat word)) ∧ t = { u with regs := t.regs } ∧
      (∀ x ∈ r.fields, x.acc = .rc → t.rd x.fld i j = 0) ∧
      (∀ k, (∀ x ∈ r.fields, x.acc = .rc → k ≠ x.fld.key i j) → mapGet 0 t.regs k = mapGet 0 u.regs k)) ∧
    (u.on R.GLOBAL_PRIV_PERF_USER = true → o < 0x100 →
      exec (.rcRead true addr) s = .next (u.emit (.read addr.toNat word)))) ∧
  (∀ (addr : W32) (s : State) (p : Page) (i o : Nat),
    let u := s.start
    u.busUp = true → pageAt addr.toNat = some (p, i, o) →
    (u.on R.GLOBAL_PRIV_PERF_USER = false ∨ 0x100 ≤ o →
      exec (.rcRead true addr) s = .next ((u.busErr 0 (errTarget 0 cUSER) addr.toNat cUSER).emit (.busError addr.toNat cUSER))) ∧
    (u.answers p i o = false →
      exec (.rcRead false addr) s = .next ((u.busErr 0 (errTarget 0 cDOMOFF) addr.toNat cDOMOFF).emit (.busError addr.toNat cDOMOFF))) ∧
    (u.answers p i o = true → regOf p i o = none → exec (.rcRead false addr) s = .next (u.emit (.read addr.toNat 0)))) ∧
  (∀ (user : Bool) (addr : W32) (s : State),
    let u := s.start
    (u.busUp = false → exec (.rcRead user addr) s = .next u) ∧
    (u.busUp = true → pageAt addr.toNat = none →
      exec (.rcRead user addr) s = .next ((u.busErr 0 (errTarget 0 cDEFAULT) addr.toNat cDEFAULT).emit (.busError addr.toNat cDEFAULT)))) ∧
  (∀ (addr : W32) (s : State) (p : Page) (i o j : Nat) (r : RSpec),
    let u := s.start
    let b := addr.toNat / 8 * 8
    let word := u.word r.fields i j
    u.busUp = true → pageAt b = some (p, i, o) → u.answers p i o = true → regOf p i o = some (r, j) → r.w64 = true → o % 8 = 0 →
    r.off ∉ readActs p → r.fields.any (fun x => adcFld x.fld) = false →
    exec (.word64LowerRead addr) s = .next
      ({ u.clearRead r.fields i j with capHi := mapSet 0 u.capHi b (word / 2 ^ 32) }.emit (.read b (word % 2 ^ 32)))) ∧
  (∀ (addr : W32) (s : State) (p : Page) (i o j : Nat) (r : RSpec),
    let u := s.start
    u.busUp = true → pageAt addr.toNat = some (p, i, o) → u.answers p i o = true → regOf p i o = some (r, j) → r.w64 = true →
    o / 4 % 2 = 1 →
    exec (.rcRead false addr) s = .next (u.emit (.read addr.toNat (mapGet 0 u.capHi (addr.toNat / 4 * 4 - 4)))))

/-- With the timing domain usable and the module powered and out of RESET_N, HINGE ends the frame: the next one begins at its cycle
0, the scratchpad keeps its bytes, and the state is what the changes due at this hinge make, in the order role and mode, commit,
selector moves and the rest of the traffic, clock outputs; without the timing domain, without power or under RESET_N there is no
hinge. A frame has 75,000 control cycles (two core cycles each). A step on an empty queue (the model's choice, log entry 1) lets
one control cycle pass: it counts within the frame, the last cycle of a frame waits for HINGE, and where the timing domain is
off the frame number goes on by itself; without power nothing passes. (R20, R23, R25, R26, R27, R382) -/
def Obligations.HingeAndCycles : Prop :=
  (∀ (i : HingeIn) (s : State),
    (s.domUp 2 = true → s.pow.phase = .running ∨ s.pow.phase = .soft →
      ∃ t, exec (.hinge i) s = .next t ∧ t.frame = s.frame + 1 ∧ t.cyc = 0 ∧ t.sp = s.sp ∧ t.pending = s.pending ∧
        (let old := (s.start.fabricFrame i).fillChecks i
         let v := (((old.nextFrameBegins.labelHinge old.nextFrameBegins.mateLabel).count .dfab 0 4).mateHinge).modeHinge
         let u := v.commitHinge v.frame v.epoch
         (v.domUp 1 = true → v.domUp 2 = true →
           (trafficMode u.mode = true → t = (State.trafficHinge old u).clockTurn.readyChk.notifyTurn) ∧
           (trafficMode u.mode = false → t = u.powerHinge.actions.clockTurn.readyChk.notifyTurn)) ∧
         (v.domUp 1 = false ∨ v.domUp 2 = false → t = v))) ∧
    (s.domUp 2 = false ∨ s.pow.phase = .unpowered ∨ s.pow.phase = .resetN → exec (.hinge i) s = .next s.start)) ∧
  (∀ s : State, s.pending = [] → ∃ t, step s = .next t ∧ t.pending = [] ∧ t.sp = s.sp ∧
    (s.pow.phase = .unpowered → t = s.start) ∧
    (s.pow.phase ≠ .unpowered →
      (s.cyc < 74999 → t.frame = s.frame ∧ t.cyc = s.cyc + 1) ∧
      (74999 ≤ s.cyc → s.domUp 2 = true → t = s.start) ∧
      (74999 ≤ s.cyc → s.domUp 2 = false → t.frame = s.frame + 1 ∧ t.cyc = 0)))

/-- Whatever the state, a command whose operands have a form that the spec gives completes: it ends in a next state, never in a
fault or a refusal. It leaves the waiting commands alone, and only a hinge or a new start of the module moves the frame and the
cycle. (R10, R20, R23) -/
def Obligations.WellFormedCommandsComplete : Prop :=
  ∀ (c : Instr) (s : State), c.wf = true →
    ∃ t, exec c s = .next t ∧ t.pending = s.pending ∧ (movesTime c = false → t.clk = s.clk)

/-- From every state whose waiting commands all have operands of a form that the spec gives, a run of exactly as many steps as
commands wait ends in a state where none waits, and every shorter run leaves the rest of them, in their order. (R10, R20) -/
def Obligations.QueueOfWellFormedRunsEmpty : Prop :=
  ∀ s : State, s.queueWf = true →
    (∃ t, runSteps s.pending.length s = .next t ∧ t.pending = []) ∧
    ∀ n, n ≤ s.pending.length → ∃ t, runSteps n s = .next t ∧ t.pending = s.pending.drop n

/-- In every state, whatever command waits or none: if the scratchpad's list of bytes is in its one canonical form (addresses inside
the list strictly rising, no byte listed that equals what an unlisted address reads as), it is so in every next state. Equal
contents are then equal data in every run. (R357, R358, R10, R20) -/
def Obligations.ScratchpadStaysCanonical : Prop :=
  ∀ s t : State, s.memWf = true → step s = .next t → t.memWf = true

/-- At reset the scratchpad lists nothing and is in canonical form, no command waits, nothing has left the block, every field of
every register reads the reset value that the map gives it (where the spec gives none it is the model's choice, log entries name
them), the mode is BRINGUP, the module runs with the always-on, management and timing domains powered and usable and no other,
no connection, selector, group or context holds anything, and frame and cycle are 0. (R10, R17, R391, R20, R384) -/
def Obligations.StateAfterReset : Prop :=
  State.reset.memWf = true ∧ State.reset.sp = [] ∧ State.reset.pending = [] ∧ State.reset.out = [] ∧
  (∀ (f : Fld) (i j : Nat), State.reset.rd f i j = f.rst) ∧ State.reset.mode = mBRINGUP ∧ State.reset.pow.phase = .running ∧
  (∀ d, State.reset.domUp d = decide (d < 3)) ∧ State.reset.mc.queue = [] ∧ State.reset.sels = [] ∧ State.reset.groups = [] ∧
  State.reset.ctxs = [] ∧ State.reset.frame = 0 ∧ State.reset.cyc = 0 ∧ State.reset.readyWord = State.reset.pow.lastReady

/-- For every word and every index W: DET, 6 bits, makes the 48 bits (bits 25 to 0 of the word, then the 22-bit index, most
significant bit first) followed by it a product of the generator x^6 + x + 1 and a polynomial of 48 coefficients over two
elements: the CRC of that generator with initial value 0, no reflection and no final complement. Two words with their indices
and codes, such as a word written to the wrong index and the word that belongs there, never differ in exactly one bit, in
exactly two bits, or within six bits in a row. (R132) -/
def Obligations.DetCatchesErrors : Prop :=
  (∀ k w : Nat, detCode k w < 64 ∧ ∃ q : List Bool, q.length = 48 ∧
    (w % 2 ^ 26 * 2 ^ 22 + k % 2 ^ 22) * 64 + detCode k w = q.foldl (fun a b => (2 * a) ^^^ (if b then 0b1000011 else 0)) 0) ∧
  (∀ k w l v : Nat,
    let e := ((w % 2 ^ 26 * 2 ^ 22 + k % 2 ^ 22) * 64 + detCode k w) ^^^ ((v % 2 ^ 26 * 2 ^ 22 + l % 2 ^ 22) * 64 + detCode l v)
    (∀ i, e ≠ 2 ^ i) ∧ (∀ i j, i ≠ j → e ≠ 2 ^ i ^^^ 2 ^ j) ∧ (∀ b i, 0 < b → b < 2 ^ 6 → e ≠ b * 2 ^ i))
end

