-- ==== Sys2Proof/Laws/Maps.lean ====
section
/-! SUPPORT. Laws of the sparse maps: what a read gives after a write, and that every operation keeps the canonical form. -/
namespace Sys2Proof.Machine

variable {α : Type}

@[simp] theorem mget?_mput_same (m : SMap α) (k : Nat) (v : α) : mget? (mput m k v) k = some v := by
  induction m with
  | nil => simp [mput, mget?]
  | cons e r ih =>
    unfold mput
    split
    · simp [mget?]
    · split
      · simp [mget?]
      · simp [mget?, ih]; omega

theorem mget?_mput_ne (m : SMap α) {k k' : Nat} (v : α) (h : k' ≠ k) : mget? (mput m k v) k' = mget? m k' := by
  induction m with
  | nil => simp [mput, mget?, h.symm]
  | cons e r ih =>
    unfold mput
    split
    · simp [mget?, h.symm]
    · split
      · rename_i e'; subst e'; simp [mget?, h.symm]
      · simp [mget?, ih]

@[simp] theorem mget?_mdel_same (m : SMap α) (k : Nat) : mget? (mdel m k) k = none := by
  induction m with
  | nil => rfl
  | cons e r ih =>
    unfold mdel
    split
    · exact ih
    · simp [mget?, *]

theorem mget?_mdel_ne (m : SMap α) {k k' : Nat} (h : k' ≠ k) : mget? (mdel m k) k' = mget? m k' := by
  induction m with
  | nil => rfl
  | cons e r ih =>
    unfold mdel
    split
    · rename_i e'; subst e'; simp [mget?, h.symm, ih]
    · simp [mget?, ih]

@[simp] theorem mapGet_mapSet_same [DecidableEq α] (d : α) (m : SMap α) (k : Nat) (v : α) : mapGet d (mapSet d m k v) k = v := by
  by_cases hv : v = d <;> simp [mapGet, mapSet, hv]

theorem mapGet_mapSet_ne [DecidableEq α] (d : α) (m : SMap α) {k k' : Nat} (v : α) (h : k' ≠ k) :
    mapGet d (mapSet d m k v) k' = mapGet d m k' := by
  unfold mapGet mapSet
  by_cases hv : v = d
  · rw [if_pos hv, mget?_mdel_ne m h]
  · rw [if_neg hv, mget?_mput_ne m v h]

@[simp] theorem mapGet_mput_same (d : α) (m : SMap α) (k : Nat) (v : α) : mapGet d (mput m k v) k = v := by simp [mapGet]

theorem mapGet_mput_ne (d : α) (m : SMap α) {k k' : Nat} (v : α) (h : k' ≠ k) : mapGet d (mput m k v) k' = mapGet d m k' := by
  simp [mapGet, mget?_mput_ne m v h]

/-- A restricted map reads as before at the keys it keeps, and as unlisted at the others. -/
theorem mget?_mapKeep (p : Nat → Bool) (m : SMap α) (k : Nat) : mget? (mapKeep p m) k = if p k then mget? m k else none := by
  induction m with
  | nil => simp [mapKeep, mget?]
  | cons e r ih =>
    obtain ⟨q, v⟩ := e
    have step : mapKeep p ((q, v) :: r) = if p q then (q, v) :: mapKeep p r else mapKeep p r := by
      unfold mapKeep; rw [List.filter_cons]
    rw [step]
    by_cases hk : q = k
    · subst hk
      cases hp : p q
      · rw [if_neg (by simp), ih, hp]; rfl
      · simp [mget?]
    · cases hp : p q
      · rw [if_neg (by simp), ih]; simp [mget?, hk]
      · rw [if_pos rfl]; simp [mget?, hk, ih]

theorem mapGet_mapKeep (d : α) (p : Nat → Bool) (m : SMap α) (k : Nat) : mapGet d (mapKeep p m) k = if p k then mapGet d m k else d := by
  unfold mapGet; rw [mget?_mapKeep]; cases p k <;> rfl

theorem mem_mput {m : SMap α} {k : Nat} {v : α} {e : Nat × α} (h : e ∈ mput m k v) : e = (k, v) ∨ e ∈ m := by
  induction m with
  | nil => simpa [mput] using h
  | cons a r ih =>
    unfold mput at h
    split at h
    · simpa using h
    · split at h
      · simp at h ⊢; tauto
      · simp at h ⊢
        rcases h with h | h
        · tauto
        · have := ih h; tauto

theorem mem_mdel {m : SMap α} {k : Nat} {e : Nat × α} (h : e ∈ mdel m k) : e ∈ m := by
  induction m with
  | nil => exact h
  | cons a r ih =>
    unfold mdel at h
    split at h
    · simp [ih h]
    · simp at h ⊢
      rcases h with h | h
      · tauto
      · exact .inr (ih h)

theorem keysRise_weaken {m : SMap α} {l l' : Nat} (h : keysRise (some l) m = true) (hl : l' ≤ l) : keysRise (some l') m = true := by
  cases m with
  | nil => rfl
  | cons a r => simp [keysRise] at h ⊢; exact ⟨by omega, h.2⟩

theorem keysRise_none {m : SMap α} {l : Nat} (h : keysRise (some l) m = true) : keysRise none m = true := by
  cases m with
  | nil => rfl
  | cons a r => simp [keysRise] at h ⊢; exact h.2

theorem keysRise_mput_some {m : SMap α} {l k : Nat} {v : α} (h : keysRise (some l) m = true) (hk : l < k) :
    keysRise (some l) (mput m k v) = true := by
  induction m generalizing l with
  | nil => simp [mput, keysRise, hk]
  | cons a r ih =>
    unfold mput
    simp [keysRise] at h
    split
    · simp [keysRise, h.2, hk]; assumption
    · split
      · rename_i e; simp [keysRise, hk]; exact e ▸ h.2
      · simp [keysRise, h.1]; exact ih h.2 (by omega)

/-- `mput` keeps the keys rising. -/
theorem keysRise_mput {m : SMap α} {k : Nat} {v : α} (h : keysRise none m = true) : keysRise none (mput m k v) = true := by
  cases m with
  | nil => rfl
  | cons a r =>
    unfold mput
    simp [keysRise] at h
    split
    · simp [keysRise, h]; assumption
    · split
      · rename_i e; simp [keysRise]; exact e ▸ h
      · simp [keysRise]; exact keysRise_mput_some h (by omega)

theorem keysRise_mdel_some {m : SMap α} {l k : Nat} (h : keysRise (some l) m = true) : keysRise (some l) (mdel m k) = true := by
  induction m generalizing l with
  | nil => rfl
  | cons a r ih =>
    unfold mdel
    simp [keysRise] at h
    split
    · exact keysRise_weaken (ih h.2) (by omega)
    · simp [keysRise, h.1, ih h.2]

/-- `mdel` keeps the keys rising. -/
theorem keysRise_mdel {m : SMap α} {k : Nat} (h : keysRise none m = true) : keysRise none (mdel m k) = true := by
  cases m with
  | nil => rfl
  | cons a r =>
    unfold mdel
    simp [keysRise] at h
    split
    · exact keysRise_none (keysRise_mdel_some h)
    · simp [keysRise, keysRise_mdel_some h]

/-- Setting a value keeps the canonical form. -/
theorem mapWf_mapSet [DecidableEq α] {d : α} {m : SMap α} (k : Nat) (v : α) (h : mapWf d m = true) :
    mapWf d (mapSet d m k v) = true := by
  simp only [mapWf, Bool.and_eq_true, List.all_eq_true, decide_eq_true_eq] at h ⊢
  unfold mapSet
  split
  · exact ⟨keysRise_mdel h.1, fun e he => h.2 e (mem_mdel he)⟩
  · refine ⟨keysRise_mput h.1, fun e he => ?_⟩
    rcases mem_mput he with rfl | he
    · assumption
    · exact h.2 e he

end Sys2Proof.Machine
end

