-- ==== Sys2Proof/Laws/State.lean ====
section
/-! SUPPORT. The updates of State, one lemma per field per update, and what a read gives after a write. -/
namespace Sys2Proof.Machine

variable (s : State)

/-! `wr` changes `regs` alone. -/
@[simp] theorem State.wr_pending (f : Fld) (v i j : Nat) : (s.wr f v i j).pending = s.pending := (rfl)
@[simp] theorem State.wr_out (f : Fld) (v i j : Nat) : (s.wr f v i j).out = s.out := (rfl)
@[simp] theorem State.wr_capHi (f : Fld) (v i j : Nat) : (s.wr f v i j).capHi = s.capHi := (rfl)
@[simp] theorem State.wr_heldLo (f : Fld) (v i j : Nat) : (s.wr f v i j).heldLo = s.heldLo := (rfl)
@[simp] theorem State.wr_clk (f : Fld) (v i j : Nat) : (s.wr f v i j).clk = s.clk := (rfl)
@[simp] theorem State.wr_fresh (f : Fld) (v i j : Nat) : (s.wr f v i j).fresh = s.fresh := (rfl)
@[simp] theorem State.wr_pow (f : Fld) (v i j : Nat) : (s.wr f v i j).pow = s.pow := (rfl)
@[simp] theorem State.wr_mx (f : Fld) (v i j : Nat) : (s.wr f v i j).mx = s.mx := (rfl)
@[simp] theorem State.wr_pcie (f : Fld) (v i j : Nat) : (s.wr f v i j).pcie = s.pcie := (rfl)
@[simp] theorem State.wr_chain (f : Fld) (v i j : Nat) : (s.wr f v i j).chain = s.chain := (rfl)
@[simp] theorem State.wr_ev (f : Fld) (v i j : Nat) : (s.wr f v i j).ev = s.ev := (rfl)
@[simp] theorem State.wr_sp (f : Fld) (v i j : Nat) : (s.wr f v i j).sp = s.sp := (rfl)
@[simp] theorem State.wr_spBad (f : Fld) (v i j : Nat) : (s.wr f v i j).spBad = s.spBad := (rfl)
@[simp] theorem State.wr_lanes (f : Fld) (v i j : Nat) : (s.wr f v i j).lanes = s.lanes := (rfl)
@[simp] theorem State.wr_drawers (f : Fld) (v i j : Nat) : (s.wr f v i j).drawers = s.drawers := (rfl)
@[simp] theorem State.wr_outCols (f : Fld) (v i j : Nat) : (s.wr f v i j).outCols = s.outCols := (rfl)
@[simp] theorem State.wr_dx (f : Fld) (v i j : Nat) : (s.wr f v i j).dx = s.dx := (rfl)
@[simp] theorem State.wr_dram (f : Fld) (v i j : Nat) : (s.wr f v i j).dram = s.dram := (rfl)
@[simp] theorem State.wr_dramRsv (f : Fld) (v i j : Nat) : (s.wr f v i j).dramRsv = s.dramRsv := (rfl)
@[simp] theorem State.wr_mc (f : Fld) (v i j : Nat) : (s.wr f v i j).mc = s.mc := (rfl)
@[simp] theorem State.wr_sec (f : Fld) (v i j : Nat) : (s.wr f v i j).sec = s.sec := (rfl)
@[simp] theorem State.wr_mate (f : Fld) (v i j : Nat) : (s.wr f v i j).mate = s.mate := (rfl)
@[simp] theorem State.wr_sels (f : Fld) (v i j : Nat) : (s.wr f v i j).sels = s.sels := (rfl)
@[simp] theorem State.wr_groups (f : Fld) (v i j : Nat) : (s.wr f v i j).groups = s.groups := (rfl)
@[simp] theorem State.wr_grooms (f : Fld) (v i j : Nat) : (s.wr f v i j).grooms = s.grooms := (rfl)
@[simp] theorem State.wr_groomDef (f : Fld) (v i j : Nat) : (s.wr f v i j).groomDef = s.groomDef := (rfl)
@[simp] theorem State.wr_ndf (f : Fld) (v i j : Nat) : (s.wr f v i j).ndf = s.ndf := (rfl)
@[simp] theorem State.wr_bridgeSat (f : Fld) (v i j : Nat) : (s.wr f v i j).bridgeSat = s.bridgeSat := (rfl)
@[simp] theorem State.wr_benches (f : Fld) (v i j : Nat) : (s.wr f v i j).benches = s.benches := (rfl)
@[simp] theorem State.wr_eqs (f : Fld) (v i j : Nat) : (s.wr f v i j).eqs = s.eqs := (rfl)
@[simp] theorem State.wr_ctxs (f : Fld) (v i j : Nat) : (s.wr f v i j).ctxs = s.ctxs := (rfl)
@[simp] theorem State.wr_tpls (f : Fld) (v i j : Nat) : (s.wr f v i j).tpls = s.tpls := (rfl)
@[simp] theorem State.wr_eths (f : Fld) (v i j : Nat) : (s.wr f v i j).eths = s.eths := (rfl)
@[simp] theorem State.wr_nt (f : Fld) (v i j : Nat) : (s.wr f v i j).nt = s.nt := (rfl)
@[simp] theorem State.wr_tm (f : Fld) (v i j : Nat) : (s.wr f v i j).tm = s.tm := (rfl)
@[simp] theorem State.wr_ports (f : Fld) (v i j : Nat) : (s.wr f v i j).ports = s.ports := (rfl)
@[simp] theorem State.wr_timers (f : Fld) (v i j : Nat) : (s.wr f v i j).timers = s.timers := (rfl)
@[simp] theorem State.wr_domUp (f : Fld) (v i j : Nat) (dm : Nat) : (s.wr f v i j).domUp dm = s.domUp dm := (rfl)
@[simp] theorem State.wr_pageUp (f : Fld) (v i j : Nat) (pg : Page) (k : Nat) : (s.wr f v i j).pageUp pg k = s.pageUp pg k := (rfl)
@[simp] theorem State.wr_served (f : Fld) (v i j : Nat) (pg : Page) (k : Nat) : (s.wr f v i j).served pg k = s.served pg k := (rfl)

/-! `emit` changes `out` alone. -/
@[simp] theorem State.emit_pending (o : Out) : (s.emit o).pending = s.pending := (rfl)
@[simp] theorem State.emit_regs (o : Out) : (s.emit o).regs = s.regs := (rfl)
@[simp] theorem State.emit_capHi (o : Out) : (s.emit o).capHi = s.capHi := (rfl)
@[simp] theorem State.emit_heldLo (o : Out) : (s.emit o).heldLo = s.heldLo := (rfl)
@[simp] theorem State.emit_clk (o : Out) : (s.emit o).clk = s.clk := (rfl)
@[simp] theorem State.emit_fresh (o : Out) : (s.emit o).fresh = s.fresh := (rfl)
@[simp] theorem State.emit_pow (o : Out) : (s.emit o).pow = s.pow := (rfl)
@[simp] theorem State.emit_mx (o : Out) : (s.emit o).mx = s.mx := (rfl)
@[simp] theorem State.emit_pcie (o : Out) : (s.emit o).pcie = s.pcie := (rfl)
@[simp] theorem State.emit_chain (o : Out) : (s.emit o).chain = s.chain := (rfl)
@[simp] theorem State.emit_ev (o : Out) : (s.emit o).ev = s.ev := (rfl)
@[simp] theorem State.emit_sp (o : Out) : (s.emit o).sp = s.sp := (rfl)
@[simp] theorem State.emit_spBad (o : Out) : (s.emit o).spBad = s.spBad := (rfl)
@[simp] theorem State.emit_lanes (o : Out) : (s.emit o).lanes = s.lanes := (rfl)
@[simp] theorem State.emit_drawers (o : Out) : (s.emit o).drawers = s.drawers := (rfl)
@[simp] theorem State.emit_outCols (o : Out) : (s.emit o).outCols = s.outCols := (rfl)
@[simp] theorem State.emit_dx (o : Out) : (s.emit o).dx = s.dx := (rfl)
@[simp] theorem State.emit_dram (o : Out) : (s.emit o).dram = s.dram := (rfl)
@[simp] theorem State.emit_dramRsv (o : Out) : (s.emit o).dramRsv = s.dramRsv := (rfl)
@[simp] theorem State.emit_mc (o : Out) : (s.emit o).mc = s.mc := (rfl)
@[simp] theorem State.emit_sec (o : Out) : (s.emit o).sec = s.sec := (rfl)
@[simp] theorem State.emit_mate (o : Out) : (s.emit o).mate = s.mate := (rfl)
@[simp] theorem State.emit_sels (o : Out) : (s.emit o).sels = s.sels := (rfl)
@[simp] theorem State.emit_groups (o : Out) : (s.emit o).groups = s.groups := (rfl)
@[simp] theorem State.emit_grooms (o : Out) : (s.emit o).grooms = s.grooms := (rfl)
@[simp] theorem State.emit_groomDef (o : Out) : (s.emit o).groomDef = s.groomDef := (rfl)
@[simp] theorem State.emit_ndf (o : Out) : (s.emit o).ndf = s.ndf := (rfl)
@[simp] theorem State.emit_bridgeSat (o : Out) : (s.emit o).bridgeSat = s.bridgeSat := (rfl)
@[simp] theorem State.emit_benches (o : Out) : (s.emit o).benches = s.benches := (rfl)
@[simp] theorem State.emit_eqs (o : Out) : (s.emit o).eqs = s.eqs := (rfl)
@[simp] theorem State.emit_ctxs (o : Out) : (s.emit o).ctxs = s.ctxs := (rfl)
@[simp] theorem State.emit_tpls (o : Out) : (s.emit o).tpls = s.tpls := (rfl)
@[simp] theorem State.emit_eths (o : Out) : (s.emit o).eths = s.eths := (rfl)
@[simp] theorem State.emit_nt (o : Out) : (s.emit o).nt = s.nt := (rfl)
@[simp] theorem State.emit_tm (o : Out) : (s.emit o).tm = s.tm := (rfl)
@[simp] theorem State.emit_ports (o : Out) : (s.emit o).ports = s.ports := (rfl)
@[simp] theorem State.emit_timers (o : Out) : (s.emit o).timers = s.timers := (rfl)
@[simp] theorem State.emit_rd (o : Out) (fd : Fld) (x y : Nat) : (s.emit o).rd fd x y = s.rd fd x y := (rfl)
@[simp] theorem State.emit_on (o : Out) (fd : Fld) (x y : Nat) : (s.emit o).on fd x y = s.on fd x y := (rfl)
@[simp] theorem State.emit_domUp (o : Out) (dm : Nat) : (s.emit o).domUp dm = s.domUp dm := (rfl)
@[simp] theorem State.emit_pageUp (o : Out) (pg : Page) (k : Nat) : (s.emit o).pageUp pg k = s.pageUp pg k := (rfl)
@[simp] theorem State.emit_served (o : Out) (pg : Page) (k : Nat) : (s.emit o).served pg k = s.served pg k := (rfl)

/-! `mark` changes `timers` alone. -/
@[simp] theorem State.mark_pending (t : Timer) : (s.mark t).pending = s.pending := (rfl)
@[simp] theorem State.mark_regs (t : Timer) : (s.mark t).regs = s.regs := (rfl)
@[simp] theorem State.mark_capHi (t : Timer) : (s.mark t).capHi = s.capHi := (rfl)
@[simp] theorem State.mark_heldLo (t : Timer) : (s.mark t).heldLo = s.heldLo := (rfl)
@[simp] theorem State.mark_clk (t : Timer) : (s.mark t).clk = s.clk := (rfl)
@[simp] theorem State.mark_fresh (t : Timer) : (s.mark t).fresh = s.fresh := (rfl)
@[simp] theorem State.mark_pow (t : Timer) : (s.mark t).pow = s.pow := (rfl)
@[simp] theorem State.mark_mx (t : Timer) : (s.mark t).mx = s.mx := (rfl)
@[simp] theorem State.mark_pcie (t : Timer) : (s.mark t).pcie = s.pcie := (rfl)
@[simp] theorem State.mark_chain (t : Timer) : (s.mark t).chain = s.chain := (rfl)
@[simp] theorem State.mark_ev (t : Timer) : (s.mark t).ev = s.ev := (rfl)
@[simp] theorem State.mark_sp (t : Timer) : (s.mark t).sp = s.sp := (rfl)
@[simp] theorem State.mark_spBad (t : Timer) : (s.mark t).spBad = s.spBad := (rfl)
@[simp] theorem State.mark_lanes (t : Timer) : (s.mark t).lanes = s.lanes := (rfl)
@[simp] theorem State.mark_drawers (t : Timer) : (s.mark t).drawers = s.drawers := (rfl)
@[simp] theorem State.mark_outCols (t : Timer) : (s.mark t).outCols = s.outCols := (rfl)
@[simp] theorem State.mark_dx (t : Timer) : (s.mark t).dx = s.dx := (rfl)
@[simp] theorem State.mark_dram (t : Timer) : (s.mark t).dram = s.dram := (rfl)
@[simp] theorem State.mark_dramRsv (t : Timer) : (s.mark t).dramRsv = s.dramRsv := (rfl)
@[simp] theorem State.mark_mc (t : Timer) : (s.mark t).mc = s.mc := (rfl)
@[simp] theorem State.mark_sec (t : Timer) : (s.mark t).sec = s.sec := (rfl)
@[simp] theorem State.mark_mate (t : Timer) : (s.mark t).mate = s.mate := (rfl)
@[simp] theorem State.mark_sels (t : Timer) : (s.mark t).sels = s.sels := (rfl)
@[simp] theorem State.mark_groups (t : Timer) : (s.mark t).groups = s.groups := (rfl)
@[simp] theorem State.mark_grooms (t : Timer) : (s.mark t).grooms = s.grooms := (rfl)
@[simp] theorem State.mark_groomDef (t : Timer) : (s.mark t).groomDef = s.groomDef := (rfl)
@[simp] theorem State.mark_ndf (t : Timer) : (s.mark t).ndf = s.ndf := (rfl)
@[simp] theorem State.mark_bridgeSat (t : Timer) : (s.mark t).bridgeSat = s.bridgeSat := (rfl)
@[simp] theorem State.mark_benches (t : Timer) : (s.mark t).benches = s.benches := (rfl)
@[simp] theorem State.mark_eqs (t : Timer) : (s.mark t).eqs = s.eqs := (rfl)
@[simp] theorem State.mark_ctxs (t : Timer) : (s.mark t).ctxs = s.ctxs := (rfl)
@[simp] theorem State.mark_tpls (t : Timer) : (s.mark t).tpls = s.tpls := (rfl)
@[simp] theorem State.mark_eths (t : Timer) : (s.mark t).eths = s.eths := (rfl)
@[simp] theorem State.mark_nt (t : Timer) : (s.mark t).nt = s.nt := (rfl)
@[simp] theorem State.mark_tm (t : Timer) : (s.mark t).tm = s.tm := (rfl)
@[simp] theorem State.mark_ports (t : Timer) : (s.mark t).ports = s.ports := (rfl)
@[simp] theorem State.mark_rd (t : Timer) (fd : Fld) (x y : Nat) : (s.mark t).rd fd x y = s.rd fd x y := (rfl)
@[simp] theorem State.mark_on (t : Timer) (fd : Fld) (x y : Nat) : (s.mark t).on fd x y = s.on fd x y := (rfl)
@[simp] theorem State.mark_domUp (t : Timer) (dm : Nat) : (s.mark t).domUp dm = s.domUp dm := (rfl)
@[simp] theorem State.mark_pageUp (t : Timer) (pg : Page) (k : Nat) : (s.mark t).pageUp pg k = s.pageUp pg k := (rfl)
@[simp] theorem State.mark_served (t : Timer) (pg : Page) (k : Nat) : (s.mark t).served pg k = s.served pg k := (rfl)
@[simp] theorem State.mark_out (t : Timer) : (s.mark t).out = s.out := (rfl)

/-! `start` changes `out` alone. -/
@[simp] theorem State.start_pending : s.start.pending = s.pending := (rfl)
@[simp] theorem State.start_regs : s.start.regs = s.regs := (rfl)
@[simp] theorem State.start_capHi : s.start.capHi = s.capHi := (rfl)
@[simp] theorem State.start_heldLo : s.start.heldLo = s.heldLo := (rfl)
@[simp] theorem State.start_clk : s.start.clk = s.clk := (rfl)
@[simp] theorem State.start_fresh : s.start.fresh = s.fresh := (rfl)
@[simp] theorem State.start_pow : s.start.pow = s.pow := (rfl)
@[simp] theorem State.start_mx : s.start.mx = s.mx := (rfl)
@[simp] theorem State.start_pcie : s.start.pcie = s.pcie := (rfl)
@[simp] theorem State.start_chain : s.start.chain = s.chain := (rfl)
@[simp] theorem State.start_ev : s.start.ev = s.ev := (rfl)
@[simp] theorem State.start_sp : s.start.sp = s.sp := (rfl)
@[simp] theorem State.start_spBad : s.start.spBad = s.spBad := (rfl)
@[simp] theorem State.start_lanes : s.start.lanes = s.lanes := (rfl)
@[simp] theorem State.start_drawers : s.start.drawers = s.drawers := (rfl)
@[simp] theorem State.start_outCols : s.start.outCols = s.outCols := (rfl)
@[simp] theorem State.start_dx : s.start.dx = s.dx := (rfl)
@[simp] theorem State.start_dram : s.start.dram = s.dram := (rfl)
@[simp] theorem State.start_dramRsv : s.start.dramRsv = s.dramRsv := (rfl)
@[simp] theorem State.start_mc : s.start.mc = s.mc := (rfl)
@[simp] theorem State.start_sec : s.start.sec = s.sec := (rfl)
@[simp] theorem State.start_mate : s.start.mate = s.mate := (rfl)
@[simp] theorem State.start_sels : s.start.sels = s.sels := (rfl)
@[simp] theorem State.start_groups : s.start.groups = s.groups := (rfl)
@[simp] theorem State.start_grooms : s.start.grooms = s.grooms := (rfl)
@[simp] theorem State.start_groomDef : s.start.groomDef = s.groomDef := (rfl)
@[simp] theorem State.start_ndf : s.start.ndf = s.ndf := (rfl)
@[simp] theorem State.start_bridgeSat : s.start.bridgeSat = s.bridgeSat := (rfl)
@[simp] theorem State.start_benches : s.start.benches = s.benches := (rfl)
@[simp] theorem State.start_eqs : s.start.eqs = s.eqs := (rfl)
@[simp] theorem State.start_ctxs : s.start.ctxs = s.ctxs := (rfl)
@[simp] theorem State.start_tpls : s.start.tpls = s.tpls := (rfl)
@[simp] theorem State.start_eths : s.start.eths = s.eths := (rfl)
@[simp] theorem State.start_nt : s.start.nt = s.nt := (rfl)
@[simp] theorem State.start_tm : s.start.tm = s.tm := (rfl)
@[simp] theorem State.start_ports : s.start.ports = s.ports := (rfl)
@[simp] theorem State.start_timers : s.start.timers = s.timers := (rfl)
@[simp] theorem State.start_rd (fd : Fld) (x y : Nat) : s.start.rd fd x y = s.rd fd x y := (rfl)
@[simp] theorem State.start_on (fd : Fld) (x y : Nat) : s.start.on fd x y = s.on fd x y := (rfl)
@[simp] theorem State.start_domUp (dm : Nat) : s.start.domUp dm = s.domUp dm := (rfl)
@[simp] theorem State.start_pageUp (pg : Page) (k : Nat) : s.start.pageUp pg k = s.pageUp pg k := (rfl)
@[simp] theorem State.start_served (pg : Page) (k : Nat) : s.start.served pg k = s.served pg k := (rfl)

/-! `takeFresh` changes `fresh` alone. -/
@[simp] theorem State.takeFresh_pending : s.takeFresh.pending = s.pending := (rfl)
@[simp] theorem State.takeFresh_out : s.takeFresh.out = s.out := (rfl)
@[simp] theorem State.takeFresh_regs : s.takeFresh.regs = s.regs := (rfl)
@[simp] theorem State.takeFresh_capHi : s.takeFresh.capHi = s.capHi := (rfl)
@[simp] theorem State.takeFresh_heldLo : s.takeFresh.heldLo = s.heldLo := (rfl)
@[simp] theorem State.takeFresh_clk : s.takeFresh.clk = s.clk := (rfl)
@[simp] theorem State.takeFresh_pow : s.takeFresh.pow = s.pow := (rfl)
@[simp] theorem State.takeFresh_mx : s.takeFresh.mx = s.mx := (rfl)
@[simp] theorem State.takeFresh_pcie : s.takeFresh.pcie = s.pcie := (rfl)
@[simp] theorem State.takeFresh_chain : s.takeFresh.chain = s.chain := (rfl)
@[simp] theorem State.takeFresh_ev : s.takeFresh.ev = s.ev := (rfl)
@[simp] theorem State.takeFresh_sp : s.takeFresh.sp = s.sp := (rfl)
@[simp] theorem State.takeFresh_spBad : s.takeFresh.spBad = s.spBad := (rfl)
@[simp] theorem State.takeFresh_lanes : s.takeFresh.lanes = s.lanes := (rfl)
@[simp] theorem State.takeFresh_drawers : s.takeFresh.drawers = s.drawers := (rfl)
@[simp] theorem State.takeFresh_outCols : s.takeFresh.outCols = s.outCols := (rfl)
@[simp] theorem State.takeFresh_dx : s.takeFresh.dx = s.dx := (rfl)
@[simp] theorem State.takeFresh_dram : s.takeFresh.dram = s.dram := (rfl)
@[simp] theorem State.takeFresh_dramRsv : s.takeFresh.dramRsv = s.dramRsv := (rfl)
@[simp] theorem State.takeFresh_mc : s.takeFresh.mc = s.mc := (rfl)
@[simp] theorem State.takeFresh_sec : s.takeFresh.sec = s.sec := (rfl)
@[simp] theorem State.takeFresh_mate : s.takeFresh.mate = s.mate := (rfl)
@[simp] theorem State.takeFresh_sels : s.takeFresh.sels = s.sels := (rfl)
@[simp] theorem State.takeFresh_groups : s.takeFresh.groups = s.groups := (rfl)
@[simp] theorem State.takeFresh_grooms : s.takeFresh.grooms = s.grooms := (rfl)
@[simp] theorem State.takeFresh_groomDef : s.takeFresh.groomDef = s.groomDef := (rfl)
@[simp] theorem State.takeFresh_ndf : s.takeFresh.ndf = s.ndf := (rfl)
@[simp] theorem State.takeFresh_bridgeSat : s.takeFresh.bridgeSat = s.bridgeSat := (rfl)
@[simp] theorem State.takeFresh_benches : s.takeFresh.benches = s.benches := (rfl)
@[simp] theorem State.takeFresh_eqs : s.takeFresh.eqs = s.eqs := (rfl)
@[simp] theorem State.takeFresh_ctxs : s.takeFresh.ctxs = s.ctxs := (rfl)
@[simp] theorem State.takeFresh_tpls : s.takeFresh.tpls = s.tpls := (rfl)
@[simp] theorem State.takeFresh_eths : s.takeFresh.eths = s.eths := (rfl)
@[simp] theorem State.takeFresh_nt : s.takeFresh.nt = s.nt := (rfl)
@[simp] theorem State.takeFresh_tm : s.takeFresh.tm = s.tm := (rfl)
@[simp] theorem State.takeFresh_ports : s.takeFresh.ports = s.ports := (rfl)
@[simp] theorem State.takeFresh_timers : s.takeFresh.timers = s.timers := (rfl)
@[simp] theorem State.takeFresh_rd (fd : Fld) (x y : Nat) : s.takeFresh.rd fd x y = s.rd fd x y := (rfl)
@[simp] theorem State.takeFresh_on (fd : Fld) (x y : Nat) : s.takeFresh.on fd x y = s.on fd x y := (rfl)
@[simp] theorem State.takeFresh_domUp (dm : Nat) : s.takeFresh.domUp dm = s.domUp dm := (rfl)
@[simp] theorem State.takeFresh_pageUp (pg : Page) (k : Nat) : s.takeFresh.pageUp pg k = s.pageUp pg k := (rfl)
@[simp] theorem State.takeFresh_served (pg : Page) (k : Nat) : s.takeFresh.served pg k = s.served pg k := (rfl)

/-! `updMate` changes `mate` alone. -/
@[simp] theorem State.updMate_pending (f : Mate → Mate) : (s.updMate f).pending = s.pending := (rfl)
@[simp] theorem State.updMate_out (f : Mate → Mate) : (s.updMate f).out = s.out := (rfl)
@[simp] theorem State.updMate_regs (f : Mate → Mate) : (s.updMate f).regs = s.regs := (rfl)
@[simp] theorem State.updMate_capHi (f : Mate → Mate) : (s.updMate f).capHi = s.capHi := (rfl)
@[simp] theorem State.updMate_heldLo (f : Mate → Mate) : (s.updMate f).heldLo = s.heldLo := (rfl)
@[simp] theorem State.updMate_clk (f : Mate → Mate) : (s.updMate f).clk = s.clk := (rfl)
@[simp] theorem State.updMate_fresh (f : Mate → Mate) : (s.updMate f).fresh = s.fresh := (rfl)
@[simp] theorem State.updMate_pow (f : Mate → Mate) : (s.updMate f).pow = s.pow := (rfl)
@[simp] theorem State.updMate_mx (f : Mate → Mate) : (s.updMate f).mx = s.mx := (rfl)
@[simp] theorem State.updMate_pcie (f : Mate → Mate) : (s.updMate f).pcie = s.pcie := (rfl)
@[simp] theorem State.updMate_chain (f : Mate → Mate) : (s.updMate f).chain = s.chain := (rfl)
@[simp] theorem State.updMate_ev (f : Mate → Mate) : (s.updMate f).ev = s.ev := (rfl)
@[simp] theorem State.updMate_sp (f : Mate → Mate) : (s.updMate f).sp = s.sp := (rfl)
@[simp] theorem State.updMate_spBad (f : Mate → Mate) : (s.updMate f).spBad = s.spBad := (rfl)
@[simp] theorem State.updMate_lanes (f : Mate → Mate) : (s.updMate f).lanes = s.lanes := (rfl)
@[simp] theorem State.updMate_drawers (f : Mate → Mate) : (s.updMate f).drawers = s.drawers := (rfl)
@[simp] theorem State.updMate_outCols (f : Mate → Mate) : (s.updMate f).outCols = s.outCols := (rfl)
@[simp] theorem State.updMate_dx (f : Mate → Mate) : (s.updMate f).dx = s.dx := (rfl)
@[simp] theorem State.updMate_dram (f : Mate → Mate) : (s.updMate f).dram = s.dram := (rfl)
@[simp] theorem State.updMate_dramRsv (f : Mate → Mate) : (s.updMate f).dramRsv = s.dramRsv := (rfl)
@[simp] theorem State.updMate_mc (f : Mate → Mate) : (s.updMate f).mc = s.mc := (rfl)
@[simp] theorem State.updMate_sec (f : Mate → Mate) : (s.updMate f).sec = s.sec := (rfl)
@[simp] theorem State.updMate_sels (f : Mate → Mate) : (s.updMate f).sels = s.sels := (rfl)
@[simp] theorem State.updMate_groups (f : Mate → Mate) : (s.updMate f).groups = s.groups := (rfl)
@[simp] theorem State.updMate_grooms (f : Mate → Mate) : (s.updMate f).grooms = s.grooms := (rfl)
@[simp] theorem State.updMate_groomDef (f : Mate → Mate) : (s.updMate f).groomDef = s.groomDef := (rfl)
@[simp] theorem State.updMate_ndf (f : Mate → Mate) : (s.updMate f).ndf = s.ndf := (rfl)
@[simp] theorem State.updMate_bridgeSat (f : Mate → Mate) : (s.updMate f).bridgeSat = s.bridgeSat := (rfl)
@[simp] theorem State.updMate_benches (f : Mate → Mate) : (s.updMate f).benches = s.benches := (rfl)
@[simp] theorem State.updMate_eqs (f : Mate → Mate) : (s.updMate f).eqs = s.eqs := (rfl)
@[simp] theorem State.updMate_ctxs (f : Mate → Mate) : (s.updMate f).ctxs = s.ctxs := (rfl)
@[simp] theorem State.updMate_tpls (f : Mate → Mate) : (s.updMate f).tpls = s.tpls := (rfl)
@[simp] theorem State.updMate_eths (f : Mate → Mate) : (s.updMate f).eths = s.eths := (rfl)
@[simp] theorem State.updMate_nt (f : Mate → Mate) : (s.updMate f).nt = s.nt := (rfl)
@[simp] theorem State.updMate_tm (f : Mate → Mate) : (s.updMate f).tm = s.tm := (rfl)
@[simp] theorem State.updMate_ports (f : Mate → Mate) : (s.updMate f).ports = s.ports := (rfl)
@[simp] theorem State.updMate_timers (f : Mate → Mate) : (s.updMate f).timers = s.timers := (rfl)
@[simp] theorem State.updMate_rd (f : Mate → Mate) (fd : Fld) (x y : Nat) : (s.updMate f).rd fd x y = s.rd fd x y := (rfl)
@[simp] theorem State.updMate_on (f : Mate → Mate) (fd : Fld) (x y : Nat) : (s.updMate f).on fd x y = s.on fd x y := (rfl)
@[simp] theorem State.updMate_domUp (f : Mate → Mate) (dm : Nat) : (s.updMate f).domUp dm = s.domUp dm := (rfl)
@[simp] theorem State.updMate_pageUp (f : Mate → Mate) (pg : Page) (k : Nat) : (s.updMate f).pageUp pg k = s.pageUp pg k := (rfl)
@[simp] theorem State.updMate_served (f : Mate → Mate) (pg : Page) (k : Nat) : (s.updMate f).served pg k = s.served pg k := (rfl)

/-! `setLane` changes `lanes` alone. -/
@[simp] theorem State.setLane_pending (n : Nat) (l : Lane) : (s.setLane n l).pending = s.pending := (rfl)
@[simp] theorem State.setLane_out (n : Nat) (l : Lane) : (s.setLane n l).out = s.out := (rfl)
@[simp] theorem State.setLane_regs (n : Nat) (l : Lane) : (s.setLane n l).regs = s.regs := (rfl)
@[simp] theorem State.setLane_capHi (n : Nat) (l : Lane) : (s.setLane n l).capHi = s.capHi := (rfl)
@[simp] theorem State.setLane_heldLo (n : Nat) (l : Lane) : (s.setLane n l).heldLo = s.heldLo := (rfl)
@[simp] theorem State.setLane_clk (n : Nat) (l : Lane) : (s.setLane n l).clk = s.clk := (rfl)
@[simp] theorem State.setLane_fresh (n : Nat) (l : Lane) : (s.setLane n l).fresh = s.fresh := (rfl)
@[simp] theorem State.setLane_pow (n : Nat) (l : Lane) : (s.setLane n l).pow = s.pow := (rfl)
@[simp] theorem State.setLane_mx (n : Nat) (l : Lane) : (s.setLane n l).mx = s.mx := (rfl)
@[simp] theorem State.setLane_pcie (n : Nat) (l : Lane) : (s.setLane n l).pcie = s.pcie := (rfl)
@[simp] theorem State.setLane_chain (n : Nat) (l : Lane) : (s.setLane n l).chain = s.chain := (rfl)
@[simp] theorem State.setLane_ev (n : Nat) (l : Lane) : (s.setLane n l).ev = s.ev := (rfl)
@[simp] theorem State.setLane_sp (n : Nat) (l : Lane) : (s.setLane n l).sp = s.sp := (rfl)
@[simp] theorem State.setLane_spBad (n : Nat) (l : Lane) : (s.setLane n l).spBad = s.spBad := (rfl)
@[simp] theorem State.setLane_drawers (n : Nat) (l : Lane) : (s.setLane n l).drawers = s.drawers := (rfl)
@[simp] theorem State.setLane_outCols (n : Nat) (l : Lane) : (s.setLane n l).outCols = s.outCols := (rfl)
@[simp] theorem State.setLane_dx (n : Nat) (l : Lane) : (s.setLane n l).dx = s.dx := (rfl)
@[simp] theorem State.setLane_dram (n : Nat) (l : Lane) : (s.setLane n l).dram = s.dram := (rfl)
@[simp] theorem State.setLane_dramRsv (n : Nat) (l : Lane) : (s.setLane n l).dramRsv = s.dramRsv := (rfl)
@[simp] theorem State.setLane_mc (n : Nat) (l : Lane) : (s.setLane n l).mc = s.mc := (rfl)
@[simp] theorem State.setLane_sec (n : Nat) (l : Lane) : (s.setLane n l).sec = s.sec := (rfl)
@[simp] theorem State.setLane_mate (n : Nat) (l : Lane) : (s.setLane n l).mate = s.mate := (rfl)
@[simp] theorem State.setLane_sels (n : Nat) (l : Lane) : (s.setLane n l).sels = s.sels := (rfl)
@[simp] theorem State.setLane_groups (n : Nat) (l : Lane) : (s.setLane n l).groups = s.groups := (rfl)
@[simp] theorem State.setLane_grooms (n : Nat) (l : Lane) : (s.setLane n l).grooms = s.grooms := (rfl)
@[simp] theorem State.setLane_groomDef (n : Nat) (l : Lane) : (s.setLane n l).groomDef = s.groomDef := (rfl)
@[simp] theorem State.setLane_ndf (n : Nat) (l : Lane) : (s.setLane n l).ndf = s.ndf := (rfl)
@[simp] theorem State.setLane_bridgeSat (n : Nat) (l : Lane) : (s.setLane n l).bridgeSat = s.bridgeSat := (rfl)
@[simp] theorem State.setLane_benches (n : Nat) (l : Lane) : (s.setLane n l).benches = s.benches := (rfl)
@[simp] theorem State.setLane_eqs (n : Nat) (l : Lane) : (s.setLane n l).eqs = s.eqs := (rfl)
@[simp] theorem State.setLane_ctxs (n : Nat) (l : Lane) : (s.setLane n l).ctxs = s.ctxs := (rfl)
@[simp] theorem State.setLane_tpls (n : Nat) (l : Lane) : (s.setLane n l).tpls = s.tpls := (rfl)
@[simp] theorem State.setLane_eths (n : Nat) (l : Lane) : (s.setLane n l).eths = s.eths := (rfl)
@[simp] theorem State.setLane_nt (n : Nat) (l : Lane) : (s.setLane n l).nt = s.nt := (rfl)
@[simp] theorem State.setLane_tm (n : Nat) (l : Lane) : (s.setLane n l).tm = s.tm := (rfl)
@[simp] theorem State.setLane_ports (n : Nat) (l : Lane) : (s.setLane n l).ports = s.ports := (rfl)
@[simp] theorem State.setLane_timers (n : Nat) (l : Lane) : (s.setLane n l).timers = s.timers := (rfl)
@[simp] theorem State.setLane_rd (n : Nat) (l : Lane) (fd : Fld) (x y : Nat) : (s.setLane n l).rd fd x y = s.rd fd x y := (rfl)
@[simp] theorem State.setLane_on (n : Nat) (l : Lane) (fd : Fld) (x y : Nat) : (s.setLane n l).on fd x y = s.on fd x y := (rfl)
@[simp] theorem State.setLane_domUp (n : Nat) (l : Lane) (dm : Nat) : (s.setLane n l).domUp dm = s.domUp dm := (rfl)
@[simp] theorem State.setLane_pageUp (n : Nat) (l : Lane) (pg : Page) (k : Nat) : (s.setLane n l).pageUp pg k = s.pageUp pg k := (rfl)
@[simp] theorem State.setLane_served (n : Nat) (l : Lane) (pg : Page) (k : Nat) : (s.setLane n l).served pg k = s.served pg k := (rfl)

/-! `setDrw` changes `drawers` alone. -/
@[simp] theorem State.setDrw_pending (n c : Nat) (d : Drawer) : (s.setDrw n c d).pending = s.pending := (rfl)
@[simp] theorem State.setDrw_out (n c : Nat) (d : Drawer) : (s.setDrw n c d).out = s.out := (rfl)
@[simp] theorem State.setDrw_regs (n c : Nat) (d : Drawer) : (s.setDrw n c d).regs = s.regs := (rfl)
@[simp] theorem State.setDrw_capHi (n c : Nat) (d : Drawer) : (s.setDrw n c d).capHi = s.capHi := (rfl)
@[simp] theorem State.setDrw_heldLo (n c : Nat) (d : Drawer) : (s.setDrw n c d).heldLo = s.heldLo := (rfl)
@[simp] theorem State.setDrw_clk (n c : Nat) (d : Drawer) : (s.setDrw n c d).clk = s.clk := (rfl)
@[simp] theorem State.setDrw_fresh (n c : Nat) (d : Drawer) : (s.setDrw n c d).fresh = s.fresh := (rfl)
@[simp] theorem State.setDrw_pow (n c : Nat) (d : Drawer) : (s.setDrw n c d).pow = s.pow := (rfl)
@[simp] theorem State.setDrw_mx (n c : Nat) (d : Drawer) : (s.setDrw n c d).mx = s.mx := (rfl)
@[simp] theorem State.setDrw_pcie (n c : Nat) (d : Drawer) : (s.setDrw n c d).pcie = s.pcie := (rfl)
@[simp] theorem State.setDrw_chain (n c : Nat) (d : Drawer) : (s.setDrw n c d).chain = s.chain := (rfl)
@[simp] theorem State.setDrw_ev (n c : Nat) (d : Drawer) : (s.setDrw n c d).ev = s.ev := (rfl)
@[simp] theorem State.setDrw_sp (n c : Nat) (d : Drawer) : (s.setDrw n c d).sp = s.sp := (rfl)
@[simp] theorem State.setDrw_spBad (n c : Nat) (d : Drawer) : (s.setDrw n c d).spBad = s.spBad := (rfl)
@[simp] theorem State.setDrw_lanes (n c : Nat) (d : Drawer) : (s.setDrw n c d).lanes = s.lanes := (rfl)
@[simp] theorem State.setDrw_outCols (n c : Nat) (d : Drawer) : (s.setDrw n c d).outCols = s.outCols := (rfl)
@[simp] theorem State.setDrw_dx (n c : Nat) (d : Drawer) : (s.setDrw n c d).dx = s.dx := (rfl)
@[simp] theorem State.setDrw_dram (n c : Nat) (d : Drawer) : (s.setDrw n c d).dram = s.dram := (rfl)
@[simp] theorem State.setDrw_dramRsv (n c : Nat) (d : Drawer) : (s.setDrw n c d).dramRsv = s.dramRsv := (rfl)
@[simp] theorem State.setDrw_mc (n c : Nat) (d : Drawer) : (s.setDrw n c d).mc = s.mc := (rfl)
@[simp] theorem State.setDrw_sec (n c : Nat) (d : Drawer) : (s.setDrw n c d).sec = s.sec := (rfl)
@[simp] theorem State.setDrw_mate (n c : Nat) (d : Drawer) : (s.setDrw n c d).mate = s.mate := (rfl)
@[simp] theorem State.setDrw_sels (n c : Nat) (d : Drawer) : (s.setDrw n c d).sels = s.sels := (rfl)
@[simp] theorem State.setDrw_groups (n c : Nat) (d : Drawer) : (s.setDrw n c d).groups = s.groups := (rfl)
@[simp] theorem State.setDrw_grooms (n c : Nat) (d : Drawer) : (s.setDrw n c d).grooms = s.grooms := (rfl)
@[simp] theorem State.setDrw_groomDef (n c : Nat) (d : Drawer) : (s.setDrw n c d).groomDef = s.groomDef := (rfl)
@[simp] theorem State.setDrw_ndf (n c : Nat) (d : Drawer) : (s.setDrw n c d).ndf = s.ndf := (rfl)
@[simp] theorem State.setDrw_bridgeSat (n c : Nat) (d : Drawer) : (s.setDrw n c d).bridgeSat = s.bridgeSat := (rfl)
@[simp] theorem State.setDrw_benches (n c : Nat) (d : Drawer) : (s.setDrw n c d).benches = s.benches := (rfl)
@[simp] theorem State.setDrw_eqs (n c : Nat) (d : Drawer) : (s.setDrw n c d).eqs = s.eqs := (rfl)
@[simp] theorem State.setDrw_ctxs (n c : Nat) (d : Drawer) : (s.setDrw n c d).ctxs = s.ctxs := (rfl)
@[simp] theorem State.setDrw_tpls (n c : Nat) (d : Drawer) : (s.setDrw n c d).tpls = s.tpls := (rfl)
@[simp] theorem State.setDrw_eths (n c : Nat) (d : Drawer) : (s.setDrw n c d).eths = s.eths := (rfl)
@[simp] theorem State.setDrw_nt (n c : Nat) (d : Drawer) : (s.setDrw n c d).nt = s.nt := (rfl)
@[simp] theorem State.setDrw_tm (n c : Nat) (d : Drawer) : (s.setDrw n c d).tm = s.tm := (rfl)
@[simp] theorem State.setDrw_ports (n c : Nat) (d : Drawer) : (s.setDrw n c d).ports = s.ports := (rfl)
@[simp] theorem State.setDrw_timers (n c : Nat) (d : Drawer) : (s.setDrw n c d).timers = s.timers := (rfl)
@[simp] theorem State.setDrw_rd (n c : Nat) (d : Drawer) (fd : Fld) (x y : Nat) : (s.setDrw n c d).rd fd x y = s.rd fd x y := (rfl)
@[simp] theorem State.setDrw_on (n c : Nat) (d : Drawer) (fd : Fld) (x y : Nat) : (s.setDrw n c d).on fd x y = s.on fd x y := (rfl)
@[simp] theorem State.setDrw_domUp (n c : Nat) (d : Drawer) (dm : Nat) : (s.setDrw n c d).domUp dm = s.domUp dm := (rfl)
@[simp] theorem State.setDrw_pageUp (n c : Nat) (d : Drawer) (pg : Page) (k : Nat) : (s.setDrw n c d).pageUp pg k = s.pageUp pg k := (rfl)
@[simp] theorem State.setDrw_served (n c : Nat) (d : Drawer) (pg : Page) (k : Nat) : (s.setDrw n c d).served pg k = s.served pg k := (rfl)

/-! `setBench` changes `benches` alone. -/
@[simp] theorem State.setBench_pending (b : Nat) (d : Bench) : (s.setBench b d).pending = s.pending := (rfl)
@[simp] theorem State.setBench_out (b : Nat) (d : Bench) : (s.setBench b d).out = s.out := (rfl)
@[simp] theorem State.setBench_regs (b : Nat) (d : Bench) : (s.setBench b d).regs = s.regs := (rfl)
@[simp] theorem State.setBench_capHi (b : Nat) (d : Bench) : (s.setBench b d).capHi = s.capHi := (rfl)
@[simp] theorem State.setBench_heldLo (b : Nat) (d : Bench) : (s.setBench b d).heldLo = s.heldLo := (rfl)
@[simp] theorem State.setBench_clk (b : Nat) (d : Bench) : (s.setBench b d).clk = s.clk := (rfl)
@[simp] theorem State.setBench_fresh (b : Nat) (d : Bench) : (s.setBench b d).fresh = s.fresh := (rfl)
@[simp] theorem State.setBench_pow (b : Nat) (d : Bench) : (s.setBench b d).pow = s.pow := (rfl)
@[simp] theorem State.setBench_mx (b : Nat) (d : Bench) : (s.setBench b d).mx = s.mx := (rfl)
@[simp] theorem State.setBench_pcie (b : Nat) (d : Bench) : (s.setBench b d).pcie = s.pcie := (rfl)
@[simp] theorem State.setBench_chain (b : Nat) (d : Bench) : (s.setBench b d).chain = s.chain := (rfl)
@[simp] theorem State.setBench_ev (b : Nat) (d : Bench) : (s.setBench b d).ev = s.ev := (rfl)
@[simp] theorem State.setBench_sp (b : Nat) (d : Bench) : (s.setBench b d).sp = s.sp := (rfl)
@[simp] theorem State.setBench_spBad (b : Nat) (d : Bench) : (s.setBench b d).spBad = s.spBad := (rfl)
@[simp] theorem State.setBench_lanes (b : Nat) (d : Bench) : (s.setBench b d).lanes = s.lanes := (rfl)
@[simp] theorem State.setBench_drawers (b : Nat) (d : Bench) : (s.setBench b d).drawers = s.drawers := (rfl)
@[simp] theorem State.setBench_outCols (b : Nat) (d : Bench) : (s.setBench b d).outCols = s.outCols := (rfl)
@[simp] theorem State.setBench_dx (b : Nat) (d : Bench) : (s.setBench b d).dx = s.dx := (rfl)
@[simp] theorem State.setBench_dram (b : Nat) (d : Bench) : (s.setBench b d).dram = s.dram := (rfl)
@[simp] theorem State.setBench_dramRsv (b : Nat) (d : Bench) : (s.setBench b d).dramRsv = s.dramRsv := (rfl)
@[simp] theorem State.setBench_mc (b : Nat) (d : Bench) : (s.setBench b d).mc = s.mc := (rfl)
@[simp] theorem State.setBench_sec (b : Nat) (d : Bench) : (s.setBench b d).sec = s.sec := (rfl)
@[simp] theorem State.setBench_mate (b : Nat) (d : Bench) : (s.setBench b d).mate = s.mate := (rfl)
@[simp] theorem State.setBench_sels (b : Nat) (d : Bench) : (s.setBench b d).sels = s.sels := (rfl)
@[simp] theorem State.setBench_groups (b : Nat) (d : Bench) : (s.setBench b d).groups = s.groups := (rfl)
@[simp] theorem State.setBench_grooms (b : Nat) (d : Bench) : (s.setBench b d).grooms = s.grooms := (rfl)
@[simp] theorem State.setBench_groomDef (b : Nat) (d : Bench) : (s.setBench b d).groomDef = s.groomDef := (rfl)
@[simp] theorem State.setBench_ndf (b : Nat) (d : Bench) : (s.setBench b d).ndf = s.ndf := (rfl)
@[simp] theorem State.setBench_bridgeSat (b : Nat) (d : Bench) : (s.setBench b d).bridgeSat = s.bridgeSat := (rfl)
@[simp] theorem State.setBench_eqs (b : Nat) (d : Bench) : (s.setBench b d).eqs = s.eqs := (rfl)
@[simp] theorem State.setBench_ctxs (b : Nat) (d : Bench) : (s.setBench b d).ctxs = s.ctxs := (rfl)
@[simp] theorem State.setBench_tpls (b : Nat) (d : Bench) : (s.setBench b d).tpls = s.tpls := (rfl)
@[simp] theorem State.setBench_eths (b : Nat) (d : Bench) : (s.setBench b d).eths = s.eths := (rfl)
@[simp] theorem State.setBench_nt (b : Nat) (d : Bench) : (s.setBench b d).nt = s.nt := (rfl)
@[simp] theorem State.setBench_tm (b : Nat) (d : Bench) : (s.setBench b d).tm = s.tm := (rfl)
@[simp] theorem State.setBench_ports (b : Nat) (d : Bench) : (s.setBench b d).ports = s.ports := (rfl)
@[simp] theorem State.setBench_timers (b : Nat) (d : Bench) : (s.setBench b d).timers = s.timers := (rfl)
@[simp] theorem State.setBench_rd (b : Nat) (d : Bench) (fd : Fld) (x y : Nat) : (s.setBench b d).rd fd x y = s.rd fd x y := (rfl)
@[simp] theorem State.setBench_on (b : Nat) (d : Bench) (fd : Fld) (x y : Nat) : (s.setBench b d).on fd x y = s.on fd x y := (rfl)
@[simp] theorem State.setBench_domUp (b : Nat) (d : Bench) (dm : Nat) : (s.setBench b d).domUp dm = s.domUp dm := (rfl)
@[simp] theorem State.setBench_pageUp (b : Nat) (d : Bench) (pg : Page) (k : Nat) : (s.setBench b d).pageUp pg k = s.pageUp pg k := (rfl)
@[simp] theorem State.setBench_served (b : Nat) (d : Bench) (pg : Page) (k : Nat) : (s.setBench b d).served pg k = s.served pg k := (rfl)

/-! `setGroom` changes `grooms` alone. -/
@[simp] theorem State.setGroom_pending (g : Nat) (d : Groom) : (s.setGroom g d).pending = s.pending := (rfl)
@[simp] theorem State.setGroom_out (g : Nat) (d : Groom) : (s.setGroom g d).out = s.out := (rfl)
@[simp] theorem State.setGroom_regs (g : Nat) (d : Groom) : (s.setGroom g d).regs = s.regs := (rfl)
@[simp] theorem State.setGroom_capHi (g : Nat) (d : Groom) : (s.setGroom g d).capHi = s.capHi := (rfl)
@[simp] theorem State.setGroom_heldLo (g : Nat) (d : Groom) : (s.setGroom g d).heldLo = s.heldLo := (rfl)
@[simp] theorem State.setGroom_clk (g : Nat) (d : Groom) : (s.setGroom g d).clk = s.clk := (rfl)
@[simp] theorem State.setGroom_fresh (g : Nat) (d : Groom) : (s.setGroom g d).fresh = s.fresh := (rfl)
@[simp] theorem State.setGroom_pow (g : Nat) (d : Groom) : (s.setGroom g d).pow = s.pow := (rfl)
@[simp] theorem State.setGroom_mx (g : Nat) (d : Groom) : (s.setGroom g d).mx = s.mx := (rfl)
@[simp] theorem State.setGroom_pcie (g : Nat) (d : Groom) : (s.setGroom g d).pcie = s.pcie := (rfl)
@[simp] theorem State.setGroom_chain (g : Nat) (d : Groom) : (s.setGroom g d).chain = s.chain := (rfl)
@[simp] theorem State.setGroom_ev (g : Nat) (d : Groom) : (s.setGroom g d).ev = s.ev := (rfl)
@[simp] theorem State.setGroom_sp (g : Nat) (d : Groom) : (s.setGroom g d).sp = s.sp := (rfl)
@[simp] theorem State.setGroom_spBad (g : Nat) (d : Groom) : (s.setGroom g d).spBad = s.spBad := (rfl)
@[simp] theorem State.setGroom_lanes (g : Nat) (d : Groom) : (s.setGroom g d).lanes = s.lanes := (rfl)
@[simp] theorem State.setGroom_drawers (g : Nat) (d : Groom) : (s.setGroom g d).drawers = s.drawers := (rfl)
@[simp] theorem State.setGroom_outCols (g : Nat) (d : Groom) : (s.setGroom g d).outCols = s.outCols := (rfl)
@[simp] theorem State.setGroom_dx (g : Nat) (d : Groom) : (s.setGroom g d).dx = s.dx := (rfl)
@[simp] theorem State.setGroom_dram (g : Nat) (d : Groom) : (s.setGroom g d).dram = s.dram := (rfl)
@[simp] theorem State.setGroom_dramRsv (g : Nat) (d : Groom) : (s.setGroom g d).dramRsv = s.dramRsv := (rfl)
@[simp] theorem State.setGroom_mc (g : Nat) (d : Groom) : (s.setGroom g d).mc = s.mc := (rfl)
@[simp] theorem State.setGroom_sec (g : Nat) (d : Groom) : (s.setGroom g d).sec = s.sec := (rfl)
@[simp] theorem State.setGroom_mate (g : Nat) (d : Groom) : (s.setGroom g d).mate = s.mate := (rfl)
@[simp] theorem State.setGroom_sels (g : Nat) (d : Groom) : (s.setGroom g d).sels = s.sels := (rfl)
@[simp] theorem State.setGroom_groups (g : Nat) (d : Groom) : (s.setGroom g d).groups = s.groups := (rfl)
@[simp] theorem State.setGroom_groomDef (g : Nat) (d : Groom) : (s.setGroom g d).groomDef = s.groomDef := (rfl)
@[simp] theorem State.setGroom_ndf (g : Nat) (d : Groom) : (s.setGroom g d).ndf = s.ndf := (rfl)
@[simp] theorem State.setGroom_bridgeSat (g : Nat) (d : Groom) : (s.setGroom g d).bridgeSat = s.bridgeSat := (rfl)
@[simp] theorem State.setGroom_benches (g : Nat) (d : Groom) : (s.setGroom g d).benches = s.benches := (rfl)
@[simp] theorem State.setGroom_eqs (g : Nat) (d : Groom) : (s.setGroom g d).eqs = s.eqs := (rfl)
@[simp] theorem State.setGroom_ctxs (g : Nat) (d : Groom) : (s.setGroom g d).ctxs = s.ctxs := (rfl)
@[simp] theorem State.setGroom_tpls (g : Nat) (d : Groom) : (s.setGroom g d).tpls = s.tpls := (rfl)
@[simp] theorem State.setGroom_eths (g : Nat) (d : Groom) : (s.setGroom g d).eths = s.eths := (rfl)
@[simp] theorem State.setGroom_nt (g : Nat) (d : Groom) : (s.setGroom g d).nt = s.nt := (rfl)
@[simp] theorem State.setGroom_tm (g : Nat) (d : Groom) : (s.setGroom g d).tm = s.tm := (rfl)
@[simp] theorem State.setGroom_ports (g : Nat) (d : Groom) : (s.setGroom g d).ports = s.ports := (rfl)
@[simp] theorem State.setGroom_timers (g : Nat) (d : Groom) : (s.setGroom g d).timers = s.timers := (rfl)
@[simp] theorem State.setGroom_rd (g : Nat) (d : Groom) (fd : Fld) (x y : Nat) : (s.setGroom g d).rd fd x y = s.rd fd x y := (rfl)
@[simp] theorem State.setGroom_on (g : Nat) (d : Groom) (fd : Fld) (x y : Nat) : (s.setGroom g d).on fd x y = s.on fd x y := (rfl)
@[simp] theorem State.setGroom_domUp (g : Nat) (d : Groom) (dm : Nat) : (s.setGroom g d).domUp dm = s.domUp dm := (rfl)
@[simp] theorem State.setGroom_pageUp (g : Nat) (d : Groom) (pg : Page) (k : Nat) : (s.setGroom g d).pageUp pg k = s.pageUp pg k := (rfl)
@[simp] theorem State.setGroom_served (g : Nat) (d : Groom) (pg : Page) (k : Nat) : (s.setGroom g d).served pg k = s.served pg k := (rfl)

/-! `setSel` changes `sels` alone. -/
@[simp] theorem State.setSel_pending (a : Nat) (u : Sel) : (s.setSel a u).pending = s.pending := (rfl)
@[simp] theorem State.setSel_out (a : Nat) (u : Sel) : (s.setSel a u).out = s.out := (rfl)
@[simp] theorem State.setSel_regs (a : Nat) (u : Sel) : (s.setSel a u).regs = s.regs := (rfl)
@[simp] theorem State.setSel_capHi (a : Nat) (u : Sel) : (s.setSel a u).capHi = s.capHi := (rfl)
@[simp] theorem State.setSel_heldLo (a : Nat) (u : Sel) : (s.setSel a u).heldLo = s.heldLo := (rfl)
@[simp] theorem State.setSel_clk (a : Nat) (u : Sel) : (s.setSel a u).clk = s.clk := (rfl)
@[simp] theorem State.setSel_fresh (a : Nat) (u : Sel) : (s.setSel a u).fresh = s.fresh := (rfl)
@[simp] theorem State.setSel_pow (a : Nat) (u : Sel) : (s.setSel a u).pow = s.pow := (rfl)
@[simp] theorem State.setSel_mx (a : Nat) (u : Sel) : (s.setSel a u).mx = s.mx := (rfl)
@[simp] theorem State.setSel_pcie (a : Nat) (u : Sel) : (s.setSel a u).pcie = s.pcie := (rfl)
@[simp] theorem State.setSel_chain (a : Nat) (u : Sel) : (s.setSel a u).chain = s.chain := (rfl)
@[simp] theorem State.setSel_ev (a : Nat) (u : Sel) : (s.setSel a u).ev = s.ev := (rfl)
@[simp] theorem State.setSel_sp (a : Nat) (u : Sel) : (s.setSel a u).sp = s.sp := (rfl)
@[simp] theorem State.setSel_spBad (a : Nat) (u : Sel) : (s.setSel a u).spBad = s.spBad := (rfl)
@[simp] theorem State.setSel_lanes (a : Nat) (u : Sel) : (s.setSel a u).lanes = s.lanes := (rfl)
@[simp] theorem State.setSel_drawers (a : Nat) (u : Sel) : (s.setSel a u).drawers = s.drawers := (rfl)
@[simp] theorem State.setSel_outCols (a : Nat) (u : Sel) : (s.setSel a u).outCols = s.outCols := (rfl)
@[simp] theorem State.setSel_dx (a : Nat) (u : Sel) : (s.setSel a u).dx = s.dx := (rfl)
@[simp] theorem State.setSel_dram (a : Nat) (u : Sel) : (s.setSel a u).dram = s.dram := (rfl)
@[simp] theorem State.setSel_dramRsv (a : Nat) (u : Sel) : (s.setSel a u).dramRsv = s.dramRsv := (rfl)
@[simp] theorem State.setSel_mc (a : Nat) (u : Sel) : (s.setSel a u).mc = s.mc := (rfl)
@[simp] theorem State.setSel_sec (a : Nat) (u : Sel) : (s.setSel a u).sec = s.sec := (rfl)
@[simp] theorem State.setSel_mate (a : Nat) (u : Sel) : (s.setSel a u).mate = s.mate := (rfl)
@[simp] theorem State.setSel_groups (a : Nat) (u : Sel) : (s.setSel a u).groups = s.groups := (rfl)
@[simp] theorem State.setSel_grooms (a : Nat) (u : Sel) : (s.setSel a u).grooms = s.grooms := (rfl)
@[simp] theorem State.setSel_groomDef (a : Nat) (u : Sel) : (s.setSel a u).groomDef = s.groomDef := (rfl)
@[simp] theorem State.setSel_ndf (a : Nat) (u : Sel) : (s.setSel a u).ndf = s.ndf := (rfl)
@[simp] theorem State.setSel_bridgeSat (a : Nat) (u : Sel) : (s.setSel a u).bridgeSat = s.bridgeSat := (rfl)
@[simp] theorem State.setSel_benches (a : Nat) (u : Sel) : (s.setSel a u).benches = s.benches := (rfl)
@[simp] theorem State.setSel_eqs (a : Nat) (u : Sel) : (s.setSel a u).eqs = s.eqs := (rfl)
@[simp] theorem State.setSel_ctxs (a : Nat) (u : Sel) : (s.setSel a u).ctxs = s.ctxs := (rfl)
@[simp] theorem State.setSel_tpls (a : Nat) (u : Sel) : (s.setSel a u).tpls = s.tpls := (rfl)
@[simp] theorem State.setSel_eths (a : Nat) (u : Sel) : (s.setSel a u).eths = s.eths := (rfl)
@[simp] theorem State.setSel_nt (a : Nat) (u : Sel) : (s.setSel a u).nt = s.nt := (rfl)
@[simp] theorem State.setSel_tm (a : Nat) (u : Sel) : (s.setSel a u).tm = s.tm := (rfl)
@[simp] theorem State.setSel_ports (a : Nat) (u : Sel) : (s.setSel a u).ports = s.ports := (rfl)
@[simp] theorem State.setSel_timers (a : Nat) (u : Sel) : (s.setSel a u).timers = s.timers := (rfl)
@[simp] theorem State.setSel_rd (a : Nat) (u : Sel) (fd : Fld) (x y : Nat) : (s.setSel a u).rd fd x y = s.rd fd x y := (rfl)
@[simp] theorem State.setSel_on (a : Nat) (u : Sel) (fd : Fld) (x y : Nat) : (s.setSel a u).on fd x y = s.on fd x y := (rfl)
@[simp] theorem State.setSel_domUp (a : Nat) (u : Sel) (dm : Nat) : (s.setSel a u).domUp dm = s.domUp dm := (rfl)
@[simp] theorem State.setSel_pageUp (a : Nat) (u : Sel) (pg : Page) (k : Nat) : (s.setSel a u).pageUp pg k = s.pageUp pg k := (rfl)
@[simp] theorem State.setSel_served (a : Nat) (u : Sel) (pg : Page) (k : Nat) : (s.setSel a u).served pg k = s.served pg k := (rfl)

/-! `setGrp` changes `groups` alone. -/
@[simp] theorem State.setGrp_pending (g : Nat) (u : Sel) : (s.setGrp g u).pending = s.pending := (rfl)
@[simp] theorem State.setGrp_out (g : Nat) (u : Sel) : (s.setGrp g u).out = s.out := (rfl)
@[simp] theorem State.setGrp_regs (g : Nat) (u : Sel) : (s.setGrp g u).regs = s.regs := (rfl)
@[simp] theorem State.setGrp_capHi (g : Nat) (u : Sel) : (s.setGrp g u).capHi = s.capHi := (rfl)
@[simp] theorem State.setGrp_heldLo (g : Nat) (u : Sel) : (s.setGrp g u).heldLo = s.heldLo := (rfl)
@[simp] theorem State.setGrp_clk (g : Nat) (u : Sel) : (s.setGrp g u).clk = s.clk := (rfl)
@[simp] theorem State.setGrp_fresh (g : Nat) (u : Sel) : (s.setGrp g u).fresh = s.fresh := (rfl)
@[simp] theorem State.setGrp_pow (g : Nat) (u : Sel) : (s.setGrp g u).pow = s.pow := (rfl)
@[simp] theorem State.setGrp_mx (g : Nat) (u : Sel) : (s.setGrp g u).mx = s.mx := (rfl)
@[simp] theorem State.setGrp_pcie (g : Nat) (u : Sel) : (s.setGrp g u).pcie = s.pcie := (rfl)
@[simp] theorem State.setGrp_chain (g : Nat) (u : Sel) : (s.setGrp g u).chain = s.chain := (rfl)
@[simp] theorem State.setGrp_ev (g : Nat) (u : Sel) : (s.setGrp g u).ev = s.ev := (rfl)
@[simp] theorem State.setGrp_sp (g : Nat) (u : Sel) : (s.setGrp g u).sp = s.sp := (rfl)
@[simp] theorem State.setGrp_spBad (g : Nat) (u : Sel) : (s.setGrp g u).spBad = s.spBad := (rfl)
@[simp] theorem State.setGrp_lanes (g : Nat) (u : Sel) : (s.setGrp g u).lanes = s.lanes := (rfl)
@[simp] theorem State.setGrp_drawers (g : Nat) (u : Sel) : (s.setGrp g u).drawers = s.drawers := (rfl)
@[simp] theorem State.setGrp_outCols (g : Nat) (u : Sel) : (s.setGrp g u).outCols = s.outCols := (rfl)
@[simp] theorem State.setGrp_dx (g : Nat) (u : Sel) : (s.setGrp g u).dx = s.dx := (rfl)
@[simp] theorem State.setGrp_dram (g : Nat) (u : Sel) : (s.setGrp g u).dram = s.dram := (rfl)
@[simp] theorem State.setGrp_dramRsv (g : Nat) (u : Sel) : (s.setGrp g u).dramRsv = s.dramRsv := (rfl)
@[simp] theorem State.setGrp_mc (g : Nat) (u : Sel) : (s.setGrp g u).mc = s.mc := (rfl)
@[simp] theorem State.setGrp_sec (g : Nat) (u : Sel) : (s.setGrp g u).sec = s.sec := (rfl)
@[simp] theorem State.setGrp_mate (g : Nat) (u : Sel) : (s.setGrp g u).mate = s.mate := (rfl)
@[simp] theorem State.setGrp_sels (g : Nat) (u : Sel) : (s.setGrp g u).sels = s.sels := (rfl)
@[simp] theorem State.setGrp_grooms (g : Nat) (u : Sel) : (s.setGrp g u).grooms = s.grooms := (rfl)
@[simp] theorem State.setGrp_groomDef (g : Nat) (u : Sel) : (s.setGrp g u).groomDef = s.groomDef := (rfl)
@[simp] theorem State.setGrp_ndf (g : Nat) (u : Sel) : (s.setGrp g u).ndf = s.ndf := (rfl)
@[simp] theorem State.setGrp_bridgeSat (g : Nat) (u : Sel) : (s.setGrp g u).bridgeSat = s.bridgeSat := (rfl)
@[simp] theorem State.setGrp_benches (g : Nat) (u : Sel) : (s.setGrp g u).benches = s.benches := (rfl)
@[simp] theorem State.setGrp_eqs (g : Nat) (u : Sel) : (s.setGrp g u).eqs = s.eqs := (rfl)
@[simp] theorem State.setGrp_ctxs (g : Nat) (u : Sel) : (s.setGrp g u).ctxs = s.ctxs := (rfl)
@[simp] theorem State.setGrp_tpls (g : Nat) (u : Sel) : (s.setGrp g u).tpls = s.tpls := (rfl)
@[simp] theorem State.setGrp_eths (g : Nat) (u : Sel) : (s.setGrp g u).eths = s.eths := (rfl)
@[simp] theorem State.setGrp_nt (g : Nat) (u : Sel) : (s.setGrp g u).nt = s.nt := (rfl)
@[simp] theorem State.setGrp_tm (g : Nat) (u : Sel) : (s.setGrp g u).tm = s.tm := (rfl)
@[simp] theorem State.setGrp_ports (g : Nat) (u : Sel) : (s.setGrp g u).ports = s.ports := (rfl)
@[simp] theorem State.setGrp_timers (g : Nat) (u : Sel) : (s.setGrp g u).timers = s.timers := (rfl)
@[simp] theorem State.setGrp_rd (g : Nat) (u : Sel) (fd : Fld) (x y : Nat) : (s.setGrp g u).rd fd x y = s.rd fd x y := (rfl)
@[simp] theorem State.setGrp_on (g : Nat) (u : Sel) (fd : Fld) (x y : Nat) : (s.setGrp g u).on fd x y = s.on fd x y := (rfl)
@[simp] theorem State.setGrp_domUp (g : Nat) (u : Sel) (dm : Nat) : (s.setGrp g u).domUp dm = s.domUp dm := (rfl)
@[simp] theorem State.setGrp_pageUp (g : Nat) (u : Sel) (pg : Page) (k : Nat) : (s.setGrp g u).pageUp pg k = s.pageUp pg k := (rfl)
@[simp] theorem State.setGrp_served (g : Nat) (u : Sel) (pg : Page) (k : Nat) : (s.setGrp g u).served pg k = s.served pg k := (rfl)

/-! `setEq` changes `eqs` alone. -/
@[simp] theorem State.setEq_pending (q : Nat) (g : EqGroup) : (s.setEq q g).pending = s.pending := (rfl)
@[simp] theorem State.setEq_out (q : Nat) (g : EqGroup) : (s.setEq q g).out = s.out := (rfl)
@[simp] theorem State.setEq_regs (q : Nat) (g : EqGroup) : (s.setEq q g).regs = s.regs := (rfl)
@[simp] theorem State.setEq_capHi (q : Nat) (g : EqGroup) : (s.setEq q g).capHi = s.capHi := (rfl)
@[simp] theorem State.setEq_heldLo (q : Nat) (g : EqGroup) : (s.setEq q g).heldLo = s.heldLo := (rfl)
@[simp] theorem State.setEq_clk (q : Nat) (g : EqGroup) : (s.setEq q g).clk = s.clk := (rfl)
@[simp] theorem State.setEq_fresh (q : Nat) (g : EqGroup) : (s.setEq q g).fresh = s.fresh := (rfl)
@[simp] theorem State.setEq_pow (q : Nat) (g : EqGroup) : (s.setEq q g).pow = s.pow := (rfl)
@[simp] theorem State.setEq_mx (q : Nat) (g : EqGroup) : (s.setEq q g).mx = s.mx := (rfl)
@[simp] theorem State.setEq_pcie (q : Nat) (g : EqGroup) : (s.setEq q g).pcie = s.pcie := (rfl)
@[simp] theorem State.setEq_chain (q : Nat) (g : EqGroup) : (s.setEq q g).chain = s.chain := (rfl)
@[simp] theorem State.setEq_ev (q : Nat) (g : EqGroup) : (s.setEq q g).ev = s.ev := (rfl)
@[simp] theorem State.setEq_sp (q : Nat) (g : EqGroup) : (s.setEq q g).sp = s.sp := (rfl)
@[simp] theorem State.setEq_spBad (q : Nat) (g : EqGroup) : (s.setEq q g).spBad = s.spBad := (rfl)
@[simp] theorem State.setEq_lanes (q : Nat) (g : EqGroup) : (s.setEq q g).lanes = s.lanes := (rfl)
@[simp] theorem State.setEq_drawers (q : Nat) (g : EqGroup) : (s.setEq q g).drawers = s.drawers := (rfl)
@[simp] theorem State.setEq_outCols (q : Nat) (g : EqGroup) : (s.setEq q g).outCols = s.outCols := (rfl)
@[simp] theorem State.setEq_dx (q : Nat) (g : EqGroup) : (s.setEq q g).dx = s.dx := (rfl)
@[simp] theorem State.setEq_dram (q : Nat) (g : EqGroup) : (s.setEq q g).dram = s.dram := (rfl)
@[simp] theorem State.setEq_dramRsv (q : Nat) (g : EqGroup) : (s.setEq q g).dramRsv = s.dramRsv := (rfl)
@[simp] theorem State.setEq_mc (q : Nat) (g : EqGroup) : (s.setEq q g).mc = s.mc := (rfl)
@[simp] theorem State.setEq_sec (q : Nat) (g : EqGroup) : (s.setEq q g).sec = s.sec := (rfl)
@[simp] theorem State.setEq_mate (q : Nat) (g : EqGroup) : (s.setEq q g).mate = s.mate := (rfl)
@[simp] theorem State.setEq_sels (q : Nat) (g : EqGroup) : (s.setEq q g).sels = s.sels := (rfl)
@[simp] theorem State.setEq_groups (q : Nat) (g : EqGroup) : (s.setEq q g).groups = s.groups := (rfl)
@[simp] theorem State.setEq_grooms (q : Nat) (g : EqGroup) : (s.setEq q g).grooms = s.grooms := (rfl)
@[simp] theorem State.setEq_groomDef (q : Nat) (g : EqGroup) : (s.setEq q g).groomDef = s.groomDef := (rfl)
@[simp] theorem State.setEq_ndf (q : Nat) (g : EqGroup) : (s.setEq q g).ndf = s.ndf := (rfl)
@[simp] theorem State.setEq_bridgeSat (q : Nat) (g : EqGroup) : (s.setEq q g).bridgeSat = s.bridgeSat := (rfl)
@[simp] theorem State.setEq_benches (q : Nat) (g : EqGroup) : (s.setEq q g).benches = s.benches := (rfl)
@[simp] theorem State.setEq_ctxs (q : Nat) (g : EqGroup) : (s.setEq q g).ctxs = s.ctxs := (rfl)
@[simp] theorem State.setEq_tpls (q : Nat) (g : EqGroup) : (s.setEq q g).tpls = s.tpls := (rfl)
@[simp] theorem State.setEq_eths (q : Nat) (g : EqGroup) : (s.setEq q g).eths = s.eths := (rfl)
@[simp] theorem State.setEq_nt (q : Nat) (g : EqGroup) : (s.setEq q g).nt = s.nt := (rfl)
@[simp] theorem State.setEq_tm (q : Nat) (g : EqGroup) : (s.setEq q g).tm = s.tm := (rfl)
@[simp] theorem State.setEq_ports (q : Nat) (g : EqGroup) : (s.setEq q g).ports = s.ports := (rfl)
@[simp] theorem State.setEq_timers (q : Nat) (g : EqGroup) : (s.setEq q g).timers = s.timers := (rfl)
@[simp] theorem State.setEq_rd (q : Nat) (g : EqGroup) (fd : Fld) (x y : Nat) : (s.setEq q g).rd fd x y = s.rd fd x y := (rfl)
@[simp] theorem State.setEq_on (q : Nat) (g : EqGroup) (fd : Fld) (x y : Nat) : (s.setEq q g).on fd x y = s.on fd x y := (rfl)
@[simp] theorem State.setEq_domUp (q : Nat) (g : EqGroup) (dm : Nat) : (s.setEq q g).domUp dm = s.domUp dm := (rfl)
@[simp] theorem State.setEq_pageUp (q : Nat) (g : EqGroup) (pg : Page) (k : Nat) : (s.setEq q g).pageUp pg k = s.pageUp pg k := (rfl)
@[simp] theorem State.setEq_served (q : Nat) (g : EqGroup) (pg : Page) (k : Nat) : (s.setEq q g).served pg k = s.served pg k := (rfl)

/-! `setCtx` changes `ctxs` alone. -/
@[simp] theorem State.setCtx_pending (n : Nat) (c : Ctx) : (s.setCtx n c).pending = s.pending := (rfl)
@[simp] theorem State.setCtx_out (n : Nat) (c : Ctx) : (s.setCtx n c).out = s.out := (rfl)
@[simp] theorem State.setCtx_regs (n : Nat) (c : Ctx) : (s.setCtx n c).regs = s.regs := (rfl)
@[simp] theorem State.setCtx_capHi (n : Nat) (c : Ctx) : (s.setCtx n c).capHi = s.capHi := (rfl)
@[simp] theorem State.setCtx_heldLo (n : Nat) (c : Ctx) : (s.setCtx n c).heldLo = s.heldLo := (rfl)
@[simp] theorem State.setCtx_clk (n : Nat) (c : Ctx) : (s.setCtx n c).clk = s.clk := (rfl)
@[simp] theorem State.setCtx_fresh (n : Nat) (c : Ctx) : (s.setCtx n c).fresh = s.fresh := (rfl)
@[simp] theorem State.setCtx_pow (n : Nat) (c : Ctx) : (s.setCtx n c).pow = s.pow := (rfl)
@[simp] theorem State.setCtx_mx (n : Nat) (c : Ctx) : (s.setCtx n c).mx = s.mx := (rfl)
@[simp] theorem State.setCtx_pcie (n : Nat) (c : Ctx) : (s.setCtx n c).pcie = s.pcie := (rfl)
@[simp] theorem State.setCtx_chain (n : Nat) (c : Ctx) : (s.setCtx n c).chain = s.chain := (rfl)
@[simp] theorem State.setCtx_ev (n : Nat) (c : Ctx) : (s.setCtx n c).ev = s.ev := (rfl)
@[simp] theorem State.setCtx_sp (n : Nat) (c : Ctx) : (s.setCtx n c).sp = s.sp := (rfl)
@[simp] theorem State.setCtx_spBad (n : Nat) (c : Ctx) : (s.setCtx n c).spBad = s.spBad := (rfl)
@[simp] theorem State.setCtx_lanes (n : Nat) (c : Ctx) : (s.setCtx n c).lanes = s.lanes := (rfl)
@[simp] theorem State.setCtx_drawers (n : Nat) (c : Ctx) : (s.setCtx n c).drawers = s.drawers := (rfl)
@[simp] theorem State.setCtx_outCols (n : Nat) (c : Ctx) : (s.setCtx n c).outCols = s.outCols := (rfl)
@[simp] theorem State.setCtx_dx (n : Nat) (c : Ctx) : (s.setCtx n c).dx = s.dx := (rfl)
@[simp] theorem State.setCtx_dram (n : Nat) (c : Ctx) : (s.setCtx n c).dram = s.dram := (rfl)
@[simp] theorem State.setCtx_dramRsv (n : Nat) (c : Ctx) : (s.setCtx n c).dramRsv = s.dramRsv := (rfl)
@[simp] theorem State.setCtx_mc (n : Nat) (c : Ctx) : (s.setCtx n c).mc = s.mc := (rfl)
@[simp] theorem State.setCtx_sec (n : Nat) (c : Ctx) : (s.setCtx n c).sec = s.sec := (rfl)
@[simp] theorem State.setCtx_mate (n : Nat) (c : Ctx) : (s.setCtx n c).mate = s.mate := (rfl)
@[simp] theorem State.setCtx_sels (n : Nat) (c : Ctx) : (s.setCtx n c).sels = s.sels := (rfl)
@[simp] theorem State.setCtx_groups (n : Nat) (c : Ctx) : (s.setCtx n c).groups = s.groups := (rfl)
@[simp] theorem State.setCtx_grooms (n : Nat) (c : Ctx) : (s.setCtx n c).grooms = s.grooms := (rfl)
@[simp] theorem State.setCtx_groomDef (n : Nat) (c : Ctx) : (s.setCtx n c).groomDef = s.groomDef := (rfl)
@[simp] theorem State.setCtx_ndf (n : Nat) (c : Ctx) : (s.setCtx n c).ndf = s.ndf := (rfl)
@[simp] theorem State.setCtx_bridgeSat (n : Nat) (c : Ctx) : (s.setCtx n c).bridgeSat = s.bridgeSat := (rfl)
@[simp] theorem State.setCtx_benches (n : Nat) (c : Ctx) : (s.setCtx n c).benches = s.benches := (rfl)
@[simp] theorem State.setCtx_eqs (n : Nat) (c : Ctx) : (s.setCtx n c).eqs = s.eqs := (rfl)
@[simp] theorem State.setCtx_tpls (n : Nat) (c : Ctx) : (s.setCtx n c).tpls = s.tpls := (rfl)
@[simp] theorem State.setCtx_eths (n : Nat) (c : Ctx) : (s.setCtx n c).eths = s.eths := (rfl)
@[simp] theorem State.setCtx_nt (n : Nat) (c : Ctx) : (s.setCtx n c).nt = s.nt := (rfl)
@[simp] theorem State.setCtx_tm (n : Nat) (c : Ctx) : (s.setCtx n c).tm = s.tm := (rfl)
@[simp] theorem State.setCtx_ports (n : Nat) (c : Ctx) : (s.setCtx n c).ports = s.ports := (rfl)
@[simp] theorem State.setCtx_timers (n : Nat) (c : Ctx) : (s.setCtx n c).timers = s.timers := (rfl)
@[simp] theorem State.setCtx_rd (n : Nat) (c : Ctx) (fd : Fld) (x y : Nat) : (s.setCtx n c).rd fd x y = s.rd fd x y := (rfl)
@[simp] theorem State.setCtx_on (n : Nat) (c : Ctx) (fd : Fld) (x y : Nat) : (s.setCtx n c).on fd x y = s.on fd x y := (rfl)
@[simp] theorem State.setCtx_domUp (n : Nat) (c : Ctx) (dm : Nat) : (s.setCtx n c).domUp dm = s.domUp dm := (rfl)
@[simp] theorem State.setCtx_pageUp (n : Nat) (c : Ctx) (pg : Page) (k : Nat) : (s.setCtx n c).pageUp pg k = s.pageUp pg k := (rfl)
@[simp] theorem State.setCtx_served (n : Nat) (c : Ctx) (pg : Page) (k : Nat) : (s.setCtx n c).served pg k = s.served pg k := (rfl)

/-! `setEth` changes `eths` alone. -/
@[simp] theorem State.setEth_pending (p : Nat) (e : EthPort) : (s.setEth p e).pending = s.pending := (rfl)
@[simp] theorem State.setEth_out (p : Nat) (e : EthPort) : (s.setEth p e).out = s.out := (rfl)
@[simp] theorem State.setEth_regs (p : Nat) (e : EthPort) : (s.setEth p e).regs = s.regs := (rfl)
@[simp] theorem State.setEth_capHi (p : Nat) (e : EthPort) : (s.setEth p e).capHi = s.capHi := (rfl)
@[simp] theorem State.setEth_heldLo (p : Nat) (e : EthPort) : (s.setEth p e).heldLo = s.heldLo := (rfl)
@[simp] theorem State.setEth_clk (p : Nat) (e : EthPort) : (s.setEth p e).clk = s.clk := (rfl)
@[simp] theorem State.setEth_fresh (p : Nat) (e : EthPort) : (s.setEth p e).fresh = s.fresh := (rfl)
@[simp] theorem State.setEth_pow (p : Nat) (e : EthPort) : (s.setEth p e).pow = s.pow := (rfl)
@[simp] theorem State.setEth_mx (p : Nat) (e : EthPort) : (s.setEth p e).mx = s.mx := (rfl)
@[simp] theorem State.setEth_pcie (p : Nat) (e : EthPort) : (s.setEth p e).pcie = s.pcie := (rfl)
@[simp] theorem State.setEth_chain (p : Nat) (e : EthPort) : (s.setEth p e).chain = s.chain := (rfl)
@[simp] theorem State.setEth_ev (p : Nat) (e : EthPort) : (s.setEth p e).ev = s.ev := (rfl)
@[simp] theorem State.setEth_sp (p : Nat) (e : EthPort) : (s.setEth p e).sp = s.sp := (rfl)
@[simp] theorem State.setEth_spBad (p : Nat) (e : EthPort) : (s.setEth p e).spBad = s.spBad := (rfl)
@[simp] theorem State.setEth_lanes (p : Nat) (e : EthPort) : (s.setEth p e).lanes = s.lanes := (rfl)
@[simp] theorem State.setEth_drawers (p : Nat) (e : EthPort) : (s.setEth p e).drawers = s.drawers := (rfl)
@[simp] theorem State.setEth_outCols (p : Nat) (e : EthPort) : (s.setEth p e).outCols = s.outCols := (rfl)
@[simp] theorem State.setEth_dx (p : Nat) (e : EthPort) : (s.setEth p e).dx = s.dx := (rfl)
@[simp] theorem State.setEth_dram (p : Nat) (e : EthPort) : (s.setEth p e).dram = s.dram := (rfl)
@[simp] theorem State.setEth_dramRsv (p : Nat) (e : EthPort) : (s.setEth p e).dramRsv = s.dramRsv := (rfl)
@[simp] theorem State.setEth_mc (p : Nat) (e : EthPort) : (s.setEth p e).mc = s.mc := (rfl)
@[simp] theorem State.setEth_sec (p : Nat) (e : EthPort) : (s.setEth p e).sec = s.sec := (rfl)
@[simp] theorem State.setEth_mate (p : Nat) (e : EthPort) : (s.setEth p e).mate = s.mate := (rfl)
@[simp] theorem State.setEth_sels (p : Nat) (e : EthPort) : (s.setEth p e).sels = s.sels := (rfl)
@[simp] theorem State.setEth_groups (p : Nat) (e : EthPort) : (s.setEth p e).groups = s.groups := (rfl)
@[simp] theorem State.setEth_grooms (p : Nat) (e : EthPort) : (s.setEth p e).grooms = s.grooms := (rfl)
@[simp] theorem State.setEth_groomDef (p : Nat) (e : EthPort) : (s.setEth p e).groomDef = s.groomDef := (rfl)
@[simp] theorem State.setEth_ndf (p : Nat) (e : EthPort) : (s.setEth p e).ndf = s.ndf := (rfl)
@[simp] theorem State.setEth_bridgeSat (p : Nat) (e : EthPort) : (s.setEth p e).bridgeSat = s.bridgeSat := (rfl)
@[simp] theorem State.setEth_benches (p : Nat) (e : EthPort) : (s.setEth p e).benches = s.benches := (rfl)
@[simp] theorem State.setEth_eqs (p : Nat) (e : EthPort) : (s.setEth p e).eqs = s.eqs := (rfl)
@[simp] theorem State.setEth_ctxs (p : Nat) (e : EthPort) : (s.setEth p e).ctxs = s.ctxs := (rfl)
@[simp] theorem State.setEth_tpls (p : Nat) (e : EthPort) : (s.setEth p e).tpls = s.tpls := (rfl)
@[simp] theorem State.setEth_nt (p : Nat) (e : EthPort) : (s.setEth p e).nt = s.nt := (rfl)
@[simp] theorem State.setEth_tm (p : Nat) (e : EthPort) : (s.setEth p e).tm = s.tm := (rfl)
@[simp] theorem State.setEth_ports (p : Nat) (e : EthPort) : (s.setEth p e).ports = s.ports := (rfl)
@[simp] theorem State.setEth_timers (p : Nat) (e : EthPort) : (s.setEth p e).timers = s.timers := (rfl)
@[simp] theorem State.setEth_rd (p : Nat) (e : EthPort) (fd : Fld) (x y : Nat) : (s.setEth p e).rd fd x y = s.rd fd x y := (rfl)
@[simp] theorem State.setEth_on (p : Nat) (e : EthPort) (fd : Fld) (x y : Nat) : (s.setEth p e).on fd x y = s.on fd x y := (rfl)
@[simp] theorem State.setEth_domUp (p : Nat) (e : EthPort) (dm : Nat) : (s.setEth p e).domUp dm = s.domUp dm := (rfl)
@[simp] theorem State.setEth_pageUp (p : Nat) (e : EthPort) (pg : Page) (k : Nat) : (s.setEth p e).pageUp pg k = s.pageUp pg k := (rfl)
@[simp] theorem State.setEth_served (p : Nat) (e : EthPort) (pg : Page) (k : Nat) : (s.setEth p e).served pg k = s.served pg k := (rfl)

/-! Reading back. -/

@[simp] theorem State.start_out : s.start.out = [] := (rfl)
@[simp] theorem State.emit_out (o : Out) : (s.emit o).out = s.out ++ [o] := (rfl)
@[simp] theorem State.takeFresh_fresh : s.takeFresh.fresh = s.fresh + 1 := (rfl)
@[simp] theorem State.updMate_mate (f : Mate → Mate) : (s.updMate f).mate = f s.mate := (rfl)

/-- A field reads what was written, cut to its width. -/
@[simp] theorem State.rd_wr_same (f : Fld) (v i j : Nat) : (s.wr f v i j).rd f i j = v % 2 ^ f.width := by
  simp [State.rd, State.wr]

/-- A write leaves every field with another key. -/
theorem State.rd_wr_ne {f g : Fld} {i j k l : Nat} (v : Nat) (h : g.key k l ≠ f.key i j) :
    (s.wr f v i j).rd g k l = s.rd g k l := by
  simp [State.rd, State.wr, mapGet_mapSet_ne _ _ _ h]

@[simp] theorem State.on_wrB_same (f : Fld) (b : Bool) (i j : Nat) (h : f.width = 1) : (s.wrB f b i j).on f i j = b := by
  cases b <;> simp [State.on, State.wrB, b2n, h]

theorem State.on_wr_ne {f g : Fld} {i j k l : Nat} (v : Nat) (h : g.key k l ≠ f.key i j) :
    (s.wr f v i j).on g k l = s.on g k l := by
  simp [State.on, State.rd_wr_ne _ _ h]

@[simp] theorem State.lane_setLane_same (n : Nat) (l : Lane) : (s.setLane n l).lane n = l := by simp [State.lane, State.setLane]
theorem State.lane_setLane_ne {n m : Nat} (l : Lane) (h : m ≠ n) : (s.setLane n l).lane m = s.lane m := by
  simp [State.lane, State.setLane, mapGet_mapSet_ne _ _ _ h]
@[simp] theorem State.updLane_lane (n : Nat) (f : Lane → Lane) : (s.updLane n f).lane n = f (s.lane n) := by simp [State.updLane]
@[simp] theorem State.drw_setDrw_same (n c : Nat) (d : Drawer) : (s.setDrw n c d).drw n c = d := by simp [State.drw, State.setDrw]
@[simp] theorem State.bench_setBench_same (b : Nat) (d : Bench) : (s.setBench b d).bench b = d := by simp [State.bench, State.setBench]
@[simp] theorem State.sel_setSel_same (a : Nat) (u : Sel) : (s.setSel a u).sel a = u := by simp [State.sel, State.setSel]
@[simp] theorem State.grp_setGrp_same (g : Nat) (u : Sel) : (s.setGrp g u).grp g = u := by simp [State.grp, State.setGrp]
@[simp] theorem State.eqg_setEq_same (q : Nat) (g : EqGroup) : (s.setEq q g).eqg q = g := by simp [State.eqg, State.setEq]
@[simp] theorem State.ctx_setCtx_same (n : Nat) (c : Ctx) : (s.setCtx n c).ctx n = c := by simp [State.ctx, State.setCtx]
@[simp] theorem State.eth_setEth_same (p : Nat) (e : EthPort) : (s.setEth p e).eth p = e := by simp [State.eth, State.setEth]

/-- A byte reads what was written to it. -/
@[simp] theorem State.spByte_spPut_same (o : Nat) (b : Byte) : (s.spPut o b).spByte o = b := by simp [State.spByte, State.spPut]

/-- A write of one byte leaves every other byte. -/
theorem State.spByte_spPut_ne {o o' : Nat} (b : Byte) (h : o' ≠ o) : (s.spPut o b).spByte o' = s.spByte o' := by
  simp [State.spByte, State.spPut, mapGet_mapSet_ne _ _ _ h]

end Sys2Proof.Machine
end

