-- ==== Sys2Proof/Laws/Clock.lean ====
section
/-! SUPPORT. What each operation and each meaning keeps of time: no operation and no meaning changes the frame or the control cycle, but those that begin a frame or a new start. -/
namespace Sys2Proof.Machine

/-- Every next state of `o` has the `clk` of `s`. -/
def clkKept (s : State) (o : Host.Outcome State Fault Refusal) : Prop := ∀ t, o = .next t → t.clk = s.clk
@[simp] theorem clkKept_next (s t : State) :
    clkKept s (.next t) ↔ t.clk = s.clk := ⟨fun h => h t rfl, fun h u e => by cases e; exact h⟩
@[simp] theorem clkKept_ok (s t : State) : clkKept s (ok t) ↔ t.clk = s.clk := clkKept_next s t
@[simp] theorem clkKept_fault (s : State) (f : Fault) : clkKept s (.fault f) := fun _ h => nomatch h
@[simp] theorem clkKept_ite (s : State) (c : Prop) [Decidable c] (a b : Host.Outcome State Fault Refusal) (ha : clkKept s a)
    (hb : clkKept s b) : clkKept s (if c then a else b) := by split <;> assumption
@[simp] theorem ite_clk (c : Prop) [Decidable c] (a b : State) :
    (if c then a else b).clk = if c then a.clk else b.clk := by split <;> rfl
@[simp] theorem foldl_clk {α : Type} (g : State → α → State) (l : List α) (s : State) (h : ∀ s x, (g s x).clk = s.clk) :
    (l.foldl g s).clk = s.clk := by
  induction l generalizing s with
  | nil => rfl
  | cons x l ih => simp [List.foldl, ih, h]
@[simp] theorem foldl_fst_clk {α β : Type} (g : State × β → α → State × β) (l : List α) (s : State × β)
    (h : ∀ s x, (g s x).1.clk = s.1.clk) : (l.foldl g s).1.clk = s.1.clk := by
  induction l generalizing s with
  | nil => rfl
  | cons x l ih => simp [List.foldl, ih, h]
@[simp] theorem State.wrB_clk (s : State) (f : Fld) (b : Bool) (i : Nat) (j : Nat) :
    (State.wrB s f b i j).clk = s.clk := by simp [State.wrB]
@[simp] theorem State.bump_clk (s : State) (f : Fld) (n : Nat) (i : Nat) (j : Nat) :
    (State.bump s f n i j).clk = s.clk := by simp [State.bump]
@[simp] theorem State.bumpWrap_clk (s : State) (f : Fld) (n : Nat) (i : Nat) (j : Nat) :
    (State.bumpWrap s f n i j).clk = s.clk := by simp [State.bumpWrap]
@[simp] theorem State.cntAdd_clk (s : State) (p : Page) (i k n : Nat) :
    (State.cntAdd s p i k n).clk = s.clk := by simp [State.cntAdd]
@[simp] theorem State.count1_clk (s : State) (p : Page) (i code n k : Nat) : (State.count1 s p i code n k).clk = s.clk := by
  unfold State.count1; (repeat' split) <;> simp
@[simp] theorem State.count_clk (s : State) (p : Page) (i code : Nat) (n : Nat) :
    (State.count s p i code n).clk = s.clk := by simp [State.count]
theorem wmCheck_clk (r : Page → Nat → Nat → State → State) (h : ∀ p i b s, (r p i b s).clk = s.clk) (w level : Nat) (s : State) :
    (wmCheck r w level s).clk = s.clk := by
  unfold wmCheck; dsimp only; split <;> simp [h]
theorem queueItem_clk (r : Page → Nat → Nat → State → State) (h : ∀ p i b s, (r p i b s).clk = s.clk) (x : W64) (s : State) :
    (queueItem r x s).clk = s.clk := by
  unfold queueItem; split <;> simp [h, wmCheck_clk r h]
@[simp] theorem State.msixFire_clk (s : State) (v : Nat) : (State.msixFire s v).clk = s.clk := by simp [State.msixFire]
@[simp] theorem State.chainSend_clk (s : State) (side : ChainSide) (f : BitVec 96) (fwd : Bool) (at' : Nat) :
    (State.chainSend s side f fwd at').clk = s.clk := by simp [State.chainSend]
@[simp] theorem State.chainPump_clk (s : State) (upTo : Nat) : (State.chainPump s upTo).clk = s.clk := by
  unfold State.chainPump; (repeat' split) <;> simp
@[simp] theorem State.chainOwn_clk (s : State) (side : ChainSide) (f : BitVec 96) :
    (State.chainOwn s side f).clk = s.clk := by simp [State.chainOwn]
@[simp] theorem State.notify_clk (s : State) : (State.notify s).clk = s.clk := by simp [State.notify]
theorem becomePending_clk (r : Page → Nat → Nat → State → State) (h : ∀ p i b s, (r p i b s).clk = s.clk) (p : Page) (i b : Nat)
    (w : Bool) (s : State) : (becomePending r p i b w s).clk = s.clk := by
  unfold becomePending; simp [queueItem_clk r h]
@[simp] theorem raiseN_clk (n : Nat) (p : Page) (i b : Nat) (s : State) : (raiseN n p i b s).clk = s.clk := by
  induction n generalizing p i b s with
  | zero => rfl
  | succ n ih => unfold raiseN; simp only [ite_clk]; (repeat' split) <;> simp [becomePending_clk _ ih]
@[simp] theorem wmCheck_raiseN_clk (n w l : Nat) (s : State) : (wmCheck (raiseN n) w l s).clk = s.clk :=
  wmCheck_clk _ (fun p i b s => raiseN_clk n p i b s) w l s
@[simp] theorem queueItem_raiseN_clk (n : Nat) (x : W64) (s : State) : (queueItem (raiseN n) x s).clk = s.clk :=
  queueItem_clk _ (fun p i b s => raiseN_clk n p i b s) x s
@[simp] theorem becomePending_raiseN_clk (n : Nat) (p : Page) (i b : Nat) (w : Bool) (s : State) :
    (becomePending (raiseN n) p i b w s).clk = s.clk := becomePending_clk _ (fun p i b s => raiseN_clk n p i b s) p i b w s
@[simp] theorem State.raise_clk (s : State) (p : Page) (i b : Nat) : (State.raise s p i b).clk = s.clk := by simp [State.raise]
@[simp] theorem State.setRaw_clk (s : State) (p : Page) (i b : Nat) (v : Bool) :
    (State.setRaw s p i b v).clk = s.clk := by simp [State.setRaw]
@[simp] theorem State.watermark_clk (s : State) (w level : Nat) :
    (State.watermark s w level).clk = s.clk := by simp [State.watermark]
@[simp] theorem State.lostItem_clk (s : State) (slotFabric edit : Bool) (offset : Nat) :
    (State.lostItem s slotFabric edit offset).clk = s.clk := by simp [State.lostItem]
@[simp] theorem State.recordRecovery_clk (s : State) (cause wh : Nat) :
    (State.recordRecovery s cause wh).clk = s.clk := by simp [State.recordRecovery]
@[simp] theorem State.recover_clk (s : State) (cause wh : Nat) : (State.recover s cause wh).clk = s.clk := by simp [State.recover]
@[simp] theorem ok_clk (s : State) : clkKept s (ok s) := by simp [ok]
@[simp] theorem State.onPage_clk (s : State) (p : Page) (i : Nat) (f : State → State) (h : ∀ s, (f s).clk = s.clk) :
    clkKept s (s.onPage p i f) := by
  unfold State.onPage; split <;> simp [h]
@[simp] theorem State.readyChk_clk (s : State) : (State.readyChk s).clk = s.clk := by simp [State.readyChk]
@[simp] theorem State.spPut_clk (s : State) (o : Nat) (b : Byte) : (State.spPut s o b).clk = s.clk := by simp [State.spPut]
@[simp] theorem State.spWrite_clk (s : State) (o : Nat) (bs : List Byte) : (s.spWrite o bs).clk = s.clk := by
  induction bs generalizing s o with
  | nil => rfl
  | cons b r ih => simp [State.spWrite, ih]
@[simp] theorem State.spDet_clk (s : State) (o : Nat) (b : Bool) : (State.spDet s o b).clk = s.clk := by simp [State.spDet]
@[simp] theorem State.portLatch_clk (s : State) (p : Port) (c : PortCmd) :
    (State.portLatch s p c).clk = s.clk := by simp [State.portLatch]
@[simp] theorem State.portFree_clk (s : State) (p : Port) : (State.portFree s p).clk = s.clk := by simp [State.portFree]
@[simp] theorem State.updLane_clk (s : State) (n : Nat) (f : Lane → Lane) :
    (State.updLane s n f).clk = s.clk := by simp [State.updLane]
@[simp] theorem State.setDef_clk (s : State) (n b : Nat) (v : Bool) : (State.setDef s n b v).clk = s.clk := by simp [State.setDef]
@[simp] theorem State.integStart_clk (s : State) (n b : Nat) (v : Bool) :
    (State.integStart s n b v).clk = s.clk := by simp [State.integStart]
@[simp] theorem State.setRawDef_clk (s : State) (n b : Nat) (v : Bool) :
    (State.setRawDef s n b v).clk = s.clk := by simp [State.setRawDef]
@[simp] theorem State.showCands_clk (s : State) (n : Nat) : (State.showCands s n).clk = s.clk := by simp [State.showCands]
@[simp] theorem State.cellDropped_clk (s : State) (n : Nat) : (State.cellDropped s n).clk = s.clk := by simp [State.cellDropped]
@[simp] theorem State.enterSearch_clk (s : State) (n : Nat) : (State.enterSearch s n).clk = s.clk := by simp [State.enterSearch]
@[simp] theorem State.enterSync_clk (s : State) (n : Nat) : (State.enterSync s n).clk = s.clk := by simp [State.enterSync]
@[simp] theorem State.eyeStop_clk (s : State) (n : Nat) : (State.eyeStop s n).clk = s.clk := by simp [State.eyeStop]
@[simp] theorem State.judgeLol_clk (s : State) (n : Nat) : (State.judgeLol s n).clk = s.clk := by simp [State.judgeLol]
@[simp] theorem State.judgeLos_clk (s : State) (n : Nat) :
    (State.judgeLos s n).clk = s.clk := by unfold State.judgeLos; split <;> simp
@[simp] theorem State.setDxRx_clk (s : State) (l : Nat) (r : DxRx) : (State.setDxRx s l r).clk = s.clk := by
  simp [State.setDxRx]
@[simp] theorem State.dxJudge_clk (s : State) (l : Nat) : (State.dxJudge s l).clk = s.clk := by simp [State.dxJudge]
@[simp] theorem State.sigDet_clk (s : State) (l : LaneId) (present : Bool) :
    (State.sigDet s l present).clk = s.clk := by
  unfold State.sigDet; simp only []; split <;> simp
@[simp] theorem execSigDetChange_clk (l : LaneId) (present : Bool) (s : State) :
    clkKept s (execSigDetChange l present s) := by simp [execSigDetChange]
@[simp] theorem State.cdrLock_clk (s : State) (l : LaneId) (locked : Bool) :
    (State.cdrLock s l locked).clk = s.clk := by
  unfold State.cdrLock; simp only []; split <;> simp
@[simp] theorem execCdrLockChange_clk (l : LaneId) (locked : Bool) (s : State) :
    clkKept s (execCdrLockChange l locked s) := by simp [execCdrLockChange]
@[simp] theorem State.refRangeLane_clk (s : State) (n : Nat) :
    (State.refRangeLane s n).clk = s.clk := by simp [State.refRangeLane]
@[simp] theorem State.pllLane_clk (locked : Bool) (s : State) (n : Nat) :
    (State.pllLane locked s n).clk = s.clk := by simp [State.pllLane]
@[simp] theorem State.refOffsetLane_clk (off : Int) (s : State) (n : Nat) :
    (State.refOffsetLane off s n).clk = s.clk := by simp [State.refOffsetLane]
@[simp] theorem State.refRangeClearLane_clk (s : State) (n : Nat) :
    (State.refRangeClearLane s n).clk = s.clk := by simp [State.refRangeClearLane]
@[simp] theorem execQuadPllLockChange_clk (q : RefClk) (locked : Bool) (s : State) :
    clkKept s (execQuadPllLockChange q locked s) := by
  unfold execQuadPllLockChange; simp only []; split <;> simp
@[simp] theorem execRefOffsetUpdate_clk (q : RefClk) (off : Int) (s : State) : clkKept s (execRefOffsetUpdate q off s) := by
  unfold execRefOffsetUpdate; simp only []; split <;> simp
@[simp] theorem execRefRangeClear_clk (q : RefClk) (s : State) : clkKept s (execRefRangeClear q s) := by
  unfold execRefRangeClear; simp only []; split <;> simp
@[simp] theorem State.integJudge_clk (s : State) (n b : Nat) : (State.integJudge s n b).clk = s.clk := by
  simp [State.integJudge]
@[simp] theorem execLaneDefectDeclare_clk (n : Fin 64) (d : LaneDefect) (run : Nat) (s : State) :
    clkKept s (execLaneDefectDeclare n d run s) := by simp [execLaneDefectDeclare]
@[simp] theorem execLaneDefectClear_clk (n : Fin 64) (d : LaneDefect) (run : Nat) (s : State) :
    clkKept s (execLaneDefectClear n d run s) := by simp [execLaneDefectClear]
@[simp] theorem execFillerBerCheck_clk (n : Fin 64) (s : State) :
    clkKept s (execFillerBerCheck n s) := by simp [execFillerBerCheck]
@[simp] theorem State.integJudgeDrw_clk (s : State) (n c b : Nat) : (State.integJudgeDrw s n c b).clk = s.clk := by
  simp [State.integJudgeDrw]
@[simp] theorem execDrawerDefectDeclare_clk (n : Fin 64) (c : BitVec 13) (d : DrawerDefect) (run : Nat) (s : State) :
    clkKept s (execDrawerDefectDeclare n c d run s) := by simp [execDrawerDefectDeclare]
@[simp] theorem execDrawerDefectClear_clk (n : Fin 64) (c : BitVec 13) (d : DrawerDefect) (run : Nat) (s : State) :
    clkKept s (execDrawerDefectClear n c d run s) := by simp [execDrawerDefectClear]
@[simp] theorem State.integWrite_clk (s : State) (n : Nat) (r : IntegReg) (set clr : Nat) :
    (State.integWrite s n r set clr).clk = s.clk := by
  unfold State.integWrite; simp only []; split <;> simp
@[simp] theorem execIntegWrite_clk (n : Fin 64) (r : IntegReg) (set clear : Byte) (s : State) :
    clkKept s (execIntegWrite n r set clear s) := by simp [execIntegWrite]
@[simp] theorem State.eqShowRec_clk (s : State) (n : Nat) (r : List Byte) :
    (State.eqShowRec s n r).clk = s.clk := by simp [State.eqShowRec]
@[simp] theorem State.eqShow_clk (s : State) (n : Nat) : (State.eqShow s n).clk = s.clk := by simp [State.eqShow]
@[simp] theorem State.eqFail_clk (s : State) (n : Nat) (f : Fld) : (State.eqFail s n f).clk = s.clk := by simp [State.eqFail]
@[simp] theorem State.eqTake_clk (s : State) (n : Nat) (rs : List (List Byte)) :
    (State.eqTake s n rs).clk = s.clk := by simp [State.eqTake]
@[simp] theorem State.eqLoad_clk (s : State) (n : Nat) : (State.eqLoad s n).clk = s.clk := by simp [State.eqLoad]
@[simp] theorem execEqLoad_clk (n : Fin 64) (s : State) : clkKept s (execEqLoad n s) := by simp [execEqLoad]
@[simp] theorem execEqLoadDone_clk (n : Fin 64) (s : State) : clkKept s (execEqLoadDone n s) := by
  unfold execEqLoadDone; dsimp only; (repeat' split) <;> simp
@[simp] theorem State.laneEnSet_clk (s : State) (n : Nat) : (State.laneEnSet s n).clk = s.clk := by simp [State.laneEnSet]
@[simp] theorem execLaneEnSet_clk (n : Fin 64) (s : State) : clkKept s (execLaneEnSet n s) := by simp [execLaneEnSet]
@[simp] theorem State.laneEnClear_clk (s : State) (n : Nat) : (State.laneEnClear s n).clk = s.clk := by simp [State.laneEnClear]
@[simp] theorem execLaneEnClear_clk (n : Fin 64) (s : State) : clkKept s (execLaneEnClear n s) := by simp [execLaneEnClear]
@[simp] theorem State.rateWrite_clk (s : State) (n rate : Nat) :
    (State.rateWrite s n rate).clk = s.clk := by simp [State.rateWrite]
@[simp] theorem execRateWrite_clk (n : Fin 64) (rate : BitVec 2) (s : State) :
    clkKept s (execRateWrite n rate s) := by simp [execRateWrite]
@[simp] theorem State.loopWrite_clk (s : State) (n loop : Nat) :
    (State.loopWrite s n loop).clk = s.clk := by simp [State.loopWrite]
@[simp] theorem execLoopWrite_clk (n : Fin 64) (loop : BitVec 2) (s : State) :
    clkKept s (execLoopWrite n loop s) := by simp [execLoopWrite]
@[simp] theorem State.eyeStart_clk (s : State) (n : Nat) : (State.eyeStart s n).clk = s.clk := by simp [State.eyeStart]
@[simp] theorem execEyeStart_clk (n : Fin 64) (s : State) : clkKept s (execEyeStart n s) := by simp [execEyeStart]
@[simp] theorem execEyeAbort_clk (n : Fin 64) (s : State) : clkKept s (execEyeAbort n s) := by simp [execEyeAbort]
@[simp] theorem execEyePointDone_clk (n : Fin 64) (count : Nat) (s : State) :
    clkKept s (execEyePointDone n count s) := by simp [execEyePointDone]
@[simp] theorem State.candOpen_clk (s : State) (l : LaneId) (p : Nat) : (State.candOpen s l p).clk = s.clk := by
  unfold State.candOpen; simp only []; split <;> simp
@[simp] theorem execFasCandidateOpen_clk (l : LaneId) (p : Nat) (s : State) :
    clkKept s (execFasCandidateOpen l p s) := by simp [execFasCandidateOpen]
@[simp] theorem State.candConfirm_clk (s : State) (l : LaneId) (p q stuff diff : Nat) :
    (State.candConfirm s l p q stuff diff).clk = s.clk := by
  unfold State.candConfirm; dsimp only; (repeat' split) <;> simp
@[simp] theorem execFasCandidateConfirm_clk (l : LaneId) (p q stuff diff : Nat) (s : State) :
    clkKept s (execFasCandidateConfirm l p q stuff diff s) := by simp [execFasCandidateConfirm]
@[simp] theorem State.candDrop_clk (s : State) (l : LaneId) (p : Nat) : (State.candDrop s l p).clk = s.clk := by
  unfold State.candDrop; simp only []; split <;> simp
@[simp] theorem execFasCandidateDrop_clk (l : LaneId) (p : Nat) (s : State) :
    clkKept s (execFasCandidateDrop l p s) := by simp [execFasCandidateDrop]
@[simp] theorem State.acceptOh_clk (s : State) (n : Nat) (lo : List Byte) : (State.acceptOh s n lo).clk = s.clk := by
  unfold State.acceptOh; dsimp only; (repeat' split) <;> simp
@[simp] theorem State.acceptLabel_clk (s : State) (n : Nat) (lo : List Byte) : (State.acceptLabel s n lo).clk = s.clk := by
  unfold State.acceptLabel; simp only []; split <;> simp
@[simp] theorem State.acceptAlarms_clk (s : State) (n : Nat) (lo : List Byte) :
    (State.acceptAlarms s n lo).clk = s.clk := by simp [State.acceptAlarms]
@[simp] theorem State.wrTrace_clk (s : State) (f : Fld) (n : Nat) (m : List Byte) :
    (State.wrTrace s f n m).clk = s.clk := by simp [State.wrTrace]
@[simp] theorem State.acceptTrace_clk (s : State) (n : Nat) (b : Byte) : (State.acceptTrace s n b).clk = s.clk := by
  unfold State.acceptTrace; simp only []; split <;> simp
@[simp] theorem State.checkBip_clk (s : State) (n : Nat) (lo : List Byte) (bip : Nat) :
    (State.checkBip s n lo bip).clk = s.clk := by
  unfold State.checkBip; simp only []; split <;> simp
@[simp] theorem State.frameLength_clk (s : State) (n : Nat) (lo : List Byte) (removed fill : Nat) :
    (State.frameLength s n lo removed fill).clk = s.clk := by simp [State.frameLength]
@[simp] theorem State.deliver_clk (s : State) (n : Nat) (skew : Nat) (payload : List Byte) :
    (State.deliver s n skew payload).clk = s.clk := by simp [State.deliver]
@[simp] theorem State.loopTake_clk (s : State) (n : Nat) (payload : List Byte) :
    (State.loopTake s n payload).clk = s.clk := by simp [State.loopTake]
@[simp] theorem State.rxDeliver_clk (s : State) (n : Nat) (f : LineFrame) (skew : Nat) :
    (State.rxDeliver s n f skew).clk = s.clk := by simp [State.rxDeliver]
@[simp] theorem State.rxFas_clk (s : State) (n : Nat) (errored : Bool) :
    (State.rxFas s n errored).clk = s.clk := by simp [State.rxFas]
theorem State.rxFrame_clk (s : State) (n : Nat) (bs : List Bool) (skew : Nat) :
    ∀ t, State.rxFrame s n bs skew = some t → t.clk = s.clk := by
  intro t h; unfold State.rxFrame at h
  split at h
  · cases h
  · rw [← Option.some.inj h]; simp
theorem State.laneRxHorale_clk (s : State) (n : Nat) (f : RxFrame) :
    ∀ t, State.laneRxHorale s n f = some t → t.clk = s.clk := by
  intro t h; unfold State.laneRxHorale at h
  split at h
  · rw [← Option.some.inj h]
  · split at h
    · split at h
      · rw [← Option.some.inj h]
      · exact State.rxFrame_clk _ _ _ _ _ h
    · exact State.rxFrame_clk _ _ _ _ _ h
@[simp] theorem State.takeCell_clk (s : State) (n : Nat) : (State.takeCell s n).1.clk = s.clk := by
  unfold State.takeCell; dsimp only; (repeat' split) <;> simp
@[simp] theorem State.loopSent_clk (s : State) (n : Nat) : (State.loopSent s n).clk = s.clk := by simp [State.loopSent]
@[simp] theorem State.txClose_clk (s : State) (n : Nat) (bits : Nat) : (State.txClose s n bits).clk = s.clk := by
  unfold State.txClose; simp only []; split <;> simp
@[simp] theorem State.txStart_clk (s : State) (n : Nat) : (State.txStart s n).clk = s.clk := by simp [State.txStart]
@[simp] theorem State.frameTickHorale_clk (s : State) (n : Nat) (bits : Nat) :
    (State.frameTickHorale s n bits).clk = s.clk := by
  unfold State.frameTickHorale; (repeat' split) <;> simp
@[simp] theorem execRxFramerTimeout_clk (n : Fin 64) (s : State) :
    clkKept s (execRxFramerTimeout n s) := by simp [execRxFramerTimeout]
@[simp] theorem execTxFramerTimeout_clk (n : Fin 64) (s : State) :
    clkKept s (execTxFramerTimeout n s) := by simp [execTxFramerTimeout]
@[simp] theorem State.drwCmd_clk (s : State) (n op : Nat) : (State.drwCmd s n op).clk = s.clk := by simp [State.drwCmd]
@[simp] theorem execDrwRead_clk (n : Fin 64) (s : State) : clkKept s (execDrwRead n s) := by simp [execDrwRead]
@[simp] theorem execDrwReadClear_clk (n : Fin 64) (s : State) : clkKept s (execDrwReadClear n s) := by simp [execDrwReadClear]
@[simp] theorem execDrwWrite_clk (n : Fin 64) (s : State) : clkKept s (execDrwWrite n s) := by simp [execDrwWrite]
@[simp] theorem State.wrDrwCfg_clk (s : State) (n w : Nat) : (State.wrDrwCfg s n w).clk = s.clk := by simp [State.wrDrwCfg]
@[simp] theorem State.drwCapture_clk (s : State) (n : Nat) (d : Drawer) :
    (State.drwCapture s n d).clk = s.clk := by simp [State.drwCapture]
@[simp] theorem State.drwDone_clk (s : State) (n : Nat) (c : PortCmd) :
    (State.drwDone s n c).clk = s.clk := by simp [State.drwDone]
@[simp] theorem State.busErr_clk (s : State) (m t addr cause : Nat) :
    (State.busErr s m t addr cause).clk = s.clk := by simp [State.busErr]
@[simp] theorem State.dramJudge_clk (s : State) : (State.dramJudge s).clk = s.clk := (rfl)
@[simp] theorem State.dramBringUp_clk (s : State) (c : Nat) : (State.dramBringUp s c).clk = s.clk := by simp [State.dramBringUp]
@[simp] theorem State.dramCfgWrite_clk (s : State) (c v : Nat) :
    (State.dramCfgWrite s c v).clk = s.clk := by simp [State.dramCfgWrite]
@[simp] theorem execDramCfgWrite_clk (c : Fin 2) (v : W32) (s : State) :
    clkKept s (execDramCfgWrite c v s) := by simp [execDramCfgWrite]
@[simp] theorem State.dramLost_clk (s : State) (c : Nat) : (State.dramLost s c).clk = s.clk := by simp [State.dramLost]
@[simp] theorem execDramTrainDone_clk (c : Fin 2) (s : State) : clkKept s (execDramTrainDone c s) := by simp [execDramTrainDone]
@[simp] theorem State.trainFail_clk (s : State) (c step : Nat) :
    (State.trainFail s c step).clk = s.clk := by simp [State.trainFail]
@[simp] theorem execDramTrainFail_clk (c : Fin 2) (step : BitVec 4) (s : State) :
    clkKept s (execDramTrainFail c step s) := by simp [execDramTrainFail]
@[simp] theorem execDramTrainTimeout_clk (c : Fin 2) (s : State) :
    clkKept s (execDramTrainTimeout c s) := by simp [execDramTrainTimeout]
@[simp] theorem execDqsRetune_clk (x0 : Fin 2) (s : State) : clkKept s (execDqsRetune x0 s) := by simp [execDqsRetune]
@[simp] theorem execDramHotChange_clk (c : Fin 2) (hot : Bool) (s : State) :
    clkKept s (execDramHotChange c hot s) := by simp [execDramHotChange]
@[simp] theorem execDramQueueTimeout_clk (c : Fin 2) (sub : Bool) (s : State) :
    clkKept s (execDramQueueTimeout c sub s) := by simp [execDramQueueTimeout]
@[simp] theorem State.burstDet_clk (s : State) (burst cause region : Nat) :
    (State.burstDet s burst cause region).clk = s.clk := by simp [State.burstDet]
@[simp] theorem State.burstPut_clk (s : State) (region wtag burst : Nat) (data : List Byte) :
    (State.burstPut s region wtag burst data).clk = s.clk := by simp [State.burstPut]
@[simp] theorem State.burstGet_clk (s : State) (region wtag burst : Nat) :
    (State.burstGet s region wtag burst).1.clk = s.clk := by
  unfold State.burstGet; simp only []; split <;> simp
@[simp] theorem State.upset_clk (s : State) (us : List (Nat × List Byte)) : (State.upset s us).clk = s.clk := (rfl)
@[simp] theorem State.spUpset_clk (s : State) (os : List (BitVec 19)) : (State.spUpset s os).clk = s.clk := rfl
@[simp] theorem State.winWrite_clk (s : State) (w v : Nat) : (State.winWrite s w v).clk = s.clk := by simp [State.winWrite]
@[simp] theorem execWinEnable_clk (w : Fin 8) (v : W32) (s : State) : clkKept s (execWinEnable w v s) := by simp [execWinEnable]
@[simp] theorem State.burstWrite_clk (s : State) (burst o : Nat) (bs : List Byte) : (State.burstWrite s burst o bs).1.clk = s.clk := by
  unfold State.burstWrite; split
  · simp
  · have h := State.burstGet_clk s rgHost 0 burst
    split <;> (rename_i e; rw [e] at h; simpa using h)
@[simp] theorem State.deviceWrite_clk (n d : Nat) (bs : List Byte) (s : State) : (State.deviceWrite n d bs s).1.clk = s.clk := by
  induction n generalizing d bs s with
  | zero => rfl
  | succ n ih => unfold State.deviceWrite; dsimp only; (repeat' split) <;> simp [ih]
@[simp] theorem State.deviceRead_clk (n d len : Nat) (s : State) : (State.deviceRead n d len s).1.clk = s.clk := by
  induction n generalizing d len s with
  | zero => rfl
  | succ n ih =>
    unfold State.deviceRead; dsimp only; split
    · rfl
    · have h := State.burstGet_clk s rgHost 0 (d / 64)
      split
      · rename_i e; rw [e] at h; exact h
      · rename_i e; rw [e] at h; exact (ih ..).trans h
@[simp] theorem State.winRead_clk (n a len : Nat) (s : State) : (State.winRead n a len s).s.clk = s.clk := by
  induction n generalizing a len s with
  | zero => rfl
  | succ n ih =>
    unfold State.winRead; dsimp only; split
    · rfl
    · split
      · rfl
      · rename_i d _
        have h := State.deviceRead_clk (min len (windowLeft a) / 64 + 2) d.1 (min len (windowLeft a)) s
        split
        · rename_i e; rw [e] at h; exact h
        · rename_i e; rw [e] at h
          split <;> exact (ih ..).trans h
@[simp] theorem State.winStore_clk (n a : Nat) (bs : List Byte) (s : State) : (State.winStore n a bs s).s.clk = s.clk := by
  induction n generalizing a bs s with
  | zero => rfl
  | succ n ih => unfold State.winStore; dsimp only; (repeat' split) <;> simp [ih]
@[simp] theorem State.winReadBus_clk (s : State) (a len : Nat) : (State.winReadBus s a len).s.clk = s.clk := by
  simp [State.winReadBus]
@[simp] theorem State.winWriteBus_clk (s : State) (a : Nat) (bs : List Byte) : (State.winWriteBus s a bs).s.clk = s.clk := by
  simp [State.winWriteBus]
@[simp] theorem State.spReadBus_clk (s : State) (a len : Nat) : (State.spReadBus s a len).s.clk = s.clk := by
  unfold State.spReadBus; simp only []; split <;> simp
@[simp] theorem State.spWriteBus_clk (s : State) (a : Nat) (bs : List Byte) :
    (State.spWriteBus s a bs).s.clk = s.clk := by simp [State.spWriteBus]
@[simp] theorem Resp.note_clk (r : Resp) (m t addr : Nat) : (r.note m t addr).s.clk = r.s.clk := by
  unfold Resp.note; split <;> simp
@[simp] theorem State.setBank_clk (s : State) (edit : Bool) (b : Bank) :
    (State.setBank s edit b).clk = s.clk := by simp [State.setBank]
@[simp] theorem State.setEdit_clk (s : State) (b : Bank) : (State.setEdit s b).clk = s.clk := by simp [State.setEdit]
@[simp] theorem State.sumStale_clk (s : State) (edit : Bool) : (State.sumStale s edit).clk = s.clk := by
  simp [State.sumStale]
@[simp] theorem State.loseWord_clk (s : State) (edit : Bool) (k : Nat) :
    (State.loseWord s edit k).clk = s.clk := by simp [State.loseWord]
@[simp] theorem State.routeWrite_clk (s : State) (edit : Bool) (x : Nat) :
    (State.routeWrite s edit x).clk = s.clk := by simp [State.routeWrite]
@[simp] theorem State.routeRead_clk (s : State) (edit : Bool) (k : Nat) : (State.routeRead s edit k).1.clk = s.clk := by
  unfold State.routeRead; dsimp only; split
  · rfl
  · have h := State.burstGet_clk s rgRoute 0 (routeBurst (s.imageOf edit) (burstKey k))
    split <;> (rename_i e; rw [e] at h; exact h)
@[simp] theorem State.rebuild_clk (s : State) (edit : Bool) (k : Nat) : (State.rebuild s edit k).clk = s.clk := by
  unfold State.rebuild; dsimp only
  have h := State.routeRead_clk s edit k
  split
  · rename_i e; rw [e] at h; simpa using h
  · rename_i e; rw [e] at h; split <;> simpa using h
@[simp] theorem execWordRecompute_clk (w : WordRef) (altered : List (Nat × List Byte)) (s : State) : clkKept s (execWordRecompute w altered s) := by
  simp [execWordRecompute]
@[simp] theorem State.sweepSlot_clk (s : State) (edit : Bool) (t : Nat) :
    (State.sweepSlot s edit t).clk = s.clk := by simp [State.sweepSlot]
@[simp] theorem execCentreLossSweep_clk (s : State) : clkKept s (execCentreLossSweep s) := by
  unfold execCentreLossSweep; simp only []; split <;> simp
@[simp] theorem execRouteBurstWrite_clk (f : Fabric) (edit : Bool) (burst : Nat) (s : State) :
    clkKept s (execRouteBurstWrite f edit burst s) := by simp [execRouteBurstWrite]
@[simp] theorem State.cmReadBus_clk (s : State) (slotFabric : Bool) (a len : Nat) :
    (State.cmReadBus s slotFabric a len).s.clk = s.clk := by simp [State.cmReadBus]
@[simp] theorem State.cmPut_clk (slotFabric : Bool) (x : Nat) (v : Byte) (s : State) :
    (State.cmPut slotFabric x v s).clk = s.clk := by simp [State.cmPut]
@[simp] theorem State.cmWriteBus_clk (s : State) (slotFabric : Bool) (a : Nat) (bs : List Byte) :
    (State.cmWriteBus s slotFabric a bs).s.clk = s.clk := by simp [State.cmWriteBus]
@[simp] theorem State.listRead_clk (s : State) (a len : Nat) : (s.listRead a len).s.clk = s.clk := by
  unfold State.listRead; (repeat' split) <;> simp
@[simp] theorem State.queueMark_clk (s : State) : (State.queueMark s).clk = s.clk := by simp [State.queueMark]
@[simp] theorem State.mapRefused_clk (s : State) : (State.mapRefused s).clk = s.clk := by simp [State.mapRefused]
@[simp] theorem State.enqueue_clk (s : State) (r : Req) : (State.enqueue s r).clk = s.clk := by simp [State.enqueue]
@[simp] theorem State.listEnd_clk (s : State) : (State.listEnd s).clk = s.clk := by simp [State.listEnd]
@[simp] theorem State.listCheck_clk (s : State) : (State.listCheck s).clk = s.clk := by simp [State.listCheck]
@[simp] theorem State.dequeue_clk (s : State) (r : Req) : (State.dequeue s r).clk = s.clk := by simp [State.dequeue]
@[simp] theorem State.reject_clk (s : State) (word reason : Nat) :
    (State.reject s word reason).clk = s.clk := by simp [State.reject]
@[simp] theorem State.accept_clk (s : State) (b : Bank) (placed released : Nat) :
    (State.accept s b placed released).clk = s.clk := by simp [State.accept]
@[simp] theorem State.takeRequest_clk (s : State) (op : Nat) (f : Nat → Effect) : (State.takeRequest s op f).clk = s.clk := by
  unfold State.takeRequest; dsimp only; (repeat' split) <;> simp
@[simp] theorem execMapConnect_clk (s : State) : clkKept s (execMapConnect s) := by simp [execMapConnect]
@[simp] theorem execMapUneq_clk (s : State) : clkKept s (execMapUneq s) := by simp [execMapUneq]
@[simp] theorem execMapAis_clk (s : State) : clkKept s (execMapAis s) := by simp [execMapAis]
@[simp] theorem execSlot_clk (s : State) : clkKept s (execSlot s) := by simp [execSlot]
@[simp] theorem execConst_clk (s : State) : clkKept s (execConst s) := by simp [execConst]
@[simp] theorem execParty_clk (s : State) : clkKept s (execParty s) := by simp [execParty]
@[simp] theorem execHear_clk (s : State) : clkKept s (execHear s) := by simp [execHear]
@[simp] theorem State.replaceRoute_clk (allowed : Nat) (s : State) (c : Nat × Nat × Nat × Nat) :
    (State.replaceRoute allowed s c).clk = s.clk := by
  unfold State.replaceRoute; simp only []; split <;> simp
@[simp] theorem State.replaceGroups_clk (s : State) (gone : Nat) :
    (State.replaceGroups s gone).clk = s.clk := by simp [State.replaceGroups]
@[simp] theorem State.planeEnWrite_clk (s : State) (v : Nat) :
    (State.planeEnWrite s v).clk = s.clk := by simp [State.planeEnWrite]
@[simp] theorem execPlaneEnWrite_clk (v : BitVec 8) (s : State) : clkKept s (execPlaneEnWrite v s) := by simp [execPlaneEnWrite]
@[simp] theorem State.purge_clk (s : State) (n : Nat) : (State.purge s n).clk = s.clk := by simp [State.purge]
@[simp] theorem State.mapInit_clk (s : State) : (State.mapInit s).clk = s.clk := by simp [State.mapInit]
@[simp] theorem State.clearWords_clk (s : State) (f : Fld) (n : Nat) :
    (State.clearWords s f n).clk = s.clk := by simp [State.clearWords]
@[simp] theorem State.checkTag_clk (s : State) (hdr body tag : List Byte) : (State.checkTag s hdr body tag).1.clk = s.clk := by
  unfold State.checkTag; (repeat' split) <;> simp
@[simp] theorem State.commitTag_clk (s : State) (a : Ask) : (State.commitTag s a).1.clk = s.clk := by
  unfold State.commitTag; (repeat' split) <;> simp
@[simp] theorem State.newAuthSeq_clk (s : State) : (State.newAuthSeq s).clk = s.clk := by simp [State.newAuthSeq]
@[simp] theorem State.wipeKeys_clk (s : State) : (State.wipeKeys s).clk = s.clk := by simp [State.wipeKeys]
@[simp] theorem State.lcUsed_clk (s : State) : (State.lcUsed s).clk = s.clk := by simp [State.lcUsed]
@[simp] theorem State.lcGo_clk (s : State) (target : Nat) : (State.lcGo s target).clk = s.clk := by
  unfold State.lcGo; simp only []; split <;> simp
@[simp] theorem execLcGo_clk (target : BitVec 2) (s : State) : clkKept s (execLcGo target s) := by simp [execLcGo]
@[simp] theorem State.lcEnd_clk (s : State) (target : Nat) : (State.lcEnd s target).clk = s.clk := by simp [State.lcEnd]
@[simp] theorem execLcDone_clk (s : State) : clkKept s (execLcDone s) := by
  unfold execLcDone; simp only []; split <;> simp
@[simp] theorem State.loadIdKey_clk (s : State) : (State.loadIdKey s).clk = s.clk := by simp [State.loadIdKey]
@[simp] theorem State.loadAuthKey_clk (s : State) : (State.loadAuthKey s).clk = s.clk := by simp [State.loadAuthKey]
@[simp] theorem State.keyCmd_clk (s : State) (v : Nat) : (State.keyCmd s v).clk = s.clk := by simp [State.keyCmd]
@[simp] theorem execLoadId_clk (s : State) : clkKept s (execLoadId s) := by simp [execLoadId]
@[simp] theorem execLoadAuth_clk (s : State) : clkKept s (execLoadAuth s) := by simp [execLoadAuth]
@[simp] theorem State.enforceWrite_clk (s : State) (on : Bool) :
    (State.enforceWrite s on).clk = s.clk := by simp [State.enforceWrite]
@[simp] theorem execEnforceWrite_clk (on : Bool) (s : State) : clkKept s (execEnforceWrite on s) := by simp [execEnforceWrite]
@[simp] theorem execTamper_clk (s : State) : clkKept s (execTamper s) := by simp [execTamper]
@[simp] theorem execTamperNRelease_clk (s : State) : clkKept s (execTamperNRelease s) := by simp [execTamperNRelease]
@[simp] theorem State.respond_clk (s : State) : (State.respond s).clk = s.clk := by simp [State.respond]
@[simp] theorem execRespond_clk (s : State) : clkKept s (execRespond s) := by simp [execRespond]
@[simp] theorem execIdResponseReady_clk (s : State) : clkKept s (execIdResponseReady s) := by
  unfold execIdResponseReady; dsimp only; (repeat' split) <;> simp
@[simp] theorem State.mirrorSend_clk (s : State) (type row : Nat) (body : List Byte) :
    (State.mirrorSend s type row body).clk = s.clk := by simp [State.mirrorSend]
@[simp] theorem State.submit_clk (s : State) (w : W64) (auth list : Bool) :
    (State.submit s w auth list).clk = s.clk := by simp [State.submit]
@[simp] theorem State.reqPush_clk (s : State) (hi : Nat) : (State.reqPush s hi).clk = s.clk := by simp [State.reqPush]
@[simp] theorem execReqPush_clk (hi : W32) (s : State) : clkKept s (execReqPush hi s) := by simp [execReqPush]
@[simp] theorem State.listStart_clk (s : State) : (State.listStart s).clk = s.clk := by simp [State.listStart]
@[simp] theorem execListStart_clk (s : State) : clkKept s (execListStart s) := by simp [execListStart]
@[simp] theorem State.listAbort_clk (s : State) : (State.listAbort s).clk = s.clk := by simp [State.listAbort]
@[simp] theorem execListAbort_clk (s : State) : clkKept s (execListAbort s) := by simp [execListAbort]
@[simp] theorem State.rejectAll_clk (ws : List Nat) (reason : Nat) (s : State) :
    (State.rejectAll ws reason s).clk = s.clk := by simp [State.rejectAll]
@[simp] theorem execListRequestFetch_clk (s : State) : clkKept s (execListRequestFetch s) := by
  unfold execListRequestFetch; dsimp only; (repeat' split) <;> simp
@[simp] theorem State.commitRefused_clk (s : State) : (State.commitRefused s).clk = s.clk := by simp [State.commitRefused]
@[simp] theorem State.commitGone_clk (s : State) : (State.commitGone s).clk = s.clk := by simp [State.commitGone]
@[simp] theorem State.commitPend_clk (s : State) (kind : CommitKind) (held : Bool) :
    (State.commitPend s kind held).clk = s.clk := by simp [State.commitPend]
@[simp] theorem State.commitCancel_clk (s : State) : (State.commitCancel s).clk = s.clk := by
  unfold State.commitCancel; (repeat' split) <;> simp
@[simp] theorem State.commitHold_clk (s : State) (now arm drop cancel : Bool) (epoch : Nat) :
    (State.commitHold s now arm drop cancel epoch).clk = s.clk := by simp [State.commitHold]
@[simp] theorem State.commitNew_clk (s : State) (a : Ask) : (State.commitNew s a).clk = s.clk := by
  simp [State.commitNew]
@[simp] theorem State.cancelAsk_clk (s : State) : (State.cancelAsk s).clk = s.clk := by simp [State.cancelAsk]
@[simp] theorem State.commitAsk_clk (s : State) (a : Ask) : (State.commitAsk s a).clk = s.clk := by
  simp [State.commitAsk]
@[simp] theorem State.listChecked_clk (s : State) : (State.listChecked s).clk = s.clk := by simp [State.listChecked]
@[simp] theorem execListTagCheckDone_clk (s : State) : clkKept s (execListTagCheckDone s) := by
  simp [execListTagCheckDone]
@[simp] theorem State.sumAsk_clk (s : State) (act edit : Bool) : (State.sumAsk s act edit).clk = s.clk := by simp [State.sumAsk]
@[simp] theorem execSumAct_clk (s : State) : clkKept s (execSumAct s) := by simp [execSumAct]
@[simp] theorem execSumEdit_clk (s : State) : clkKept s (execSumEdit s) := by simp [execSumEdit]
@[simp] theorem State.rebuildBad_clk (s : State) (edit : Bool) :
    (State.rebuildBad s edit).clk = s.clk := by simp [State.rebuildBad]
@[simp] theorem State.sumActive_clk (s : State) : (State.sumActive s).clk = s.clk := by simp [State.sumActive]
@[simp] theorem State.sumEditing_clk (s : State) : (State.sumEditing s).clk = s.clk := by simp [State.sumEditing]
@[simp] theorem execSumDone_clk (s : State) : clkKept s (execSumDone s) := by simp [execSumDone]
@[simp] theorem State.commitWrite_clk (s : State) (v : Nat) : (State.commitWrite s v).clk = s.clk := by
  simp [State.commitWrite]
@[simp] theorem State.commitCtlWrite_clk (s : State) (v : Nat) :
    (State.commitCtlWrite s v).clk = s.clk := by simp [State.commitCtlWrite]
@[simp] theorem execCommitNow_clk (s : State) : clkKept s (execCommitNow s) := by simp [execCommitNow]
@[simp] theorem execCommitArm_clk (dropLate : Bool) (s : State) : clkKept s (execCommitArm dropLate s) := by simp [execCommitArm]
@[simp] theorem execCommitCancel_clk (s : State) : clkKept s (execCommitCancel s) := by simp [execCommitCancel]
@[simp] theorem State.lateDrop_clk (s : State) : (State.lateDrop s).clk = s.clk := by simp [State.lateDrop]
@[simp] theorem State.commitTake_clk (s : State) : (State.commitTake s).clk = s.clk := by
  unfold State.commitTake; (repeat' split) <;> simp
@[simp] theorem execCommitTake_clk (s : State) : clkKept s (execCommitTake s) := by simp [execCommitTake]
@[simp] theorem execCommitCut_clk (s : State) : clkKept s (execCommitCut s) := by
  unfold execCommitCut; simp only []; split <;> simp
@[simp] theorem State.swapLocks_clk (s : State) : (State.swapLocks s).clk = s.clk := by
  unfold State.swapLocks; simp
@[simp] theorem State.swapUnlock_clk (s : State) : (State.swapUnlock s).clk = s.clk := by simp [State.swapUnlock]
@[simp] theorem State.commitSwap_clk (s : State) (c : Commit) (e : Nat) :
    (State.commitSwap s c e).clk = s.clk := by simp [State.commitSwap]
@[simp] theorem State.commitHinge_clk (s : State) (k e : Nat) : (State.commitHinge s k e).clk = s.clk := by
  unfold State.commitHinge; (repeat' split) <;> simp
@[simp] theorem State.sweepActive_clk (s : State) : (State.sweepActive s).clk = s.clk := by simp [State.sweepActive]
@[simp] theorem State.catchupDone_clk (s : State) : (State.catchupDone s).clk = s.clk := by simp [State.catchupDone]
@[simp] theorem execCatchupDone_clk (s : State) : clkKept s (execCatchupDone s) := by simp [execCatchupDone]
@[simp] theorem State.legSat_clk (s : State) (b : Nat) : (State.legSat s b).clk = s.clk := by simp [State.legSat]
@[simp] theorem State.gCmd_clk (s : State) (op : Nat) : (State.gCmd s op).clk = s.clk := by simp [State.gCmd]
@[simp] theorem State.confCmd_clk (s : State) (op : Nat) : (State.confCmd s op).clk = s.clk := by simp [State.confCmd]
@[simp] theorem execGRead_clk (s : State) : clkKept s (execGRead s) := by simp [execGRead]
@[simp] theorem execGReadClear_clk (s : State) : clkKept s (execGReadClear s) := by simp [execGReadClear]
@[simp] theorem execConfRead_clk (s : State) : clkKept s (execConfRead s) := by simp [execConfRead]
@[simp] theorem execConfReadClear_clk (s : State) : clkKept s (execConfReadClear s) := by simp [execConfReadClear]
@[simp] theorem State.gDone_clk (s : State) (c : PortCmd) : (State.gDone s c).clk = s.clk := by simp [State.gDone]
@[simp] theorem State.confDone_clk (s : State) (c : PortCmd) : (State.confDone s c).clk = s.clk := by simp [State.confDone]
@[simp] theorem State.benchCmd_clk (s : State) (op : Nat) : (State.benchCmd s op).clk = s.clk := by simp [State.benchCmd]
@[simp] theorem execBenchRead_clk (s : State) : clkKept s (execBenchRead s) := by simp [execBenchRead]
@[simp] theorem execBenchReadClear_clk (s : State) : clkKept s (execBenchReadClear s) := by simp [execBenchReadClear]
@[simp] theorem execBenchWrite_clk (s : State) : clkKept s (execBenchWrite s) := by simp [execBenchWrite]
@[simp] theorem State.benchDone_clk (s : State) (c : PortCmd) : (State.benchDone s c).clk = s.clk := by simp [State.benchDone]
@[simp] theorem State.mirrorSel_clk (s : State) (a : Nat) : (State.mirrorSel s a).clk = s.clk := by simp [State.mirrorSel]
@[simp] theorem State.mirrorGrp_clk (s : State) (g : Nat) : (State.mirrorGrp s g).clk = s.clk := by simp [State.mirrorGrp]
@[simp] theorem State.selMoved_clk (s : State) (a : Nat) (prot : Bool) :
    (State.selMoved s a prot).clk = s.clk := by simp [State.selMoved]
@[simp] theorem State.selCfg_clk (s : State) (a : Nat) : (State.selCfg s a).clk = s.clk := by
  unfold State.selCfg; simp only []; split <;> simp
@[simp] theorem State.selMove_clk (s : State) (a : Nat) (changed : Bool) : (State.selMove s a changed).clk = s.clk := by
  unfold State.selMove; simp only []; split <;> simp
@[simp] theorem State.selTurn_clk (s : State) (a : Nat) (changed : Bool) :
    (State.selTurn s a changed).clk = s.clk := by simp [State.selTurn]
@[simp] theorem State.selDecide_clk (s : State) (a cw cp : Nat) (nw np : Bool) :
    (State.selDecide s a cw cp nw np).clk = s.clk := by simp [State.selDecide]
@[simp] theorem State.showGrp_clk (s : State) (g : Nat) : (State.showGrp s g).clk = s.clk := by simp [State.showGrp]
@[simp] theorem State.sendAps_clk (s : State) (cfg v : Nat) : (State.sendAps s cfg v).clk = s.clk := by simp [State.sendAps]
@[simp] theorem State.grpCfg_clk (s : State) (g : Nat) : (State.grpCfg s g).clk = s.clk := by simp [State.grpCfg]
@[simp] theorem State.grpMove_clk (s : State) (g : Nat) : (State.grpMove s g).clk = s.clk := by
  unfold State.grpMove; simp only []; split <;> simp
@[simp] theorem State.grpTurn_clk (s : State) (g : Nat) : (State.grpTurn s g).clk = s.clk := by simp [State.grpTurn]
@[simp] theorem State.grpDecide_clk (s : State) (g : Nat) : (State.grpDecide s g).clk = s.clk := by simp [State.grpDecide]
@[simp] theorem State.gCfgWrite_clk (s : State) (g v : Nat) : (State.gCfgWrite s g v).clk = s.clk := by simp [State.gCfgWrite]
@[simp] theorem execGCfgWrite_clk (g : Fin 32) (v : W32) (s : State) : clkKept s (execGCfgWrite g v s) := by simp [execGCfgWrite]
@[simp] theorem State.grpCommand_clk (s : State) (g c : Nat) : (State.grpCommand s g c).clk = s.clk := by simp [State.grpCommand]
@[simp] theorem execGrpLo_clk (g : Fin 32) (s : State) : clkKept s (execGrpLo g s) := by simp [execGrpLo]
@[simp] theorem execGrpFs_clk (g : Fin 32) (s : State) : clkKept s (execGrpFs g s) := by simp [execGrpFs]
@[simp] theorem execGrpMsP_clk (g : Fin 32) (s : State) : clkKept s (execGrpMsP g s) := by simp [execGrpMsP]
@[simp] theorem execGrpMsW_clk (g : Fin 32) (s : State) : clkKept s (execGrpMsW g s) := by simp [execGrpMsW]
@[simp] theorem execGrpClear_clk (g : Fin 32) (s : State) : clkKept s (execGrpClear g s) := by simp [execGrpClear]
@[simp] theorem State.sCmd_clk (s : State) (v : Nat) : (State.sCmd s v).clk = s.clk := by simp [State.sCmd]
@[simp] theorem execSelLo_clk (s : State) : clkKept s (execSelLo s) := by simp [execSelLo]
@[simp] theorem execSelFs_clk (s : State) : clkKept s (execSelFs s) := by simp [execSelFs]
@[simp] theorem execSelMsP_clk (s : State) : clkKept s (execSelMsP s) := by simp [execSelMsP]
@[simp] theorem execSelMsW_clk (s : State) : clkKept s (execSelMsW s) := by simp [execSelMsW]
@[simp] theorem execSelClear_clk (s : State) : clkKept s (execSelClear s) := by simp [execSelClear]
@[simp] theorem execSRead_clk (s : State) : clkKept s (execSRead s) := by simp [execSRead]
@[simp] theorem execSReadClear_clk (s : State) : clkKept s (execSReadClear s) := by simp [execSReadClear]
@[simp] theorem execSWrite_clk (s : State) : clkKept s (execSWrite s) := by simp [execSWrite]
@[simp] theorem State.sErr_clk (s : State) : (State.sErr s).clk = s.clk := by simp [State.sErr]
@[simp] theorem State.sRefused_clk (s : State) : (State.sRefused s).clk = s.clk := by simp [State.sRefused]
@[simp] theorem State.selCommand_clk (s : State) (a c : Nat) : (State.selCommand s a c).clk = s.clk := by simp [State.selCommand]
@[simp] theorem State.selWrite_clk (s : State) (a w : Nat) : (State.selWrite s a w).clk = s.clk := by simp [State.selWrite]
@[simp] theorem State.selCapture_clk (s : State) (a : Nat) (clr : Bool) :
    (State.selCapture s a clr).clk = s.clk := by simp [State.selCapture]
@[simp] theorem State.sDone_clk (s : State) (c : PortCmd) : (State.sDone s c).clk = s.clk := by simp [State.sDone]
@[simp] theorem execHoldoffExpire_clk (t : SelRef) (side : Side) (run : Nat) (s : State) :
    clkKept s (execHoldoffExpire t side run s) := by
  unfold execHoldoffExpire; (repeat' split) <;> simp
@[simp] theorem execWtrExpire_clk (t : SelRef) (run : Nat) (s : State) : clkKept s (execWtrExpire t run s) := by
  unfold execWtrExpire; (repeat' split) <;> simp
@[simp] theorem State.apsMm_clk (s : State) (g : Nat) (v : Bool) : (State.apsMm s g v).clk = s.clk := by simp [State.apsMm]
@[simp] theorem execApsMmDeclare_clk (g : Fin 32) (s : State) : clkKept s (execApsMmDeclare g s) := by simp [execApsMmDeclare]
@[simp] theorem execApsMmClear_clk (g : Fin 32) (s : State) : clkKept s (execApsMmClear g s) := by simp [execApsMmClear]
@[simp] theorem execEqMultiframe_clk (q : Fin 65536) (side : Side) (tag : BitVec 16) (s : State) : clkKept s (execEqMultiframe q side tag s) := by
  simp [execEqMultiframe]
@[simp] theorem State.eqLine_clk (s : State) (q : Nat) (r : EqRing) (now tag u : Nat) :
    (State.eqLine s q r now tag u).1.clk = s.clk := by
  unfold State.eqLine; dsimp only; (repeat' split) <;> simp
@[simp] theorem State.eqFetch_clk (s : State) (q : Nat) (r : EqRing) (now n : Nat) :
    (State.eqFetch s q r now n).1.clk = s.clk := by
  unfold State.eqFetch; simp only []; split <;> simp
@[simp] theorem State.eqLost_clk (s : State) (q : Nat) : (State.eqLost s q).clk = s.clk := by simp [State.eqLost]
@[simp] theorem State.eqRelease_clk (s : State) (q n : Nat) : (State.eqRelease s q n).clk = s.clk := by
  unfold State.eqRelease; dsimp only; (repeat' split) <;> simp
@[simp] theorem execEqContainerRelease_clk (q : Fin 65536) (tag : BitVec 16) (i : Fin 32)
    (altered : List (Nat × List Byte)) (s : State) :
    clkKept s (execEqContainerRelease q tag i altered s) := by simp [execEqContainerRelease]
@[simp] theorem State.eqByte_clk (q : Nat) (early : Bool) (acc : State × List Byte) (y : EqByte) :
    (State.eqByte q early acc y).1.clk = acc.1.clk := by
  simp [State.eqByte]
@[simp] theorem State.eqSend_clk (s : State) (q : Nat) (pre : List EqByte) (came : Nat) (restart : Bool) :
    (State.eqSend s q pre came restart).1.clk = s.clk := by
  unfold State.eqSend; dsimp only; split
  · simp
  all_goals (split <;> simp)
@[simp] theorem State.eqStore_clk (q : Nat) (t : State × EqRing) (x : EqByte) :
    (State.eqStore q t x).1.clk = t.1.clk := by
  unfold State.eqStore; dsimp only; (repeat' split) <;> simp
@[simp] theorem State.eqFrame_clk (s : State) (e q : Nat) (col : Bool → Option Col) (ps : List Nat) :
    (State.eqFrame s e q col ps).1.clk = s.clk := by
  unfold State.eqFrame; dsimp only; (repeat' split) <;> simp
@[simp] theorem State.eqTurn_clk (s : State) (q : Nat) (changed : Bool) :
    (State.eqTurn s q changed).1.clk = s.clk := by simp [State.eqTurn]
@[simp] theorem State.qCmd_clk (s : State) (v : Nat) : (State.qCmd s v).clk = s.clk := by simp [State.qCmd]
@[simp] theorem execQRead_clk (s : State) : clkKept s (execQRead s) := by simp [execQRead]
@[simp] theorem execQReadClear_clk (s : State) : clkKept s (execQReadClear s) := by simp [execQReadClear]
@[simp] theorem execQWrite_clk (s : State) : clkKept s (execQWrite s) := by simp [execQWrite]
@[simp] theorem State.eqWrite_clk (s : State) (q w : Nat) : (State.eqWrite s q w).clk = s.clk := by simp [State.eqWrite]
@[simp] theorem State.eqCapture_clk (s : State) (q : Nat) (clr : Bool) :
    (State.eqCapture s q clr).clk = s.clk := by simp [State.eqCapture]
@[simp] theorem State.qDone_clk (s : State) (c : PortCmd) : (State.qDone s c).clk = s.clk := by simp [State.qDone]
@[simp] theorem State.setRef_clk (s : State) (r : Nat) (x : Ref) : (State.setRef s r x).clk = s.clk := by simp [State.setRef]
@[simp] theorem State.refFollow_clk (s : State) (r : Nat) : (State.refFollow s r).clk = s.clk := by simp [State.refFollow]
@[simp] theorem State.refOff_clk (s : State) (r : Nat) : (State.refOff s r).clk = s.clk := by simp [State.refOff]
@[simp] theorem State.refShow_clk (s : State) (r : Nat) : (State.refShow s r).clk = s.clk := by simp [State.refShow]
@[simp] theorem State.disqualify_clk (s : State) (r : Nat) : (State.disqualify s r).clk = s.clk := by simp [State.disqualify]
@[simp] theorem State.refCycle_clk (s : State) (r : Nat) : (State.refCycle s r).clk = s.clk := by simp [State.refCycle]
@[simp] theorem State.refJudge_clk (s : State) (r : Nat) (hit : Bool) :
    (State.refJudge s r hit).clk = s.clk := by simp [State.refJudge]
@[simp] theorem State.hoStop_clk (s : State) : (State.hoStop s).clk = s.clk := by simp [State.hoStop]
@[simp] theorem State.unfollow_clk (s : State) (st : Nat) : (State.unfollow s st).clk = s.clk := by simp [State.unfollow]
@[simp] theorem State.enterFreerun_clk (s : State) : (State.enterFreerun s).clk = s.clk := by simp [State.enterFreerun]
@[simp] theorem State.enterHoldover_clk (s : State) : (State.enterHoldover s).clk = s.clk := by simp [State.enterHoldover]
@[simp] theorem State.transition_clk (s : State) (r : Nat) : (State.transition s r).clk = s.clk := by simp [State.transition]
@[simp] theorem State.retargetTo_clk (s : State) (r : Nat) : (State.retargetTo s r).clk = s.clk := (rfl)
@[simp] theorem State.selectRef_clk (s : State) : (State.selectRef s).clk = s.clk := by
  unfold State.selectRef; (repeat' split) <;> simp
@[simp] theorem State.selectAfter_clk (old s : State) : (State.selectAfter old s).clk = s.clk := by simp [State.selectAfter]
@[simp] theorem State.refEvent_clk (s : State) (r : Nat) (hit : Bool) :
    (State.refEvent s r hit).clk = s.clk := by simp [State.refEvent]
@[simp] theorem State.refActivity_clk (s : State) (r : Nat) (a : Activity) : (State.refActivity s r a).clk = s.clk := by
  unfold State.refActivity; (repeat' split) <;> simp
@[simp] theorem execRefActivityChange_clk (r : Fin 13) (a : Activity) (s : State) :
    clkKept s (execRefActivityChange r a s) := by simp [execRefActivityChange]
@[simp] theorem execUnstableClear_clk (r : Fin 13) (s : State) : clkKept s (execUnstableClear r s) := by simp [execUnstableClear]
@[simp] theorem execHit_clk (h : PhaseHit) (s : State) : clkKept s (execHit h s) := by
  simp [execHit]
@[simp] theorem execRefQualify_clk (r : Fin 13) (run : Nat) (s : State) :
    clkKept s (execRefQualify r run s) := by simp [execRefQualify]
@[simp] theorem execLockoutEnd_clk (r : Fin 13) (s : State) : clkKept s (execLockoutEnd r s) := by simp [execLockoutEnd]
@[simp] theorem State.freqDisqualify_clk (s : State) (r : Nat) :
    (State.freqDisqualify s r).clk = s.clk := by simp [State.freqDisqualify]
@[simp] theorem execPersistExpire_clk (r : Fin 13) (run : Nat) (s : State) :
    clkKept s (execPersistExpire r run s) := by simp [execPersistExpire]
@[simp] theorem State.refFreq_clk (old : State) (offs : List (Nat × Int)) (s : State) (r : Nat) (x : Int) :
    (State.refFreq old offs s r x).clk = s.clk := by simp [State.refFreq]
@[simp] theorem State.refNoFreq_clk (s : State) (r : Nat) : (State.refNoFreq s r).clk = s.clk := by simp [State.refNoFreq]
@[simp] theorem State.refsUpdate_clk (s : State) (m : TimingMeas) : (s.refsUpdate m).clk = s.clk := by
  unfold State.refsUpdate; dsimp only
  rw [State.wr_clk, State.wrB_clk, foldl_clk _ _ _ (fun s x => by simp), foldl_clk _ _ _ (fun s x => by split <;> simp),
    foldl_clk _ _ _ (fun s x => by simp)]
@[simp] theorem State.dpllMove_clk (s : State) (loop : Int) : (State.dpllMove s loop).clk = s.clk := by simp [State.dpllMove]
@[simp] theorem State.lockingTick_clk (s : State) (f phase : Int) : (State.lockingTick s f phase).clk = s.clk := by
  unfold State.lockingTick; simp only []; split <;> simp
@[simp] theorem State.hoSpecChk_clk (s : State) : (State.hoSpecChk s).clk = s.clk := by simp [State.hoSpecChk]
@[simp] theorem State.holdTick_clk (s : State) : (State.holdTick s).clk = s.clk := by simp [State.holdTick]
@[simp] theorem State.dpllTick_clk (s : State) (phase : Int) (held : Bool) :
    (State.dpllTick s phase held).clk = s.clk := by simp [State.dpllTick]
@[simp] theorem execTimingUpdate_clk (m : TimingMeas) (s : State) : clkKept s (execTimingUpdate m s) := by
  simp [execTimingUpdate]
@[simp] theorem State.transitionEnd_clk (s : State) : (State.transitionEnd s).clk = s.clk := by simp [State.transitionEnd]
@[simp] theorem execTransitionStep_clk (phase : Int) (s : State) : clkKept s (execTransitionStep phase s) := by
  unfold execTransitionStep; dsimp only; (repeat' split) <;> simp
@[simp] theorem execDpllLocked_clk (s : State) : clkKept s (execDpllLocked s) := by simp [execDpllLocked]
@[simp] theorem execHoldoverOos_clk (seconds : Nat) (s : State) : clkKept s (execHoldoverOos seconds s) := by simp [execHoldoverOos]
@[simp] theorem execLoFailDeclare_clk (s : State) : clkKept s (execLoFailDeclare s) := by simp [execLoFailDeclare]
@[simp] theorem execLoFailClear_clk (s : State) : clkKept s (execLoFailClear s) := by simp [execLoFailClear]
@[simp] theorem State.evtMaskWrite_clk (s : State) (p : Page) (i v : Nat) : (s.evtMaskWrite p i v).clk = s.clk := by
  unfold State.evtMaskWrite; dsimp only
  rw [foldl_fst_clk]
  · simp
  · intro s x; split <;> simp
@[simp] theorem execEvtMaskWrite_clk (p : Page) (i : Nat) (v : W32) (s : State) :
    clkKept s (execEvtMaskWrite p i v s) := by simp [execEvtMaskWrite]
@[simp] theorem State.eqPop_clk (s : State) : (State.eqPop s).1.clk = s.clk := by
  unfold State.eqPop; simp only []; split <;> simp
@[simp] theorem execEventQueuePop_clk (s : State) : clkKept s (execEventQueuePop s) := by simp [execEventQueuePop]
@[simp] theorem State.eqFlush_clk (s : State) : (State.eqFlush s).clk = s.clk := by simp [State.eqFlush]
@[simp] theorem execEventQueueFlush_clk (s : State) : clkKept s (execEventQueueFlush s) := by simp [execEventQueueFlush]
@[simp] theorem State.eqMismatch_clk (s : State) : (State.eqMismatch s).clk = s.clk := by simp [State.eqMismatch]
@[simp] theorem State.drwChanged_clk (s : State) (n c : Nat) : (State.drwChanged s n c).clk = s.clk := by simp [State.drwChanged]
@[simp] theorem State.chgCapture_clk (s : State) (v : Nat) : (State.chgCapture s v).clk = s.clk := by simp [State.chgCapture]
@[simp] theorem execChgCapture_clk (v : W32) (s : State) : clkKept s (execChgCapture v s) := by simp [execChgCapture]
@[simp] theorem execCntPreset_clk (p : Page) (i : Nat) (k : Fin 8) (v : BitVec 48) (s : State) :
    clkKept s (execCntPreset p i k v s) := by simp [execCntPreset]
@[simp] theorem execCntWrap_clk (p : Page) (i : Nat) (k : Fin 8) (s : State) :
    clkKept s (execCntWrap p i k s) := by simp [execCntWrap]
@[simp] theorem State.snapTake_clk (s : State) (src : Nat) : (State.snapTake s src).clk = s.clk := by simp [State.snapTake]
@[simp] theorem State.snapshot_clk (s : State) (src : Nat) : (State.snapshot s src).clk = s.clk := by simp [State.snapshot]
@[simp] theorem execPerfSnap_clk (s : State) : clkKept s (execPerfSnap s) := by simp [execPerfSnap]
@[simp] theorem execPerfFreeze_clk (on : Bool) (s : State) : clkKept s (execPerfFreeze on s) := by simp [execPerfFreeze]
@[simp] theorem execSnapPin_clk (level : Bool) (s : State) : clkKept s (execSnapPin level s) := by simp [execSnapPin]
@[simp] theorem State.trCtlWrite_clk (s : State) (v : Nat) : (State.trCtlWrite s v).clk = s.clk := by simp [State.trCtlWrite]
@[simp] theorem execTraceEnable_clk (v : W32) (s : State) : clkKept s (execTraceEnable v s) := by simp [execTraceEnable]
@[simp] theorem State.traceWrite_clk (s : State) (tag : BitVec 16) (kind : Nat) (stage : Byte) (id : W32) (info : BitVec 16) :
    (State.traceWrite s tag kind stage id info).clk = s.clk := by simp [State.traceWrite]
@[simp] theorem State.traceCandidate_clk (s : State) (kind id info : Nat) :
    (State.traceCandidate s kind id info).1.clk = s.clk := by simp [State.traceCandidate]
@[simp] theorem execTraceRecord_clk (stage : Byte) (id : W32) (info : BitVec 16) (item : Option (BitVec 16)) (s : State) :
    clkKept s (execTraceRecord stage id info item s) := by
  unfold execTraceRecord; dsimp only; split
  · simp
  · cases item <;> simp
@[simp] theorem State.tracePop_clk (s : State) : (State.tracePop s).1.clk = s.clk := by
  unfold State.tracePop; (repeat' split) <;> simp
@[simp] theorem execTracePop_clk (s : State) : clkKept s (execTracePop s) := by simp [execTracePop]
@[simp] theorem State.m5Write_clk (s : State) (a : Nat) (bs : List Byte) :
    (State.m5Write s a bs).s.clk = s.clk := by
  unfold State.m5Write; (repeat' split) <;> simp
@[simp] theorem State.drain_clk (s : State) : (State.drain s).clk = s.clk := by
  unfold State.drain; simp only []; split <;> simp
@[simp] theorem State.traceFlush_clk (s : State) : (State.traceFlush s).clk = s.clk := by simp [State.traceFlush]
@[simp] theorem State.trMismatch_clk (s : State) : (State.trMismatch s).clk = s.clk := by simp [State.trMismatch]
@[simp] theorem State.setRate_clk (s : State) (f sl : Int) : (State.setRate s f sl).clk = s.clk := by simp [State.setRate]
@[simp] theorem State.setTime_clk (s : State) (t : Nat) : (State.setTime s t).clk = s.clk := by simp [State.setTime]
@[simp] theorem State.timeRead_clk (s : State) : (State.timeRead s).1.clk = s.clk := by simp [State.timeRead]
@[simp] theorem execTimeRead_clk (s : State) : clkKept s (execTimeRead s) := by simp [execTimeRead]
@[simp] theorem State.setServo_clk (s : State) (v : Nat) : (State.setServo s v).clk = s.clk := by simp [State.setServo]
@[simp] theorem State.slewFollow_clk (s : State) : (State.slewFollow s).clk = s.clk := (rfl)
@[simp] theorem State.servoFree_clk (s : State) : (State.servoFree s).clk = s.clk := by simp [State.servoFree]
@[simp] theorem State.servoCount_clk (s : State) (id : Nat) : (State.servoCount s id).clk = s.clk := by simp [State.servoCount]
@[simp] theorem State.servoLoop_clk (s : State) (off : Int) : (State.servoLoop s off).clk = s.clk := (rfl)
@[simp] theorem State.servoSample_clk (s : State) (off : Int) : (State.servoSample s off).clk = s.clk := by
  simp [State.servoSample]
@[simp] theorem State.samplePush_clk (s : State) (hi : Nat) : (State.samplePush s hi).clk = s.clk := by simp [State.samplePush]
@[simp] theorem execSamplePush_clk (hi : W32) (s : State) : clkKept s (execSamplePush hi s) := by simp [execSamplePush]
@[simp] theorem execMasterTimeout_clk (run : Nat) (s : State) : clkKept s (execMasterTimeout run s) := by simp [execMasterTimeout]
@[simp] theorem State.stepGo_clk (s : State) (abs neg : Bool) : (State.stepGo s abs neg).clk = s.clk := by simp [State.stepGo]
@[simp] theorem execStepGo_clk (abs neg : Bool) (s : State) : clkKept s (execStepGo abs neg s) := by simp [execStepGo]
@[simp] theorem State.stepTake_clk (s : State) : (State.stepTake s).clk = s.clk := by
  unfold State.stepTake; simp only []; split <;> simp
@[simp] theorem State.labelHinge_clk (s : State) (mate : Option Nat) :
    (State.labelHinge s mate).clk = s.clk := by simp [State.labelHinge]
@[simp] theorem State.actArm_clk (s : State) (i action : Nat) (drop : Bool) :
    (State.actArm s i action drop).clk = s.clk := by simp [State.actArm]
@[simp] theorem State.actCancel_clk (s : State) (i : Nat) : (State.actCancel s i).clk = s.clk := by simp [State.actCancel]
@[simp] theorem execActArm_clk (i : Fin 16) (action : BitVec 4) (dropLate : Bool) (s : State) :
    clkKept s (execActArm i action dropLate s) := by simp [execActArm]
@[simp] theorem execActCancel_clk (i : Fin 16) (s : State) : clkKept s (execActCancel i s) := by simp [execActCancel]
@[simp] theorem State.actTurn_clk (s : State) (i : Nat) (snap : Bool) : (State.actTurn s i snap).1.clk = s.clk := by
  unfold State.actTurn; dsimp only; (repeat' split) <;> simp
@[simp] theorem State.actions_clk (s : State) : (State.actions s).clk = s.clk := by simp [State.actions]
@[simp] theorem execPpsOutEdge_clk (s : State) : clkKept s (execPpsOutEdge s) := by simp [execPpsOutEdge]
@[simp] theorem execPpsWidthEnd_clk (s : State) : clkKept s (execPpsWidthEnd s) := by simp [execPpsWidthEnd]
@[simp] theorem State.ppsFollow_clk (s : State) : (State.ppsFollow s).clk = s.clk := by simp [State.ppsFollow]
@[simp] theorem execPpsIn_clk (s : State) : clkKept s (execPpsIn s) := by simp [execPpsIn]
@[simp] theorem State.txQfull_clk (s : State) (p : Nat) : (State.txQfull s p).clk = s.clk := by simp [State.txQfull]
@[simp] theorem State.sendPacket_clk (s : State) (n : Nat) (us : List (Nat × Nat × List Byte)) :
    (State.sendPacket s n us).clk = s.clk := by
  unfold State.sendPacket; simp only []; split <;> simp
@[simp] theorem State.visit_clk (s : State) (n : Nat) : (State.visit s n).clk = s.clk := by simp [State.visit]
@[simp] theorem State.mirrorPwctx_clk (s : State) (n : Nat) : (State.mirrorPwctx s n).clk = s.clk := by
  simp [State.mirrorPwctx]
@[simp] theorem State.visitTurn_clk (s : State) (n : Nat) : (State.visitTurn s n).clk = s.clk := by
  simp [State.visitTurn]
@[simp] theorem State.jbRestart_clk (s : State) (n : Nat) : (State.jbRestart s n).clk = s.clk := by simp [State.jbRestart]
@[simp] theorem State.pwDiscard_clk (s : State) : (State.pwDiscard s).clk = s.clk := by simp [State.pwDiscard]
@[simp] theorem State.offTime_clk (s : State) (n : Nat) (early : Bool) :
    (State.offTime s n early).clk = s.clk := by simp [State.offTime]
@[simp] theorem State.noteLR_clk (s : State) (n : Nat) (l r : Bool) : (State.noteLR s n l r).clk = s.clk := by simp [State.noteLR]
@[simp] theorem State.placePacket_clk (s : State) (n : Nat) (no : Nat) (us : List (List Byte)) (l r : Bool) :
    (State.placePacket s n no us l r).clk = s.clk := by simp [State.placePacket]
@[simp] theorem State.crSet_clk (s : State) (n : Nat) (x : Int) : (State.crSet s n x).clk = s.clk := by
  simp [State.crSet]
@[simp] theorem State.crUpdate_clk (s : State) (n : Nat) : (State.crUpdate s n).clk = s.clk := by simp [State.crUpdate]
@[simp] theorem State.crPacket_clk (s : State) (n no ts : Nat) : (State.crPacket s n no ts).clk = s.clk := by
  unfold State.crPacket; dsimp only; (repeat' split) <;> simp
@[simp] theorem State.pwReceive_clk (s : State) (n seq ts : Nat) (us : List (List Byte)) (l r : Bool) :
    (State.pwReceive s n seq ts us l r).clk = s.clk := by simp [State.pwReceive]
@[simp] theorem State.concealUnit_clk (s : State) (n : Nat) : (State.concealUnit s n).clk = s.clk := by simp [State.concealUnit]
@[simp] theorem State.jbDet_clk (s : State) : (State.jbDet s).clk = s.clk := by simp [State.jbDet]
@[simp] theorem State.unitContent_clk (s : State) (n f : Nat) : (State.unitContent s n f).1.clk = s.clk := by
  unfold State.unitContent; dsimp only; split
  · rfl
  · split
    · rfl
    · have h := State.burstGet_clk s rgJitter (unitTag f) (unitBurst n f)
      split <;> (rename_i e; rw [e] at h; simpa using h)
@[simp] theorem State.playUnit_clk (s : State) (n f : Nat) : (State.playUnit s n f).clk = s.clk := by
  unfold State.playUnit; simp only []; split <;> simp
@[simp] theorem State.playout_clk (s : State) (n : Nat) : (State.playout s n).clk = s.clk := by
  unfold State.playout; dsimp only; (repeat' split) <;> simp
@[simp] theorem execPlayoutUnit_clk (n : Fin 16384) (s : State) : clkKept s (execPlayoutUnit n s) := by simp [execPlayoutUnit]
@[simp] theorem execJbBurstWrite_clk (n : Fin 16384) (f : Nat) (s : State) :
    clkKept s (execJbBurstWrite n f s) := by simp [execJbBurstWrite]
@[simp] theorem execJbMerge_clk (n : Fin 16384) (f : Nat) (s : State) : clkKept s (execJbMerge n f s) := by
  unfold execJbMerge; dsimp only; split
  · simp
  · split
    · simp
    · rename_i u _ _
      generalize ht : s.start.setCtx n { s.start.ctx n with late := mdel (s.start.ctx n).late f } = t
      have h₀ : t.clk = s.clk := by rw [← ht]; simp
      have h := State.burstGet_clk t rgJitter (unitTag f) (unitBurst n f)
      split <;> (rename_i e; rw [e] at h; simpa using h.trans h₀)
@[simp] theorem State.cCmd_clk (s : State) (v : Nat) : (State.cCmd s v).clk = s.clk := by simp [State.cCmd]
@[simp] theorem execCtxRead_clk (s : State) : clkKept s (execCtxRead s) := by simp [execCtxRead]
@[simp] theorem execCtxReadClear_clk (s : State) : clkKept s (execCtxReadClear s) := by simp [execCtxReadClear]
@[simp] theorem execCtxWrite_clk (s : State) : clkKept s (execCtxWrite s) := by simp [execCtxWrite]
@[simp] theorem State.ctxSet_clk (s : State) (n : Nat) (c : Ctx) : (State.ctxSet s n c).clk = s.clk := by simp [State.ctxSet]
@[simp] theorem State.mirrorPwcfg_clk (s : State) (bodies : List (List Byte)) :
    (State.mirrorPwcfg s bodies).clk = s.clk := by simp [State.mirrorPwcfg]
@[simp] theorem State.cErr_clk (s : State) (code : Nat) : (State.cErr s code).clk = s.clk := by simp [State.cErr]
@[simp] theorem State.ctxWrite_clk (s : State) (n : Nat) (c : Ctx) :
    (State.ctxWrite s n c).clk = s.clk := by simp [State.ctxWrite]
@[simp] theorem State.wrCCfg_clk (s : State) (c : Ctx) : (State.wrCCfg s c).clk = s.clk := by simp [State.wrCCfg]
@[simp] theorem State.ctxCapture_clk (s : State) (n : Nat) (clr : Bool) :
    (State.ctxCapture s n clr).clk = s.clk := by simp [State.ctxCapture]
@[simp] theorem State.ctxDone_clk (s : State) (c : PortCmd) : (State.ctxDone s c).clk = s.clk := by simp [State.ctxDone]
@[simp] theorem State.tCmd_clk (s : State) (v : Nat) : (State.tCmd s v).clk = s.clk := by simp [State.tCmd]
@[simp] theorem execTplRead_clk (s : State) : clkKept s (execTplRead s) := by simp [execTplRead]
@[simp] theorem execTplWrite_clk (s : State) : clkKept s (execTplWrite s) := by simp [execTplWrite]
@[simp] theorem execTplInval_clk (s : State) : clkKept s (execTplInval s) := by simp [execTplInval]
@[simp] theorem State.tplCapture_clk (s : State) (i : Nat) : (State.tplCapture s i).clk = s.clk := by
  unfold State.tplCapture; simp only []; split <;> simp
@[simp] theorem State.tplDone_clk (s : State) (c : PortCmd) : (State.tplDone s c).clk = s.clk := by simp [State.tplDone]
@[simp] theorem State.hostRead_clk (s : State) (d len : Nat) : (State.hostRead s d len).1.clk = s.clk := by simp [State.hostRead]
@[simp] theorem State.hostWrite_clk (s : State) (d : Nat) (bs : List Byte) :
    (State.hostWrite s d bs).clk = s.clk := by simp [State.hostWrite]
@[simp] theorem State.descDone_clk (s : State) (p : Nat) (x : TxItem) (flags : Nat) (stamp : Option Nat) :
    (State.descDone s p x flags stamp).clk = s.clk := by
  unfold State.descDone; (repeat' split) <;> simp
@[simp] theorem State.queueHost_clk (s : State) (p : Nat) (x : TxItem) :
    (State.queueHost s p x).clk = s.clk := by simp [State.queueHost]
@[simp] theorem State.launchLate_clk (s : State) (p : Nat) (x : TxItem) :
    (State.launchLate s p x).clk = s.clk := by simp [State.launchLate]
@[simp] theorem State.hostTxDesc_clk (s : State) (p : Nat) : (s.hostTxDesc p).clk = s.clk := by
  unfold State.hostTxDesc; dsimp only
  split
  · rfl
  · have h := State.hostRead_clk s (descAddr (s.rd R.ETH_HTX_BASE_BASE p) (s.rd R.ETH_HTX_SIZE_SIZE p) (s.eth p).next) 32
    split
    · rename_i e; rw [e] at h; exact h
    · rename_i t b e
      rw [e] at h
      have h' := State.hostRead_clk t (ofLe (sliceBytes b 0 5)) (ofLe (sliceBytes b 5 2))
      split
      all_goals (rename_i e'; rw [e'] at h'; (repeat' split) <;> simpa using h'.trans h)
@[simp] theorem execHostTxDesc_clk (p : Fin 8) (s : State) : clkKept s (execHostTxDesc p s) := by simp [execHostTxDesc]
@[simp] theorem State.launchHost_clk (sl : Nat) (s : State) (p : Nat) : (State.launchHost sl s p).clk = s.clk := by
  unfold State.launchHost; simp only []; split <;> simp
@[simp] theorem execLaunchSlot_clk (sl : Fin 125) (s : State) : clkKept s (execLaunchSlot sl s) := by simp [execLaunchSlot]
@[simp] theorem State.toHost_clk (s : State) (p : Nat) (f : EthRx) (stamp : Nat) : (s.toHost p f stamp).clk = s.clk := by
  unfold State.toHost; dsimp only
  split
  · simp
  · have h := State.hostRead_clk s (descAddr (s.rd R.ETH_HRX_BASE_BASE p) (s.rd R.ETH_HRX_SIZE_SIZE p) (s.rd R.ETH_HRX_PTR_WR p)) 32
    split <;> (rename_i e; rw [e] at h; simpa using h)
@[simp] theorem State.pwPacket_clk (s : State) (n : Nat) (bs : List Byte) (o stop : Nat) :
    (State.pwPacket s n bs o stop).clk = s.clk := by simp [State.pwPacket]
@[simp] theorem State.rxTake_clk (s : State) (p : Nat) (x : EthRx × Nat) : (State.rxTake s p x).clk = s.clk := by
  unfold State.rxTake; (repeat' split) <;> simp
@[simp] theorem State.rxDrain_clk (n p : Nat) (s : State) : (State.rxDrain n p s).clk = s.clk := by
  induction n generalizing s with
  | zero => rfl
  | succ n ih =>
    unfold State.rxDrain; split
    · rfl
    · split
      · rfl
      · simp [ih]
@[simp] theorem State.rxEnter_clk (s : State) (p : Nat) (x : EthRx × Nat) : (State.rxEnter s p x).clk = s.clk := by
  simp [State.rxEnter]
@[simp] theorem State.paused_clk (s : State) (p q : Nat) : (State.paused s p q).clk = s.clk := by simp [State.paused]
@[simp] theorem State.ethRx_clk (s : State) (p : Nat) (f : EthRx) : (State.ethRx s p f).clk = s.clk := by simp [State.ethRx]
@[simp] theorem execEthFrameRx_clk (p : Fin 8) (f : EthRx) (s : State) :
    clkKept s (execEthFrameRx p f s) := by simp [execEthFrameRx]
@[simp] theorem State.ethTx_clk (s : State) (p : Nat) (ns : Nat) : (State.ethTx s p ns).clk = s.clk := by
  unfold State.ethTx; simp only []; split <;> simp
@[simp] theorem execEthFrameTx_clk (p : Fin 8) (sfdNs : Nat) (s : State) :
    clkKept s (execEthFrameTx p sfdNs s) := by simp [execEthFrameTx]
@[simp] theorem execEthLinkChange_clk (p : Fin 8) (up : Bool) (s : State) :
    clkKept s (execEthLinkChange p up s) := by simp [execEthLinkChange]
@[simp] theorem execPauseExpire_clk (p : Fin 8) (s : State) : clkKept s (execPauseExpire p s) := by simp [execPauseExpire]
@[simp] theorem State.ethEnWrite_clk (s : State) (p v : Nat) : (State.ethEnWrite s p v).clk = s.clk := by simp [State.ethEnWrite]
@[simp] theorem State.readyFollow_clk (s : State) : (State.readyFollow s).clk = s.clk := by simp [State.readyFollow]
@[simp] theorem State.pullStart_clk (s : State) : (State.pullStart s).clk = s.clk := by simp [State.pullStart]
@[simp] theorem State.dropCur_clk (s : State) : (State.dropCur s).clk = s.clk := by simp [State.dropCur]
@[simp] theorem execFaultWrite_clk (f : Bool) (s : State) : clkKept s (execFaultWrite f s) := by simp [execFaultWrite]
@[simp] theorem State.serveStep_clk (s : State) : (State.serveStep s).clk = s.clk := by
  unfold State.serveStep; (repeat' split) <;> simp
@[simp] theorem State.serveFill_clk (s : State) : (State.serveFill s).clk = s.clk := by simp [State.serveFill]
@[simp] theorem State.dxEnable_clk (s : State) : (State.dxEnable s).clk = s.clk := by simp [State.dxEnable]
@[simp] theorem execDxEnable_clk (s : State) : clkKept s (execDxEnable s) := by simp [execDxEnable]
theorem State.laneRxDexgor_clk (s : State) (l : Nat) (f : RxFrame) : ∀ t, State.laneRxDexgor s l f = some t → t.clk = s.clk := by
  unfold State.laneRxDexgor; (repeat' split) <;> simp
@[simp] theorem State.setRole_clk (s : State) (m : Nat) : (State.setRole s m).clk = s.clk := (rfl)
@[simp] theorem State.roleNow_clk (s : State) (m : Nat) : (State.roleNow s m).clk = s.clk := (rfl)
@[simp] theorem State.exchange_clk (s : State) : (State.exchange s).clk = s.clk := by simp [State.exchange]
@[simp] theorem State.frameTickDexgor_clk (s : State) (l : Nat) (bits : Nat) : (State.frameTickDexgor s l bits).clk = s.clk := by
  unfold State.frameTickDexgor; dsimp only; (repeat' split) <;> simp
@[simp] theorem execFrameTick_clk (l : LaneId) (bits : Nat) (s : State) : clkKept s (execFrameTick l bits s) := by
  unfold execFrameTick; (repeat' split) <;> simp
theorem State.laneRx_clk (s : State) (l : LaneId) (f : RxFrame) : ((s.laneRx l f).getD s).clk = s.clk := by
  cases h : s.laneRx l f with
  | none => rfl
  | some t =>
    cases l with
    | horale n => exact State.laneRxHorale_clk _ _ _ t h
    | dexgor l => exact State.laneRxDexgor_clk _ _ _ t h
theorem execLaneFrameRx_clk (l : LaneId) (f : RxFrame) (s : State) : clkKept s (execLaneFrameRx l f s) := by
  unfold execLaneFrameRx; rw [clkKept_ok, State.laneRx_clk]; rfl
@[simp] theorem State.hbSums_clk (s : State) : (State.hbSums s).clk = s.clk := by simp [State.hbSums]
@[simp] theorem State.hbDecide_clk (s : State) (old : Nat) : (State.hbDecide s old).clk = s.clk := by simp [State.hbDecide]
@[simp] theorem State.hbTwin_clk (s : State) (old : Nat) : (State.hbTwin s old).clk = s.clk := by simp [State.hbTwin]
@[simp] theorem State.hbBack_clk (s : State) : (State.hbBack s).clk = s.clk := by simp [State.hbBack]
@[simp] theorem State.hbLag_clk (s : State) (lag : Nat) : (State.hbLag s lag).clk = s.clk := by simp [State.hbLag]
@[simp] theorem State.hbTake_clk (s : State) (l : Nat) (lo : List Byte) (lag : Nat) :
    (State.hbTake s l lo lag).clk = s.clk := by simp [State.hbTake]
@[simp] theorem execHeartbeatRx_clk (l : Fin 2) (lo : List Byte) (lag : Nat) (s : State) :
    clkKept s (execHeartbeatRx l lo lag s) := by simp [execHeartbeatRx]
@[simp] theorem State.hbLose_clk (s : State) : (State.hbLose s).clk = s.clk := by simp [State.hbLose]
@[simp] theorem execHbFrameMissed_clk (s : State) : clkKept s (execHbFrameMissed s) := by simp [execHbFrameMissed]
@[simp] theorem State.recCheck_clk (s : State) (l : Nat) (r : List Byte) : (State.recCheck s l r).1.clk = s.clk := by
  unfold State.recCheck; (repeat' split) <;> simp
@[simp] theorem State.recCome_clk (s₀ s : State) (type l : Nat) (r : List Byte) (f : State → State) (h₀ : s.clk = s₀.clk)
    (h : ∀ s, (f s).clk = s.clk) : clkKept s₀ (s.recCome type l r f) := by
  unfold State.recCome; dsimp only; split
  · simp
  · split <;> simp [h, h₀]
@[simp] theorem State.recTake_clk (s₀ s : State) (type l : Nat) (r : List Byte) (f : State → State) (h₀ : s.clk = s₀.clk)
    (h : ∀ s, (f s).clk = s.clk) : clkKept s₀ (s.recTake type l r f) := by
  unfold State.recTake
  exact State.recCome_clk _ _ _ _ _ _ h₀ (fun s => by split <;> simp [h])
@[simp] theorem State.recHold_clk (s : State) (r : List Byte) (k : HeldKind) :
    (State.recHold s r k).clk = s.clk := by simp [State.recHold]
@[simp] theorem execMirReq_clk (l : Fin 2) (r : List Byte) (s : State) : clkKept s (execMirReq l r s) :=
  State.recTake_clk _ _ _ _ _ _ (by simp) (fun s => by simp)
@[simp] theorem execMirCommit_clk (l : Fin 2) (r : List Byte) (s : State) : clkKept s (execMirCommit l r s) :=
  State.recTake_clk _ _ _ _ _ _ (by simp) (fun s => by simp)
@[simp] theorem State.heldTake_clk (s : State) (h : Held) : (State.heldTake s h).clk = s.clk := by
  unfold State.heldTake; simp only []; split <;> simp
@[simp] theorem execMirRelease_clk (s : State) : clkKept s (execMirRelease s) := by
  unfold execMirRelease; simp only []; split <;> simp
@[simp] theorem State.recDue_clk (s : State) (r : List Byte) : (State.recDue s r).clk = s.clk := by simp [State.recDue]
@[simp] theorem execMirSel_clk (l : Fin 2) (r : List Byte) (s : State) : clkKept s (execMirSel l r s) :=
  State.recTake_clk _ _ _ _ _ _ (by simp) (fun s => by simp)
@[simp] theorem execMirGrp_clk (l : Fin 2) (r : List Byte) (s : State) : clkKept s (execMirGrp l r s) :=
  State.recTake_clk _ _ _ _ _ _ (by simp) (fun s => by simp)
@[simp] theorem execMirEqcfg_clk (l : Fin 2) (r : List Byte) (s : State) : clkKept s (execMirEqcfg l r s) :=
  State.recTake_clk _ _ _ _ _ _ (by simp) (fun s => by simp)
@[simp] theorem execMirPwcfg_clk (l : Fin 2) (r : List Byte) (s : State) : clkKept s (execMirPwcfg l r s) :=
  State.recTake_clk _ _ _ _ _ _ (by simp) (fun s => by simp)
@[simp] theorem execMirPwctx_clk (l : Fin 2) (r : List Byte) (s : State) : clkKept s (execMirPwctx l r s) :=
  State.recTake_clk _ _ _ _ _ _ (by simp) (fun s => by simp)
@[simp] theorem execMirTiming_clk (l : Fin 2) (r : List Byte) (s : State) : clkKept s (execMirTiming l r s) :=
  State.recTake_clk _ _ _ _ _ _ (by simp) (fun s => by simp)
@[simp] theorem execMirTime_clk (l : Fin 2) (r : List Byte) (s : State) : clkKept s (execMirTime l r s) :=
  State.recTake_clk _ _ _ _ _ _ (by simp) (fun s => by simp)
@[simp] theorem State.pullWord_clk (s : State) (b : Nat) : (State.pullWord s b).clk = s.clk := by simp [State.pullWord]
@[simp] theorem execMirPull_clk (l : Fin 2) (r : List Byte) (s : State) : clkKept s (execMirPull l r s) :=
  State.recTake_clk _ _ _ _ _ _ (by simp) (fun s => by simp)
@[simp] theorem State.pullEnd_clk (s : State) (no : Nat) : (State.pullEnd s no).clk = s.clk := by simp [State.pullEnd]
@[simp] theorem execMirPullEnd_clk (l : Fin 2) (r : List Byte) (s : State) : clkKept s (execMirPullEnd l r s) :=
  State.recCome_clk _ _ _ _ _ _ (by simp) (fun s => by simp)
@[simp] theorem State.applySel_clk (s : State) (b : Nat) : (State.applySel s b).clk = s.clk := by simp [State.applySel]
@[simp] theorem State.applyGrp_clk (s : State) (b : Nat) : (State.applyGrp s b).clk = s.clk := by simp [State.applyGrp]
@[simp] theorem State.applyEqcfg_clk (s : State) (b : Nat) : (State.applyEqcfg s b).clk = s.clk := by simp [State.applyEqcfg]
@[simp] theorem State.applyPwcfg_clk (s : State) (b : Nat) : (State.applyPwcfg s b).clk = s.clk := by
  unfold State.applyPwcfg; dsimp only; (repeat' split) <;> simp
@[simp] theorem State.applyPwctx_clk (s : State) (b : Nat) : (State.applyPwctx s b).clk = s.clk := by simp [State.applyPwctx]
@[simp] theorem State.applyTiming_clk (s : State) (b : Nat) : (State.applyTiming s b).clk = s.clk := by simp [State.applyTiming]
@[simp] theorem State.applyTime_clk (s : State) (b : Nat) : (State.applyTime s b).clk = s.clk := by simp [State.applyTime]
@[simp] theorem State.applyRec_clk (s : State) (r : List Byte) : (State.applyRec s r).clk = s.clk := by
  unfold State.applyRec; simp only []; split <;> simp
@[simp] theorem State.applyDue_clk (s : State) : (State.applyDue s).clk = s.clk := by simp [State.applyDue]
@[simp] theorem State.mirrorFrame_clk (s : State) : (State.mirrorFrame s).clk = s.clk := by simp [State.mirrorFrame]
@[simp] theorem State.swapAsk_clk (s : State) : (State.swapAsk s).clk = s.clk := by simp [State.swapAsk]
@[simp] theorem execSwap_clk (s : State) : clkKept s (execSwap s) := by simp [execSwap]
@[simp] theorem State.claimFollow_clk (s : State) : (State.claimFollow s).clk = s.clk := by simp [State.claimFollow]
@[simp] theorem State.gaspSeen_clk (s : State) : (State.gaspSeen s).clk = s.clk := by simp [State.gaspSeen]
@[simp] theorem execGaspIn_clk (s : State) : clkKept s (execGaspIn s) := by simp [execGaspIn]
@[simp] theorem execGaspInRelease_clk (s : State) : clkKept s (execGaspInRelease s) := by simp [execGaspInRelease]
@[simp] theorem State.claimSeen_clk (s : State) (asserted : Bool) : (State.claimSeen s asserted).clk = s.clk := by
  simp [State.claimSeen]
@[simp] theorem execClaimMateChange_clk (asserted : Bool) (s : State) :
    clkKept s (execClaimMateChange asserted s) := by simp [execClaimMateChange]
@[simp] theorem State.mateStart_clk (s : State) : (State.mateStart s).clk = s.clk := by simp [State.mateStart]
@[simp] theorem State.quorum_clk (s : State) : (State.quorum s).clk = s.clk := by simp [State.quorum]
@[simp] theorem State.mateSettle_clk (s : State) : (State.mateSettle s).clk = s.clk := by simp [State.mateSettle]
@[simp] theorem State.lossRule_clk (s : State) (v : MateSeen) : (State.lossRule s v).clk = s.clk := by
  simp [State.lossRule]
@[simp] theorem State.twinRule_clk (s : State) (v : MateSeen) : (State.twinRule s v).clk = s.clk := by
  simp [State.twinRule]
@[simp] theorem State.gaspRule_clk (s : State) : (State.gaspRule s).clk = s.clk := by
  unfold State.gaspRule; simp only []; split <;> simp
@[simp] theorem State.dxStop_clk (s : State) (l : Nat) : (State.dxStop s l).clk = s.clk := by simp [State.dxStop]
@[simp] theorem State.hbHinge_clk (s : State) : (State.hbHinge s).clk = s.clk := by simp [State.hbHinge]
@[simp] theorem State.mateHinge_clk (s : State) : (State.mateHinge s).clk = s.clk := by simp [State.mateHinge]
@[simp] theorem State.takeTiming_clk (s : State) : (State.takeTiming s).clk = s.clk := by
  unfold State.takeTiming; simp only []; split <;> simp
@[simp] theorem State.roleChanged_clk (s : State) (old : Nat) :
    (State.roleChanged s old).clk = s.clk := by simp [State.roleChanged]
@[simp] theorem State.rtsFail_clk (s : State) : (State.rtsFail s).clk = s.clk := by simp [State.rtsFail]
@[simp] theorem execRtsFail_clk (s : State) : clkKept s (execRtsFail s) := by simp [execRtsFail]
@[simp] theorem State.joinAsk_clk (s : State) : (State.joinAsk s).clk = s.clk := by simp [State.joinAsk]
@[simp] theorem execJoin_clk (s : State) : clkKept s (execJoin s) := by simp [execJoin]
@[simp] theorem State.pullAsk_clk (s : State) : (State.pullAsk s).clk = s.clk := by simp [State.pullAsk]
@[simp] theorem execMatePull_clk (s : State) : clkKept s (execMatePull s) := by simp [execMatePull]
@[simp] theorem execRtsAlignDone_clk (s : State) : clkKept s (execRtsAlignDone s) := by simp [execRtsAlignDone]
@[simp] theorem execRtsVerifyDone_clk (actD actS editD editS : W32) (s : State) :
    clkKept s (execRtsVerifyDone actD actS editD editS s) := by
  unfold execRtsVerifyDone; simp only []; split <;> simp
@[simp] theorem execSpInitDone_clk (s : State) : clkKept s (execSpInitDone s) := by simp [execSpInitDone]
@[simp] theorem State.stNext_clk (s : State) : (State.stNext s).clk = s.clk := by simp [State.stNext]
@[simp] theorem State.stFail_clk (s : State) (base : Nat) (march : List Nat) : (State.stFail s base march).clk = s.clk := by
  unfold State.stFail; simp only []; split <;> simp
@[simp] theorem State.stRestore_clk (s : State) (base : Nat) (bad : List Nat) : (State.stRestore s base bad).clk = s.clk := by
  unfold State.stRestore; simp only []; split <;> simp
@[simp] theorem execStLineTest_clk (r : LineResult) (s : State) : clkKept s (execStLineTest r s) := by simp [execStLineTest]
@[simp] theorem execStStall_clk (s : State) : clkKept s (execStStall s) := by simp [execStStall]
@[simp] theorem State.collide_clk (s : State) (word : Nat) : (State.collide s word).clk = s.clk := by simp [State.collide]
@[simp] theorem State.portBAccess_clk (s : State) (b : PortBAccess) (a : Option (Nat × List Byte)) :
    (State.portBAccess s b a).clk = s.clk := by
  unfold State.portBAccess; dsimp only; (repeat' split) <;> simp
@[simp] theorem State.drawersStop_clk (s : State) (n : Nat) : (State.drawersStop s n).clk = s.clk := by simp [State.drawersStop]
@[simp] theorem State.laneStop_clk (s : State) (n : Nat) : (State.laneStop s n).clk = s.clk := by simp [State.laneStop]
@[simp] theorem State.laneStart_clk (s : State) (n : Nat) : (State.laneStart s n).clk = s.clk := by simp [State.laneStart]
@[simp] theorem State.laneRate_clk (s : State) (n : Nat) : (State.laneRate s n).clk = s.clk := by simp [State.laneRate]
@[simp] theorem State.laneLoop_clk (s : State) (n : Nat) : (State.laneLoop s n).clk = s.clk := by simp [State.laneLoop]
@[simp] theorem State.laneSet_clk (s : State) (n : Nat) : (State.laneSet s n).clk = s.clk := by simp [State.laneSet]
@[simp] theorem State.laneDefects_clk (s : State) (n : Nat) : (State.laneDefects s n).clk = s.clk := by simp [State.laneDefects]
@[simp] theorem State.laneLatch_clk (s : State) (n : Nat) : (State.laneLatch s n).clk = s.clk := by simp [State.laneLatch]
@[simp] theorem State.drawersTurn_clk (s : State) : (State.drawersTurn s).clk = s.clk := by simp [State.drawersTurn]
@[simp] theorem State.lanesHinge_clk (s : State) : (State.lanesHinge s).clk = s.clk := by simp [State.lanesHinge]
@[simp] theorem State.pagesLost_clk (s : State) (d : Nat) : (State.pagesLost s d).clk = s.clk := by simp [State.pagesLost]
@[simp] theorem State.mgmtLost_clk (s : State) : (State.mgmtLost s).clk = s.clk := by simp [State.mgmtLost]
@[simp] theorem State.storesLost_clk (s : State) (d : Nat) : (State.storesLost s d).clk = s.clk := by simp [State.storesLost]
@[simp] theorem State.quadStops_clk (s : State) (d : Nat) : (State.quadStops s d).clk = s.clk := by simp [State.quadStops]
@[simp] theorem State.domainOff_clk (s : State) (d : Nat) : (State.domainOff s d).clk = s.clk := by simp [State.domainOff]
@[simp] theorem State.domainsOff_clk (s : State) (ds : List Nat) :
    (State.domainsOff s ds).clk = s.clk := by simp [State.domainsOff]
@[simp] theorem State.setMode_clk (s : State) (m : Nat) : (State.setMode s m).clk = s.clk := by simp [State.setMode]
@[simp] theorem State.wakeEnd_clk (s : State) : (State.wakeEnd s).clk = s.clk := by
  unfold State.wakeEnd; simp only []; split <;> simp
@[simp] theorem State.wakeMgmt_clk (s : State) : (State.wakeMgmt s).clk = s.clk := by
  unfold State.wakeMgmt; (repeat' split) <;> simp
@[simp] theorem State.pagesStart_clk (s : State) (d : Nat) : (State.pagesStart s d).clk = s.clk := by simp [State.pagesStart]
@[simp] theorem State.domainStart_clk (s : State) (d : Nat) : (State.domainStart s d).clk = s.clk := by simp [State.domainStart]
@[simp] theorem State.domainUp_clk (s : State) (d : Nat) : (State.domainUp s d).clk = s.clk := by simp [State.domainUp]
@[simp] theorem execDomainUsable_clk (d : Fin 56) (s : State) : clkKept s (execDomainUsable d s) := by simp [execDomainUsable]
@[simp] theorem State.domEnWrite_clk (s : State) (hi : Bool) (v : Nat) :
    (State.domEnWrite s hi v).clk = s.clk := by simp [State.domEnWrite]
@[simp] theorem execDomEnWrite_clk (hi : Bool) (v : W32) (s : State) :
    clkKept s (execDomEnWrite hi v s) := by simp [execDomEnWrite]
@[simp] theorem State.powerHinge_clk (s : State) : (State.powerHinge s).clk = s.clk := by simp [State.powerHinge]
@[simp] theorem execVinFail_clk (s : State) : clkKept s (execVinFail s) := by simp [execVinFail]
@[simp] theorem State.shedAct_clk (s : State) (st : Nat) : (State.shedAct s st).clk = s.clk := by simp [State.shedAct]
@[simp] theorem execShed_clk (st : Fin 8) (run : Nat) (s : State) : clkKept s (execShed st run s) := by simp [execShed]
@[simp] theorem execVinBack_clk (held : Nat) (s : State) : clkKept s (execVinBack held s) := by simp [execVinBack]
@[simp] theorem execHoldup_clk (b : Bool) (s : State) : clkKept s (execHoldup b s) := by simp [execHoldup]
@[simp] theorem execXtal_clk (b : Bool) (s : State) : clkKept s (execXtal b s) := by simp [execXtal]
@[simp] theorem State.wake_clk (s : State) (cause : Nat) : (State.wake s cause).clk = s.clk := by simp [State.wake]
@[simp] theorem execWakeNEdge_clk (s : State) : clkKept s (execWakeNEdge s) := by simp [execWakeNEdge]
@[simp] theorem execWakeTimerExpire_clk (run : Nat) (s : State) :
    clkKept s (execWakeTimerExpire run s) := by simp [execWakeTimerExpire]
@[simp] theorem State.modeRequest_clk (s : State) (m : Nat) : (State.modeRequest s m).clk = s.clk := by simp [State.modeRequest]
@[simp] theorem execModeRequest_clk (req : BitVec 3) (s : State) : clkKept s (execModeRequest req s) := by simp [execModeRequest]
@[simp] theorem State.mapsLost_clk (s : State) : (State.mapsLost s).clk = s.clk := by simp [State.mapsLost]
@[simp] theorem State.enterMode_clk (s : State) (m : Nat) : (State.enterMode s m).clk = s.clk := by simp [State.enterMode]
@[simp] theorem State.modeHinge_clk (s : State) : (State.modeHinge s).clk = s.clk := by
  unfold State.modeHinge; dsimp only; (repeat' split) <;> simp
@[simp] theorem State.abortOne_clk (s : State) (t : Nat) (f : Inflight) :
    (State.abortOne s t f).clk = s.clk := by simp [State.abortOne]
@[simp] theorem State.resetMasters_clk (s : State) (ms : List Nat) :
    (State.resetMasters s ms).clk = s.clk := by simp [State.resetMasters]
@[simp] theorem State.strap_clk (s : State) (st : Straps) : (State.strap s st).clk = s.clk := by simp [State.strap]
@[simp] theorem State.wipePending_clk (s : State) : (State.wipePending s).clk = s.clk := by
  unfold State.wipePending; (repeat' split) <;> simp
@[simp] theorem State.heldInReset_clk (s : State) : (State.heldInReset s).clk = s.clk := by simp [State.heldInReset]
@[simp] theorem execResetNAssert_clk (s : State) : clkKept s (execResetNAssert s) := by simp [execResetNAssert]
@[simp] theorem execResetNRelease_clk (st : Straps) (s : State) :
    clkKept s (execResetNRelease st s) := by simp [execResetNRelease]
@[simp] theorem State.softMapc_clk (s : State) : (State.softMapc s).clk = s.clk := by simp [State.softMapc]
@[simp] theorem State.softLane_clk (s : State) (n : Nat) : (State.softLane s n).clk = s.clk := by simp [State.softLane]
@[simp] theorem State.softDrop_clk (s : State) : (State.softDrop s).clk = s.clk := by simp [State.softDrop]
@[simp] theorem State.holdPins_clk (s : State) : (State.holdPins s).clk = s.clk := rfl
@[simp] theorem State.softBegin_clk (s : State) : (State.softBegin s).clk = s.clk := by simp [State.softBegin]
@[simp] theorem State.softReset_clk (s : State) (key : Nat) : (State.softReset s key).clk = s.clk := by simp [State.softReset]
@[simp] theorem execSoftReset_clk (key : W32) (s : State) : clkKept s (execSoftReset key s) := by simp [execSoftReset]
@[simp] theorem State.softEnd_clk (s : State) : (State.softEnd s).clk = s.clk := by simp [State.softEnd]
@[simp] theorem execSoftResetEnd_clk (s : State) : clkKept s (execSoftResetEnd s) := by simp [execSoftResetEnd]
@[simp] theorem State.writeField_clk (s : State) (x : FSpec) (v i j : Nat) : (State.writeField s x v i j).clk = s.clk := by
  unfold State.writeField; simp only []; split <;> simp
@[simp] theorem State.writeFields_clk (s : State) (fs : List FSpec) (v i j : Nat) :
    (State.writeFields s fs v i j).clk = s.clk := by simp [State.writeFields]
@[simp] theorem State.writeFlags_clk (s : State) (fs : List FSpec) (v i j : Nat) :
    (State.writeFlags s fs v i j).clk = s.clk := by simp [State.writeFlags]
@[simp] theorem State.writeHdr_clk (s : State) (p : Page) (i : Nat) (r : RSpec) (j v : Nat) :
    (State.writeHdr s p i r j v).clk = s.clk := by
  unfold State.writeHdr; (repeat' split) <;> simp
@[simp] theorem State.writeGlobal_clk (s : State) (r : RSpec) (v : Nat) : (State.writeGlobal s r v).clk = s.clk := by
  unfold State.writeGlobal; (repeat' split) <;> simp
@[simp] theorem State.writePower_clk (s : State) (r : RSpec) (j v : Nat) : (State.writePower s r j v).clk = s.clk := by
  unfold State.writePower; (repeat' split) <;> simp
@[simp] theorem State.wmWrite_clk (s : State) (w v : Nat) : (State.wmWrite s w v).clk = s.clk := by simp [State.wmWrite]
@[simp] theorem State.writeEvent_clk (s : State) (r : RSpec) (j v : Nat) : (State.writeEvent s r j v).clk = s.clk := by
  unfold State.writeEvent; (repeat' split) <;> simp
@[simp] theorem State.writePerf_clk (s : State) (r : RSpec) (j v : Nat) : (State.writePerf s r j v).clk = s.clk := by
  unfold State.writePerf; simp only []; split <;> simp
@[simp] theorem State.threshWrite_clk (s : State) (r : RSpec) (v : Nat) :
    (State.threshWrite s r v).clk = s.clk := by simp [State.threshWrite]
@[simp] theorem State.writeTiming_clk (s : State) (r : RSpec) (j v : Nat) : (State.writeTiming s r j v).clk = s.clk := by
  unfold State.writeTiming; (repeat' split) <;> simp
@[simp] theorem State.actWrite_clk (s : State) (r : RSpec) (j v : Nat) :
    (State.actWrite s r j v).clk = s.clk := by simp [State.actWrite]
@[simp] theorem State.stepWrite_clk (s : State) (r : RSpec) (v : Nat) :
    (State.stepWrite s r v).clk = s.clk := by simp [State.stepWrite]
@[simp] theorem State.writeNtime_clk (s : State) (r : RSpec) (j v : Nat) : (State.writeNtime s r j v).clk = s.clk := by
  unfold State.writeNtime; (repeat' split) <;> simp
@[simp] theorem State.mateCtlWrite_clk (s : State) (r : RSpec) (v : Nat) :
    (State.mateCtlWrite s r v).clk = s.clk := by simp [State.mateCtlWrite]
@[simp] theorem State.writeMate_clk (s : State) (r : RSpec) (j v : Nat) : (State.writeMate s r j v).clk = s.clk := by
  unfold State.writeMate; (repeat' split) <;> simp
@[simp] theorem State.kick_clk (s : State) : (State.kick s).clk = s.clk := by simp [State.kick]
@[simp] theorem State.writeSeq_clk (s : State) (m : Nat) (r : RSpec) (v : Nat) : (State.writeSeq s m r v).clk = s.clk := by
  unfold State.writeSeq; simp only []; split <;> simp
@[simp] theorem State.writeSecure_clk (s : State) (r : RSpec) (j v : Nat) : (State.writeSecure s r j v).clk = s.clk := by
  unfold State.writeSecure; simp only []; split <;> simp
@[simp] theorem State.writeDramc_clk (s : State) (c : Nat) (r : RSpec) (j v : Nat) :
    (State.writeDramc s c r j v).clk = s.clk := by
  unfold State.writeDramc; (repeat' split) <;> simp
@[simp] theorem State.writeBench_clk (s : State) (r : RSpec) (v : Nat) : (State.writeBench s r v).clk = s.clk := by
  unfold State.writeBench; (repeat' split) <;> simp
@[simp] theorem State.laneCtlWrite_clk (s : State) (n v : Nat) :
    (State.laneCtlWrite s n v).clk = s.clk := by simp [State.laneCtlWrite]
@[simp] theorem State.eyeWrite_clk (s : State) (n : Nat) (r : RSpec) (v : Nat) :
    (State.eyeWrite s n r v).clk = s.clk := by simp [State.eyeWrite]
@[simp] theorem State.writeLanep_clk (s : State) (n : Nat) (r : RSpec) (j v : Nat) :
    (State.writeLanep s n r j v).clk = s.clk := by
  unfold State.writeLanep; (repeat' split) <;> simp
@[simp] theorem State.ptrWrite_clk (s : State) (n v : Nat) : (State.ptrWrite s n v).clk = s.clk := by simp [State.ptrWrite]
@[simp] theorem State.writeLanef_clk (s : State) (n : Nat) (r : RSpec) (j v : Nat) :
    (State.writeLanef s n r j v).clk = s.clk := by
  unfold State.writeLanef; simp only []; split <;> simp
@[simp] theorem State.listWrite_clk (s : State) (v : Nat) : (State.listWrite s v).clk = s.clk := by simp [State.listWrite]
@[simp] theorem State.writeMapc_clk (s : State) (r : RSpec) (j v : Nat) : (State.writeMapc s r j v).clk = s.clk := by
  unfold State.writeMapc; (repeat' split) <;> simp
@[simp] theorem State.writeProt_clk (s : State) (r : RSpec) (j v : Nat) : (State.writeProt s r j v).clk = s.clk := by
  unfold State.writeProt; simp only []; split <;> simp
@[simp] theorem State.writePort_clk (s : State) (p : Page) (r : RSpec) (j v : Nat) : (State.writePort s p r j v).clk = s.clk := by
  unfold State.writePort; simp only []; split <;> simp
@[simp] theorem State.writeEth_clk (s : State) (n : Nat) (r : RSpec) (j v : Nat) : (State.writeEth s n r j v).clk = s.clk := by
  unfold State.writeEth; (repeat' split) <;> simp
@[simp] theorem State.regSet_clk (s : State) (m : Nat) (p : Page) (i : Nat) (r : RSpec) (j v : Nat) :
    (State.regSet s m p i r j v).clk = s.clk := by
  unfold State.regSet; (repeat' split) <;> simp
@[simp] theorem State.regWrite_clk (s : State) (m a v : Nat) : (State.regWrite s m a v).1.clk = s.clk := by
  unfold State.regWrite; (repeat' split) <;> simp
@[simp] theorem State.clearRead_clk (s : State) (fs : List FSpec) (i j : Nat) :
    (State.clearRead s fs i j).clk = s.clk := by simp [State.clearRead]
@[simp] theorem State.regGet_clk (s : State) (user : Bool) (p : Page) (i : Nat) (r : RSpec) (j : Nat) :
    (State.regGet s user p i r j).1.clk = s.clk := by
  unfold State.regGet; (repeat' split) <;> simp
@[simp] theorem State.regRead_clk (s : State) (user : Bool) (a : Nat) : (State.regRead s user a).1.clk = s.clk := by
  unfold State.regRead; (repeat' split) <;> simp
@[simp] theorem State.hostWriteReg_clk (s : State) (a v : Nat) :
    (State.hostWriteReg s a v).clk = s.clk := by simp [State.hostWriteReg]
@[simp] theorem State.hostReadReg_clk (s : State) (user : Bool) (a : Nat) :
    (State.hostReadReg s user a).clk = s.clk := by simp [State.hostReadReg]
@[simp] theorem execRegWrite_clk (addr v : W32) (s : State) : clkKept s (execRegWrite addr v s) := by simp [execRegWrite]
@[simp] theorem execRcRead_clk (user : Bool) (addr : W32) (s : State) : clkKept s (execRcRead user addr s) := by simp [execRcRead]
@[simp] theorem execWord64LowerRead_clk (addr : W32) (s : State) :
    clkKept s (execWord64LowerRead addr s) := by simp [execWord64LowerRead]
@[simp] theorem execWord64LowerWrite_clk (addr v : W32) (s : State) :
    clkKept s (execWord64LowerWrite addr v s) := by simp [execWord64LowerWrite]
@[simp] theorem execWord64UpperWrite_clk (addr v : W32) (s : State) :
    clkKept s (execWord64UpperWrite addr v s) := by simp [execWord64UpperWrite]
@[simp] theorem State.hwBit_clk (s : State) (p : Page) (i : Nat) (r : RSpec) (j : Nat) (x : FSpec) (b : Nat) :
    (State.hwBit s p i r j x b).clk = s.clk := by simp [State.hwBit]
@[simp] theorem State.hwSet_clk (s : State) (a set : Nat) : (State.hwSet s a set).clk = s.clk := by
  unfold State.hwSet; (repeat' split) <;> simp
@[simp] theorem execW1cWrite_clk (addr v set : W32) (s : State) : clkKept s (execW1cWrite addr v set s) := by simp [execW1cWrite]
@[simp] theorem execPageLock_clk (p : Page) (i : Nat) (s : State) : clkKept s (execPageLock p i s) := by simp [execPageLock]
@[simp] theorem State.portDone_clk (s : State) (p : Port) (c : PortCmd) : (State.portDone s p c).clk = s.clk := by
  unfold State.portDone; (repeat' split) <;> simp
@[simp] theorem execIndirectCommandDone_clk (p : Port) (s : State) : clkKept s (execIndirectCommandDone p s) := by
  unfold execIndirectCommandDone; simp only []; split <;> simp
@[simp] theorem State.portAbandon_clk (s : State) (p : Port) : (State.portAbandon s p).clk = s.clk := by
  unfold State.portAbandon; simp only []; split <;> simp
@[simp] theorem execIndirectPortTimeout_clk (p : Port) (s : State) :
    clkKept s (execIndirectPortTimeout p s) := by
  unfold execIndirectPortTimeout; simp only []; split <;> simp
@[simp] theorem State.bridgeRead_clk (user : Bool) (n a : Nat) (s : State) : (State.bridgeRead user n a s).s.clk = s.clk := by
  induction n generalizing a s with
  | zero => rfl
  | succ n ih => unfold State.bridgeRead; dsimp only; split <;> simp [ih]
@[simp] theorem State.bridgeWrite_clk (m n a : Nat) (bs : List Byte) (s : State) :
    (State.bridgeWrite m n a bs s).s.clk = s.clk := by
  induction n generalizing a bs s with
  | zero => rfl
  | succ n ih => unfold State.bridgeWrite; dsimp only; split <;> simp [ih]
@[simp] theorem State.bridge_clk (s : State) (r : BusReq) : (State.bridge s r).s.clk = s.clk := by
  unfold State.bridge; (repeat' split) <;> simp
@[simp] theorem State.atTarget_clk (s : State) (r : BusReq) : (State.atTarget s r).s.clk = s.clk := by
  unfold State.atTarget; (repeat' split) <;> simp
@[simp] theorem Resp.readZero_clk (t : Resp) (r : BusReq) : (t.readZero r).s.clk = t.s.clk := by
  unfold Resp.readZero; split <;> simp
@[simp] theorem State.noteErr_clk (s : State) (r : BusReq) (cause : Nat) :
    (State.noteErr s r cause).clk = s.clk := by simp [State.noteErr]
@[simp] theorem State.transact_clk (s : State) (r : BusReq) : (s.transact r).s.clk = s.clk := by
  simp only [State.transact, State.noteErr_clk, Resp.readZero_clk, State.atTarget_clk]; split <;> simp
@[simp] theorem State.forgetTag_clk (s : State) (tag : Nat) : (State.forgetTag s tag).clk = s.clk := (rfl)
@[simp] theorem State.complete_clk (s : State) (tag status : Nat) (data : List Byte) :
    (State.complete s tag status data).clk = s.clk := by simp [State.complete]
@[simp] theorem State.answer_clk (s : State) (r : BusReq) (data : List Byte) (cause : Nat) :
    (State.answer s r data cause).clk = s.clk := by
  unfold State.answer; simp only []; split <;> simp
@[simp] theorem State.enter_clk (s : State) (r : BusReq) : (State.enter s r).clk = s.clk := by simp [State.enter]
@[simp] theorem State.forward_clk (s : State) (side : ChainSide) (f : BitVec 96) :
    (State.forward s side f).clk = s.clk := by simp [State.forward]
@[simp] theorem State.chainRespond_clk (s : State) (side : ChainSide) (f : BitVec 96) (op data : Nat) :
    (State.chainRespond s side f op data).clk = s.clk := by simp [State.chainRespond]
@[simp] theorem State.chainEnqueue_clk (s : State) (side : ChainSide) (f : BitVec 96) :
    (State.chainEnqueue s side f).clk = s.clk := by simp [State.chainEnqueue]
@[simp] theorem State.chainCommand_clk (s : State) (side : ChainSide) (f : BitVec 96) :
    (State.chainCommand s side f).clk = s.clk := by simp [State.chainCommand]
@[simp] theorem State.chainBroadcast_clk (s : State) (side : ChainSide) (f : BitVec 96) :
    (State.chainBroadcast s side f).clk = s.clk := by simp [State.chainBroadcast]
@[simp] theorem State.acted_clk (s : State) (f : BitVec 96) : (State.acted s f).clk = s.clk := by simp [State.acted]
@[simp] theorem State.chainWakeIn_clk (s : State) (side : ChainSide) (f : BitVec 96) (own : Bool) :
    (State.chainWakeIn s side f own).clk = s.clk := by simp [State.chainWakeIn]
@[simp] theorem State.chainOwnFrame_clk (s : State) (side : ChainSide) (f : BitVec 96) :
    (State.chainOwnFrame s side f).clk = s.clk := by simp [State.chainOwnFrame]
@[simp] theorem State.chainBroadcastFrame_clk (s : State) (side : ChainSide) (f : BitVec 96) :
    (State.chainBroadcastFrame s side f).clk = s.clk := by simp [State.chainBroadcastFrame]
@[simp] theorem State.enumerate_clk (s : State) (f : BitVec 96) : (State.enumerate s f).1.clk = s.clk := by
  unfold State.enumerate; simp only []; split <;> simp
@[simp] theorem State.ringFrame_clk (s : State) (side : ChainSide) (f : BitVec 96) :
    (State.ringFrame s side f).clk = s.clk := by simp [State.ringFrame]
@[simp] theorem State.armFrame_clk (s : State) (side : ChainSide) (f : BitVec 96) :
    (State.armFrame s side f).clk = s.clk := by simp [State.armFrame]
@[simp] theorem State.chainIn_clk (s : State) (side : ChainSide) (f : BitVec 96) :
    (State.chainIn s side f).clk = s.clk := by simp [State.chainIn]
@[simp] theorem State.chainRow_clk (s : State) (op : Nat) (side : ChainSide) (f : BitVec 96) :
    (State.chainRow s op side f).clk = s.clk := by simp [State.chainRow]
@[simp] theorem execChainEnum_clk (f : BitVec 96) (s : State) : clkKept s (execChainEnum f s) := by simp [execChainEnum]
@[simp] theorem execChainRd_clk (side : ChainSide) (f : BitVec 96) (s : State) :
    clkKept s (execChainRd side f s) := by simp [execChainRd]
@[simp] theorem execChainWr_clk (side : ChainSide) (f : BitVec 96) (s : State) :
    clkKept s (execChainWr side f s) := by simp [execChainWr]
@[simp] theorem execChainResetAddr_clk (side : ChainSide) (f : BitVec 96) (s : State) :
    clkKept s (execChainResetAddr side f s) := by simp [execChainResetAddr]
@[simp] theorem execChainWake_clk (side : ChainSide) (f : BitVec 96) (s : State) :
    clkKept s (execChainWake side f s) := by simp [execChainWake]
@[simp] theorem execChainForward_clk (side : ChainSide) (f : BitVec 96) (s : State) :
    clkKept s (execChainForward side f s) := by simp [execChainForward]
@[simp] theorem State.chMismatch_clk (s : State) : (State.chMismatch s).clk = s.clk := by simp [State.chMismatch]
@[simp] theorem State.chainPop_clk (s : State) : (State.chainPop s).clk = s.clk := by simp [State.chainPop]
@[simp] theorem State.chainAnswer_clk (s : State) (side : ChainSide) (f : BitVec 96) (t : Resp) :
    (State.chainAnswer s side f t).clk = s.clk := by simp [State.chainAnswer]
@[simp] theorem State.chainExecute_clk (s : State) : (State.chainExecute s).clk = s.clk := by
  unfold State.chainExecute; simp only []; split <;> simp
@[simp] theorem execNotifyRepeat_clk (s : State) : clkKept s (execNotifyRepeat s) := by
  unfold execNotifyRepeat; dsimp only; (repeat' split) <;> simp
@[simp] theorem execArmModeReturn_clk (s : State) : clkKept s (execArmModeReturn s) := by simp [execArmModeReturn]
@[simp] theorem execTokInChange_clk (on : Bool) (s : State) : clkKept s (execTokInChange on s) := by simp [execTokInChange]
@[simp] theorem execChainClockLoss_clk (g : ClockGap) (s : State) :
    clkKept s (execChainClockLoss g s) := by simp [execChainClockLoss]
@[simp] theorem State.lockBy_clk (s : State) (r : BusReq) : (State.lockBy s r).clk = s.clk := by simp [State.lockBy]
@[simp] theorem State.lockFree_clk (s : State) (r : BusReq) : (State.lockFree s r).clk = s.clk := by simp [State.lockFree]
@[simp] theorem State.grantReq_clk (s : State) (r : BusReq) : (s.grantReq r).clk = s.clk := by
  unfold State.grantReq; dsimp only; split <;> simp
@[simp] theorem State.serveReq_clk (s : State) (r : BusReq) : (State.serveReq s r).clk = s.clk := by
  simp [State.serveReq]
@[simp] theorem State.grant_clk (s : State) (t : Nat) (r : BusReq) : (State.grant s t r).clk = s.clk := by simp [State.grant]
@[simp] theorem State.serveNext_clk (s : State) (m : Nat) (r : BusReq) : (State.serveNext s m r).clk = s.clk := by
  unfold State.serveNext; (repeat' split) <;> simp
@[simp] theorem execChainCmdExecute_clk (s : State) : clkKept s (execChainCmdExecute s) := by
  unfold execChainCmdExecute; simp only []; split <;> simp
@[simp] theorem execTraceDrainWrite_clk (s : State) : clkKept s (execTraceDrainWrite s) := by
  unfold execTraceDrainWrite; simp only []; split <;> simp
@[simp] theorem State.windowTake_clk (s : State) (r : BusReq) : (State.windowTake s r).clk = s.clk := by
  simp [State.windowTake]
@[simp] theorem State.windowAsk_clk (s : State) (r : BusReq) : (State.windowAsk s r).clk = s.clk := by
  simp [State.windowAsk]
@[simp] theorem execWindowWrite_clk (m : Master) (addr : W32) (data : List Byte) (s : State) :
    clkKept s (execWindowWrite m addr data s) := by
  unfold execWindowWrite; dsimp only; (repeat' split) <;> simp
@[simp] theorem State.arbitrate_clk (s : State) (t : Nat) (b : Option PortBAccess) : (State.arbitrate s t b).clk = s.clk := by
  unfold State.arbitrate; dsimp only; (repeat' split) <;> simp
@[simp] theorem State.enterAll_clk (s : State) (rs : List MasterReq) :
    (State.enterAll s rs).clk = s.clk := by simp [State.enterAll]
@[simp] theorem execMatrixGrant_clk (t : Target) (rs : List MasterReq) (b : Option PortBAccess) (s : State) :
    clkKept s (execMatrixGrant t rs b s) := by simp [execMatrixGrant]
@[simp] theorem State.endFlight_clk (s : State) (t : Nat) (x : Inflight) (cause : Nat) :
    (State.endFlight s t x cause).clk = s.clk := by simp [State.endFlight]
@[simp] theorem execMatrixResponse_clk (t : Target) (s : State) : clkKept s (execMatrixResponse t s) := by
  unfold execMatrixResponse; simp only []; split <;> simp
@[simp] theorem State.matrixTimeout_clk (s : State) (t : Nat) : (State.matrixTimeout s t).clk = s.clk := by
  unfold State.matrixTimeout; simp only []; split <;> simp
@[simp] theorem execMatrixTimeout_clk (t : Target) (s : State) : clkKept s (execMatrixTimeout t s) := by simp [execMatrixTimeout]
@[simp] theorem State.bridgeTmo_clk (s : State) : (State.bridgeTmo s).clk = s.clk := by
  unfold State.bridgeTmo; (repeat' split) <;> simp
@[simp] theorem execBridgeTmo_clk (s : State) : clkKept s (execBridgeTmo s) := by simp [execBridgeTmo]
@[simp] theorem State.lockBrk_clk (s : State) (t : Nat) : (State.lockBrk s t).clk = s.clk := by
  unfold State.lockBrk; simp only []; split <;> simp
@[simp] theorem execLockBrk_clk (t : Target) (s : State) : clkKept s (execLockBrk t s) := by simp [execLockBrk]
@[simp] theorem execWdKick_clk (key : W32) (s : State) : clkKept s (execWdKick key s) := by simp [execWdKick]
@[simp] theorem State.wdFire_clk (s : State) : (State.wdFire s).clk = s.clk := by simp [State.wdFire]
@[simp] theorem execWdFired_clk (run : Nat) (s : State) : clkKept s (execWdFired run s) := by simp [execWdFired]
@[simp] theorem execRemapWrite_clk (m : Master) (remap : Bool) (s : State) :
    clkKept s (execRemapWrite m remap s) := by simp [execRemapWrite]
@[simp] theorem State.msixFlush_clk (s : State) : (State.msixFlush s).clk = s.clk := by simp [State.msixFlush]
@[simp] theorem State.tableWrite_clk (s : State) (o : Nat) (bs : List Byte) :
    (State.tableWrite s o bs).clk = s.clk := by simp [State.tableWrite]
@[simp] theorem State.pcieCfg_clk (s : State) (c : PcieCfg) : (State.pcieCfg s c).clk = s.clk := by
  unfold State.pcieCfg; simp only []; split <;> simp
@[simp] theorem execPcieConfigRequest_clk (c : PcieCfg) (s : State) :
    clkKept s (execPcieConfigRequest c s) := by simp [execPcieConfigRequest]
@[simp] theorem State.endpointReset_clk (s : State) (released : Bool) :
    (State.endpointReset s released).clk = s.clk := by simp [State.endpointReset]
@[simp] theorem execPerstN_clk (e : PerstEvent) (s : State) : clkKept s (execPerstN e s) := by
  unfold execPerstN; simp only []; split <;> simp
@[simp] theorem State.enterPieces_clk (s : State) (r : PcieReq) (user : Bool) (runs : List (Nat × Nat)) (pad : Nat) :
    (State.enterPieces s r user runs pad).clk = s.clk := by simp [State.enterPieces]
@[simp] theorem State.userError_clk (s : State) (r : PcieReq) (a : Nat) :
    (State.userError s r a).clk = s.clk := by simp [State.userError]
@[simp] theorem State.pcieServe_clk (s : State) (r : PcieReq) : (State.pcieServe s r).clk = s.clk := by
  unfold State.pcieServe; simp only []; split <;> simp
@[simp] theorem execPcieRequest_clk (r : PcieReq) (s : State) : clkKept s (execPcieRequest r s) := by
  unfold execPcieRequest; simp only []; split <;> simp
@[simp] theorem execPcieCompletionTimeout_clk (tag : Nat) (s : State) :
    clkKept s (execPcieCompletionTimeout tag s) := by simp [execPcieCompletionTimeout]
@[simp] theorem State.chainFlush_clk (limit n : Nat) (s : State) : (State.chainFlush limit n s).clk = s.clk := by
  induction n generalizing s with
  | zero => rfl
  | succ n ih => unfold State.chainFlush; dsimp only; split <;> simp [ih]
@[simp] theorem State.notifyTurn_clk (s : State) : (State.notifyTurn s).clk = s.clk := by simp [State.notifyTurn]
@[simp] theorem State.levelCount_clk (s : State) (p : Page) (i k n : Nat) : (s.levelCount p i k n).clk = s.clk := by
  unfold State.levelCount; dsimp only; (repeat' split) <;> simp
@[simp] theorem State.pageLevels_clk (s : State) (n : Nat) (x : Page × Nat) : (State.pageLevels s n x).clk = s.clk := by
  unfold State.pageLevels; (repeat' split) <;> simp
@[simp] theorem State.holdCount_clk (s : State) (n : Nat) : (State.holdCount s n).clk = s.clk := by simp [State.holdCount]
@[simp] theorem State.elapse_clk (s : State) (n : Nat) : (State.elapse s n).clk = s.clk := by simp [State.elapse]
@[simp] theorem State.cycleTurn_clk (s : State) : (State.cycleTurn s).clk = s.clk := by simp [State.cycleTurn]
@[simp] theorem State.laneCounts_clk (s : State) (u : LaneCols) : (State.laneCounts s u).clk = s.clk := by simp [State.laneCounts]
@[simp] theorem State.eqFrames_clk (s : State) (i : HingeIn) (u : Inputs) (groom : Bool) :
    (State.eqFrames s i u groom).1.clk = s.clk := by
  unfold State.eqFrames
  rw [foldl_fst_clk]
  intro t e; dsimp only; split
  · rfl
  · exact State.eqFrame_clk ..
@[simp] theorem State.legTurn_clk (s : State) (e : SlotEnv) (k : Nat) (at' : State) (x : Nat × Nat) :
    (State.legTurn s e k at' x).clk = s.clk := by simp [State.legTurn]
@[simp] theorem State.legsTurn_clk (s : State) (e : SlotEnv) (k : Nat) :
    (State.legsTurn s e k).clk = s.clk := by simp [State.legsTurn]
@[simp] theorem State.groomReport_clk (s : State) (old new : Nat) (moved : Bool) :
    (State.groomReport s old new moved).clk = s.clk := by simp [State.groomReport]
@[simp] theorem State.groomTake_clk (s : State) (k g : Nat) (b : List Byte) (par : Byte) :
    (State.groomTake s k g b par).clk = s.clk := by simp [State.groomTake]
@[simp] theorem State.groomDefault_clk (s : State) (k q : Nat) :
    (State.groomDefault s k q).clk = s.clk := by simp [State.groomDefault]
@[simp] theorem State.pwTake_clk (s : State) (k : Nat) (out : Nat → Col) :
    (State.pwTake s k out).clk = s.clk := by simp [State.pwTake]
@[simp] theorem State.benchTake_clk (s : State) (out : Nat → Col) :
    (State.benchTake s out).clk = s.clk := by simp [State.benchTake]
@[simp] theorem State.detReport_clk (s : State) (w : WordRef) : (State.detReport s w).clk = s.clk := by
  unfold State.detReport; dsimp only; (repeat' split) <;> simp
@[simp] theorem State.parReport_clk (s : State) (e : Fin 75 × Fin 36 × BitVec 13) :
    (State.parReport s e).clk = s.clk := by simp [State.parReport]
@[simp] theorem State.slotParReport_clk (s : State) (a : Nat) :
    (State.slotParReport s a).clk = s.clk := by simp [State.slotParReport]
@[simp] theorem State.detections_clk (s : State) (i : HingeIn) : (State.detections s i).clk = s.clk := by simp [State.detections]
@[simp] theorem State.sendOutputs_clk (s : State) (i : HingeIn) (u : Inputs) :
    (State.sendOutputs s i u).clk = s.clk := (rfl)
@[simp] theorem State.groomsTake_clk (s : State) (k : Nat) (keys : List Nat) (sent : SMap Col) (out : Nat → Col) :
    (State.groomsTake s k keys sent out).clk = s.clk := by simp [State.groomsTake]
@[simp] theorem State.fabricFrame_clk (s : State) (i : HingeIn) : (State.fabricFrame s i).clk = s.clk := by
  simp [State.fabricFrame]
@[simp] theorem State.moves_clk (old s : State) : (State.moves old s).clk = s.clk := by simp [State.moves]
@[simp] theorem State.eqTurns_clk (old s : State) : (State.eqTurns old s).1.clk = s.clk := by simp [State.eqTurns]
@[simp] theorem State.benchTurns_clk (s : State) : (State.benchTurns s).clk = s.clk := by simp [State.benchTurns]
@[simp] theorem State.decisions_clk (old s : State) : (State.decisions old s).clk = s.clk := by simp [State.decisions]
@[simp] theorem State.sourceChanges_clk (old s : State) (more : List Nat) :
    (State.sourceChanges old s more).clk = s.clk := by simp [State.sourceChanges]
@[simp] theorem State.mirrorSelTurn_clk (old s : State) (e : Nat × Sel) : (State.mirrorSelTurn old s e).clk = s.clk := by
  unfold State.mirrorSelTurn; split <;> simp
@[simp] theorem State.mirrorGrpTurn_clk (old s : State) (e : Nat × Sel) : (State.mirrorGrpTurn old s e).clk = s.clk := by
  unfold State.mirrorGrpTurn; split <;> simp
@[simp] theorem State.mirrorSels_clk (old s : State) : (State.mirrorSels old s).clk = s.clk :=
  foldl_clk (State.mirrorSelTurn old) _ _ (State.mirrorSelTurn_clk old)
@[simp] theorem State.mirrorGrps_clk (old s : State) : (State.mirrorGrps old s).clk = s.clk :=
  foldl_clk (State.mirrorGrpTurn old) _ _ (State.mirrorGrpTurn_clk old)
@[simp] theorem State.mirrorTurn_clk (old s : State) : (State.mirrorTurn old s).clk = s.clk :=
  (State.mirrorFrame_clk _).trans ((State.mirrorGrps_clk _ _).trans (State.mirrorSels_clk _ _))
@[simp] theorem State.trafficHinge_clk (old s : State) : (State.trafficHinge old s).clk = s.clk := by simp [State.trafficHinge]
@[simp] theorem State.clockTurn_clk (s : State) : (State.clockTurn s).clk = s.clk := by simp [State.clockTurn]
@[simp] theorem State.fillChecks_clk (s : State) (i : HingeIn) : (State.fillChecks s i).clk = s.clk := by simp [State.fillChecks]
@[simp] theorem State.changes_clk (old s : State) : (State.changes old s).clk = s.clk := by simp [State.changes]
@[simp] theorem execMapInitDone_clk (s : State) : clkKept s (execMapInitDone s) := by simp [execMapInitDone]

end Sys2Proof.Machine
end

