-- ==== Sys2Proof/Laws/Ops.lean ====
section
/-! SUPPORT. The shared operations: which registers a write, a count, an event and a recovery reach, and what else they leave alone. -/
namespace Sys2Proof.Machine

/-! Places of registers (R406): fields of different places have different keys. -/

/-- Field `f` of page instance `i`, array index `j`, lies in its page. -/
def Fld.Placed (f : Fld) (i j : Nat) : Prop := i < pageCount f.page ∧ f.off + f.stride * j < 0x1000 ∧ f.lsb < 64

theorem pageAt_pageBase (p : Page) : ∀ i < pageCount p, pageAt (pageBase p i) = some (p, i, 0) := by
  cases p <;> decide

theorem pageBase_block (p : Page) (i : Nat) : pageBase p i % 0x1000 = 0 := by
  cases p <;> simp [pageBase] <;> omega

/-- Pages do not overlap. -/
theorem pageBase_inj {p q : Page} {i k a b : Nat} (hi : i < pageCount p) (hk : k < pageCount q) (ha : a < 0x1000) (hb : b < 0x1000)
    (h : pageBase p i + a = pageBase q k + b) : p = q ∧ i = k ∧ a = b := by
  have h1 := pageBase_block p i
  have h2 := pageBase_block q k
  have e : pageBase p i = pageBase q k := by omega
  have x := pageAt_pageBase p i hi
  rw [e, pageAt_pageBase q k hk] at x
  simp at x
  exact ⟨x.1.symm, x.2.symm, by omega⟩

/-- The key of a field tells its page, instance, place and bit. -/
theorem Fld.key_inj {f g : Fld} {i j k l : Nat} (hf : f.Placed i j) (hg : g.Placed k l) (h : f.key i j = g.key k l) :
    f.page = g.page ∧ i = k ∧ f.off + f.stride * j = g.off + g.stride * l ∧ f.lsb = g.lsb := by
  obtain ⟨hi, ho, hb⟩ := hf
  obtain ⟨hk, hp, hc⟩ := hg
  simp only [Fld.key, Fld.addr] at h
  have := pageBase_inj hi hk ho hp (by omega)
  exact ⟨this.1, this.2.1, this.2.2, by omega⟩

variable {s : State}

/-- A write leaves a field of another page, instance, register or bit. -/
theorem State.rd_wr_other {f g : Fld} {i j k l : Nat} (v : Nat) (hf : f.Placed i j) (hg : g.Placed k l)
    (h : f.page ≠ g.page ∨ i ≠ k ∨ f.off + f.stride * j ≠ g.off + g.stride * l ∨ f.lsb ≠ g.lsb) :
    (s.wr f v i j).rd g k l = s.rd g k l :=
  s.rd_wr_ne v (fun e => by have := Fld.key_inj hf hg e.symm; tauto)

/-! What a report leaves alone: an event, a count, a notification change the registers, the event store, what leaves the block, the
pending-bit array and the chain outputs, and nothing else. -/

/-- `t` differs from `s` only in what reports change. -/
def State.Reports (s t : State) : Prop := t = { s with regs := t.regs, ev := t.ev, out := t.out, pcie := t.pcie, chain := t.chain }

theorem State.Reports.refl (s : State) : s.Reports s := rfl
theorem State.Reports.trans {s t u : State} (h : s.Reports t) (k : t.Reports u) : s.Reports u := by
  unfold State.Reports at *; rw [k, h]
theorem State.Reports.ite {t u : State} (c : Prop) [Decidable c] (h : s.Reports t) (k : s.Reports u) : s.Reports (if c then t else u) := by
  split <;> assumption
theorem State.Reports.foldl {α : Type} (g : State → α → State) (l : List α) (h : ∀ s x, State.Reports s (g s x)) : s.Reports (l.foldl g s) := by
  induction l generalizing s with
  | nil => exact .refl s
  | cons x l ih => exact (h s x).trans ih

theorem State.wr_reports (f : Fld) (v i j : Nat) : s.Reports (s.wr f v i j) := rfl
theorem State.bump_reports (f : Fld) (n i j : Nat) : s.Reports (s.bump f n i j) := rfl
theorem State.emit_reports (o : Out) : s.Reports (s.emit o) := rfl

theorem State.cntAdd_reports (p : Page) (i k n : Nat) : s.Reports (s.cntAdd p i k n) := by
  unfold State.cntAdd; dsimp only; split <;> exact rfl

theorem State.count1_reports (p : Page) (i c n k : Nat) : s.Reports (s.count1 p i c n k) := by
  unfold State.count1; split
  · split
    · exact State.cntAdd_reports ..
    · exact State.cntAdd_reports ..
    · exact .refl s
  · exact .refl s

/-- A count is a report. -/
theorem State.count_reports (p : Page) (i c n : Nat) : s.Reports (s.count p i c n) := by
  unfold State.count; split
  · exact .refl s
  · exact .foldl _ _ (fun s k => State.count1_reports ..)

theorem State.msixFire_reports (v : Nat) : s.Reports (s.msixFire v) := by
  unfold State.msixFire; dsimp only; (repeat' split) <;> exact rfl

theorem State.chainPump_reports (n : Nat) : s.Reports (s.chainPump n) := by
  unfold State.chainPump; (repeat' split) <;> exact rfl

theorem State.chainOwn_reports (side : ChainSide) (f : BitVec 96) : s.Reports (s.chainOwn side f) :=
  State.Reports.trans (t := { s with chain := { s.chain with own := s.chain.own ++ [(side, f)] } }) rfl (State.chainPump_reports _)

theorem State.notify_reports : s.Reports s.notify := by
  unfold State.notify; dsimp only
  (repeat' split) <;> first
    | exact rfl
    | exact State.Reports.trans (t := { s with chain := { s.chain with notifyAt := some s.now, notifyDue := false } }) rfl
        (State.chainOwn_reports _ _)

section
variable (r : Page → Nat → Nat → State → State) (hr : ∀ p i b s, State.Reports s (r p i b s))
include hr

theorem wmCheck_reports (w l : Nat) : s.Reports (wmCheck r w l s) := by
  unfold wmCheck; dsimp only; split
  · exact .refl s
  · exact (State.wr_reports ..).trans (hr ..)

theorem queueItem_reports (x : W64) : s.Reports (queueItem r x s) := by
  unfold queueItem; dsimp only; split
  · refine State.Reports.trans ?_ (wmCheck_reports r hr ..)
    exact State.Reports.trans (t := { s with ev := { s.ev with queue := s.ev.queue ++ [x] } }) rfl (State.count_reports ..)
  · exact ((State.wr_reports ..).trans (State.bump_reports ..)).trans (hr ..)

theorem becomePending_reports (p : Page) (i b : Nat) (w : Bool) : s.Reports (becomePending r p i b w s) := by
  unfold becomePending; dsimp only
  have h1 : s.Reports (if s.on R.EVENT_GRP_ROUTE_MSIX_EN 0 (eventGroup p i) then
      s.msixFire (s.rd R.EVENT_GRP_ROUTE_VECTOR 0 (eventGroup p i)) else s) := by
    split
    · exact State.msixFire_reports _
    · exact .refl s
  generalize (if s.on R.EVENT_GRP_ROUTE_MSIX_EN 0 (eventGroup p i) then
      s.msixFire (s.rd R.EVENT_GRP_ROUTE_VECTOR 0 (eventGroup p i)) else s) = t at h1 ⊢
  refine h1.trans ?_
  have h2 : ∀ x, t.Reports (if t.on R.EVENT_GRP_ROUTE_QUEUE_EN 0 (eventGroup p i) then queueItem r x t else t) := by
    intro x; split
    · exact queueItem_reports r hr _
    · exact .refl t
  refine (h2 (BitVec.ofNat 64 (2 ^ 60 + (32 * eventGroup p i + eventGroupBit p b) * 2 ^ 48 + t.epoch % 2 ^ 40))).trans ?_
  exact .ite _ State.notify_reports (.refl _)
end

theorem raiseN_reports (n : Nat) (p : Page) (i b : Nat) (s : State) : s.Reports (raiseN n p i b s) := by
  induction n generalizing p i b s with
  | zero => exact .refl s
  | succ n ih =>
    unfold raiseN; dsimp only
    split
    · exact .refl s
    · split
      · exact State.wr_reports ..
      · exact (State.wr_reports ..).trans (becomePending_reports _ ih _ _ _ _)

/-- An event is a report. -/
theorem State.raise_reports (p : Page) (i b : Nat) : s.Reports (s.raise p i b) := raiseN_reports 4 p i b s

/-- A self-recovery recorded at once is a report. -/
theorem State.recordRecovery_reports (c w : Nat) : s.Reports (s.recordRecovery c w) := by
  unfold State.recordRecovery; dsimp only
  refine State.Reports.trans ?_ (State.count_reports ..)
  refine State.Reports.trans ?_ (State.raise_reports ..)
  exact rfl

/-! Which registers a report reaches: none outside the header of a page, but for the EVENT page's own and RECOV. -/

/-- `t` reads like `s` in every field from offset 0x100 on of every page but EVENT. -/
def State.SameRegs (s t : State) : Prop :=
  ∀ (g : Fld) (x y : Nat), g.Placed x y → 0x100 ≤ g.off → g.page ≠ .event → t.rd g x y = s.rd g x y

theorem State.SameRegs.refl (s : State) : s.SameRegs s := fun _ _ _ _ _ _ => rfl
theorem State.SameRegs.trans {s t u : State} (h : s.SameRegs t) (k : t.SameRegs u) : s.SameRegs u :=
  fun g x y p o e => (k g x y p o e).trans (h g x y p o e)
theorem State.SameRegs.ite {t u : State} (c : Prop) [Decidable c] (h : s.SameRegs t) (k : s.SameRegs u) :
    s.SameRegs (if c then t else u) := by
  split <;> assumption
theorem State.SameRegs.foldl {α : Type} (g : State → α → State) (l : List α) (h : ∀ s x, x ∈ l → State.SameRegs s (g s x)) : s.SameRegs (l.foldl g s) := by
  induction l generalizing s with
  | nil => exact .refl s
  | cons x l ih => exact (h s x (by simp)).trans (ih (fun s y hy => h s y (by simp [hy])))
theorem State.SameRegs.of_regs {s t : State} (h : t.regs = s.regs) : s.SameRegs t := fun g x y _ _ _ => by simp [State.rd, h]

theorem State.wr_sameRegs (f : Fld) (v i j : Nat) (hf : f.Placed i j) (h : f.off + f.stride * j < 0x100 ∨ f.page = .event) :
    s.SameRegs (s.wr f v i j) := fun g x y hg ho he => by
  refine State.rd_wr_other v hf hg ?_
  rcases h with h | h
  · exact .inr (.inr (.inl (by have := Nat.le_add_right g.off (g.stride * y); omega)))
  · exact .inl (fun e => he (e ▸ h))

theorem State.cntAdd_sameRegs (p : Page) (i k n : Nat) (hi : i < pageCount p) (hk : k < 8) : s.SameRegs (s.cntAdd p i k n) := by
  have h1 : (R.HDR_CNT_COUNT p).Placed i k := ⟨hi, by simp [R.HDR_CNT_COUNT]; omega, by simp [R.HDR_CNT_COUNT]⟩
  have h2 : (R.HDR_CNT_SEL_WRAP p).Placed i k := ⟨hi, by simp [R.HDR_CNT_SEL_WRAP]; omega, by simp [R.HDR_CNT_SEL_WRAP]⟩
  have a : s.SameRegs (s.wr (R.HDR_CNT_COUNT p) (s.rd (R.HDR_CNT_COUNT p) i k + n) i k) :=
    State.wr_sameRegs _ _ _ _ h1 (.inl (by simp [R.HDR_CNT_COUNT]; omega))
  unfold State.cntAdd; dsimp only; split
  · exact a
  · exact (a.trans (State.wr_sameRegs _ 1 _ _ h2 (.inl (by simp [R.HDR_CNT_SEL_WRAP]; omega)))).trans (.of_regs rfl)

/-- A count reaches header fields alone. -/
theorem State.count_sameRegs (p : Page) (i c n : Nat) (hi : i < pageCount p) : s.SameRegs (s.count p i c n) := by
  unfold State.count; split
  · exact .refl s
  · refine .foldl _ _ (fun s k hk => ?_)
    simp only [List.mem_range] at hk
    unfold State.count1; split
    · split
      · exact State.cntAdd_sameRegs _ _ _ _ hi hk
      · exact State.cntAdd_sameRegs _ _ _ _ hi hk
      · exact .refl s
    · exact .refl s

theorem State.msixFire_sameRegs (v : Nat) : s.SameRegs (s.msixFire v) := by
  refine .of_regs ?_
  unfold State.msixFire; dsimp only; (repeat' split) <;> exact (rfl)

theorem State.chainPump_sameRegs (n : Nat) : s.SameRegs (s.chainPump n) := by
  refine .of_regs ?_
  unfold State.chainPump; (repeat' split) <;> exact (rfl)

theorem State.chainOwn_sameRegs (side : ChainSide) (f : BitVec 96) : s.SameRegs (s.chainOwn side f) :=
  State.SameRegs.trans (t := { s with chain := { s.chain with own := s.chain.own ++ [(side, f)] } }) (.of_regs rfl) (State.chainPump_sameRegs _)

theorem State.notify_sameRegs : s.SameRegs s.notify := by
  unfold State.notify; dsimp only
  (repeat' split) <;> first
    | exact .of_regs rfl
    | exact State.SameRegs.trans (t := { s with chain := { s.chain with notifyAt := some s.now, notifyDue := false } }) (.of_regs rfl)
        (State.chainOwn_sameRegs _ _)

section
variable (r : Page → Nat → Nat → State → State) (hr : ∀ b s, State.SameRegs s (r .event 0 b s))
include hr

theorem wmCheck_sameRegs (w l : Nat) (hw : w < 4) : s.SameRegs (wmCheck r w l s) := by
  unfold wmCheck; dsimp only; split
  · exact .refl s
  · exact (State.wr_sameRegs R.EVENT_WM_STICKY 1 0 w ⟨by decide, by simp only [R.EVENT_WM_STICKY]; omega, by decide⟩
      (.inr rfl)).trans (hr _ _)

theorem queueItem_sameRegs (x : W64) : s.SameRegs (queueItem r x s) := by
  unfold queueItem; dsimp only; split
  · refine State.SameRegs.trans ?_ (wmCheck_sameRegs r hr _ _ (by omega))
    exact State.SameRegs.trans (t := { s with ev := { s.ev with queue := s.ev.queue ++ [x] } }) (.of_regs rfl)
      (State.count_sameRegs _ _ _ _ (by decide))
  · refine State.SameRegs.trans ?_ (hr _ _)
    refine State.SameRegs.trans (State.wr_sameRegs R.EVENT_EQ_STAT_OVERRUN 1 0 0 (by unfold Fld.Placed; decide) (.inr rfl)) ?_
    exact State.wr_sameRegs R.EVENT_EQ_CNT_DROPPED _ 0 0 (by unfold Fld.Placed; decide) (.inr rfl)

theorem becomePending_sameRegs (p : Page) (i b : Nat) (w : Bool) : s.SameRegs (becomePending r p i b w s) := by
  unfold becomePending; dsimp only
  have h1 : s.SameRegs (if s.on R.EVENT_GRP_ROUTE_MSIX_EN 0 (eventGroup p i) then
      s.msixFire (s.rd R.EVENT_GRP_ROUTE_VECTOR 0 (eventGroup p i)) else s) := by
    split
    · exact State.msixFire_sameRegs _
    · exact .refl s
  generalize (if s.on R.EVENT_GRP_ROUTE_MSIX_EN 0 (eventGroup p i) then
      s.msixFire (s.rd R.EVENT_GRP_ROUTE_VECTOR 0 (eventGroup p i)) else s) = t at h1 ⊢
  refine h1.trans ?_
  have h2 : ∀ x, t.SameRegs (if t.on R.EVENT_GRP_ROUTE_QUEUE_EN 0 (eventGroup p i) then queueItem r x t else t) := by
    intro x; split
    · exact queueItem_sameRegs r hr _
    · exact .refl t
  refine (h2 (BitVec.ofNat 64 (2 ^ 60 + (32 * eventGroup p i + eventGroupBit p b) * 2 ^ 48 + t.epoch % 2 ^ 40))).trans ?_
  exact .ite _ State.notify_sameRegs (.refl _)
end

theorem raiseN_sameRegs (n : Nat) (p : Page) (i b : Nat) (s : State) (hi : i < pageCount p) : s.SameRegs (raiseN n p i b s) := by
  induction n generalizing p i b s with
  | zero => exact .refl s
  | succ n ih =>
    have h : s.SameRegs (s.wr (R.HDR_EVT_STATUS_STATUS p) (setBit (s.rd (R.HDR_EVT_STATUS_STATUS p) i) b) i) :=
      State.wr_sameRegs _ _ _ _ ⟨hi, by simp [R.HDR_EVT_STATUS_STATUS], by simp [R.HDR_EVT_STATUS_STATUS]⟩
        (.inl (by simp [R.HDR_EVT_STATUS_STATUS]))
    unfold raiseN; dsimp only
    split
    · exact .refl s
    · split
      · exact h
      · exact h.trans (becomePending_sameRegs _ (fun b s => ih .event 0 b s (by decide)) _ _ _ _)

/-- An event reaches header fields and the EVENT page alone. -/
theorem State.raise_sameRegs (p : Page) (i b : Nat) (hi : i < pageCount p) : s.SameRegs (s.raise p i b) := raiseN_sameRegs 4 p i b s hi

/-- A field from offset 0x100 on of any page but EVENT reads after an event as before. -/
theorem State.rd_raise (p : Page) (i b : Nat) (g : Fld) (x y : Nat) (hi : i < pageCount p) (hg : g.Placed x y) (ho : 0x100 ≤ g.off)
    (he : g.page ≠ .event) : (s.raise p i b).rd g x y = s.rd g x y := State.raise_sameRegs p i b hi g x y hg ho he

/-- So it does after a count. -/
theorem State.rd_count (p : Page) (i c n : Nat) (g : Fld) (x y : Nat) (hi : i < pageCount p) (hg : g.Placed x y) (ho : 0x100 ≤ g.off)
    (he : g.page ≠ .event) : (s.count p i c n).rd g x y = s.rd g x y := State.count_sameRegs p i c n hi g x y hg ho he

/-! The own effect of an event. -/

/-- A masked event sets its status bit and does nothing more (R337). -/
theorem State.raise_masked (p : Page) (i b : Nat) (hu : s.pageUp p i = true) (hs : (s.rd (R.HDR_EVT_STATUS_STATUS p) i).testBit b = false)
    (hm : (s.rd (R.HDR_EVT_MASK_MASK p) i).testBit b = true) :
    s.raise p i b = s.wr (R.HDR_EVT_STATUS_STATUS p) (setBit (s.rd (R.HDR_EVT_STATUS_STATUS p) i) b) i := by
  have hm' : ((s.wr (R.HDR_EVT_STATUS_STATUS p) (setBit (s.rd (R.HDR_EVT_STATUS_STATUS p) i) b) i).rd (R.HDR_EVT_MASK_MASK p) i).testBit b
      = true := by
    rw [s.rd_wr_ne _ (by simp [Fld.key, Fld.addr, R.HDR_EVT_MASK_MASK, R.HDR_EVT_STATUS_STATUS])]; exact hm
  simp [State.raise, raiseN, hu, hs, hm']

/-- An event of a page that is off, or that stands already, does nothing (R337, R338). -/
theorem State.raise_none (p : Page) (i b : Nat) (h : s.pageUp p i = false ∨ (s.rd (R.HDR_EVT_STATUS_STATUS p) i).testBit b = true) :
    s.raise p i b = s := by
  rcases h with h | h <;> simp [State.raise, raiseN, h]

/-! A write of a page, and a command at an indirect port. -/

/-- A page that serves its offsets takes the write (R334). -/
theorem State.onPage_served {p : Page} {i : Nat} {f : State → State} (h : s.served p i = true) : s.onPage p i f = .next (f s.start) := by
  simp [State.onPage, h, ok]

/-- A page that does not serve its offsets takes none. -/
theorem State.onPage_off {p : Page} {i : Nat} {f : State → State} (h : s.served p i = false) : s.onPage p i f = .next s.start := by
  simp [State.onPage, h, ok]

/-- A port that is idle latches the command, shows BUSY and starts its timer (R404). -/
theorem State.portLatch_idle {p : Port} {c : PortCmd} (h : s.portBusy p = false) :
    s.portLatch p c = ({ s with ports := mput s.ports (portKey p) c }.wr (portBusyFld p).1 1 (portBusyFld p).2).mark (.port (portKey p)) := by
  simp [State.portLatch, h]

/-- A port that is busy ignores it. -/
theorem State.portLatch_busy {p : Port} {c : PortCmd} (h : s.portBusy p = true) : s.portLatch p c = s := by
  simp [State.portLatch, h]

/-- The start of a command changes no port. -/
@[simp] theorem State.start_portBusy (p : Port) : s.start.portBusy p = s.portBusy p := rfl

/-- A command that ends leaves its port idle, with BUSY at 0. -/
theorem State.portFree_idle (p : Port) : (s.portFree p).portBusy p = false := by
  simp [State.portFree, State.portBusy]

end Sys2Proof.Machine
end

