-- ==== Sys2Proof/Laws/Lanes.lean ====
section
/-! SUPPORT. Lane operations: what a raw condition, a declaration and the entry to SEARCH change, and what they leave. -/
namespace Sys2Proof.Machine
variable {s : State} {n : Nat}

@[simp] theorem State.updLane_rd (f : Lane → Lane) (g : Fld) (x y : Nat) : (s.updLane n f).rd g x y = s.rd g x y := (rfl)
@[simp] theorem State.wr_lane (g : Fld) (v x y m : Nat) : (s.wr g v x y).lane m = s.lane m := (rfl)

/-- A report leaves every lane. -/
theorem State.Reports.lane {t : State} (h : s.Reports t) (m : Nat) : t.lane m = s.lane m := by
  unfold State.Reports at h; rw [h]; rfl

/-- A bit cleared reads as 0. -/
theorem testBit_clrBit (m b : Nat) : (clrBit m b).testBit b = false := by
  unfold clrBit; split
  · have h := Nat.ge_two_pow_of_testBit ‹m.testBit b = true›
    have e := Nat.testBit_two_pow_add_eq (m - 2 ^ b) b
    rw [Nat.add_sub_cancel' h] at e
    simp_all
  · simp_all

/-- A bit set reads as 1. -/
theorem testBit_setBit (m b : Nat) : (setBit m b).testBit b = true := by
  simp [setBit, Nat.testBit_or, Nat.testBit_shiftLeft]

theorem testBit_putBit (m b : Nat) (v : Bool) : (putBit m b v).testBit b = v := by
  cases v <;> simp [putBit, testBit_setBit, testBit_clrBit]

/-- An integrator that starts leaves every field, and the candidates of every lane. -/
@[simp] theorem State.integStart_rd (m b : Nat) (v : Bool) (g : Fld) (x y : Nat) : (s.integStart m b v).rd g x y = s.rd g x y := by
  unfold State.integStart; dsimp only; (repeat' split) <;> rfl
@[simp] theorem State.integStart_cands (b : Nat) (v : Bool) : ((s.integStart n b v).lane n).cands = (s.lane n).cands := by
  unfold State.integStart; dsimp only; (repeat' split) <;> simp

/-- A raw condition leaves every field but that of the raw conditions (R89). -/
theorem State.setRawDef_rd (b : Nat) (v : Bool) {g : Fld} {x y : Nat} (h : g.key x y ≠ R.LANEF_DEF_RAW_DEFECTS.key n 0) :
    (s.setRawDef n b v).rd g x y = s.rd g x y := by
  unfold State.setRawDef; dsimp only
  (repeat' split) <;> first | rfl | simp [State.rd_wr_ne _ _ h]

/-- A raw condition of a running lane shows in its bit (R89). -/
theorem State.setRawDef_raw (b : Nat) (v : Bool) (h : s.running n = true) :
    (s.setRawDef n b v).laneRaw n = putBit (s.laneRaw n) b v % 2 ^ 11 := by
  unfold State.setRawDef State.laneRaw; dsimp only
  simp only [h, Bool.not_true, Bool.false_eq_true, if_false]
  split <;> simp [R.LANEF_DEF_RAW_DEFECTS]

/-- A raw condition leaves the candidates of every lane. -/
theorem State.setRawDef_cands (b : Nat) (v : Bool) : ((s.setRawDef n b v).lane n).cands = (s.lane n).cands := by
  unfold State.setRawDef; dsimp only
  (repeat' split) <;> simp

/-- A declaration leaves every field but DEF from offset 0x100 on of every page but EVENT (R89). -/
theorem State.setDef_rd (b : Nat) (v : Bool) (hn : n < 64) {g : Fld} {x y : Nat} (hg : g.Placed x y) (ho : 0x100 ≤ g.off)
    (he : g.page ≠ .event) (h : g.key x y ≠ R.LANEF_DEF_DEFECTS.key n 0) : (s.setDef n b v).rd g x y = s.rd g x y := by
  unfold State.setDef; split
  · rfl
  · rw [State.rd_raise _ _ _ _ _ _ (by simpa [pageCount] using hn) hg ho he]
    unfold State.setRaw
    rw [State.rd_wr_ne _ _ (fun e => by
      have := Fld.key_inj (f := g) (g := R.HDR_EVT_RAW_RAW .lanef) (j := y) (l := 0) hg
        ⟨by simpa [pageCount, R.HDR_EVT_RAW_RAW] using hn, by simp [R.HDR_EVT_RAW_RAW], by simp [R.HDR_EVT_RAW_RAW]⟩ e
      have h3 := this.2.2.1
      simp [R.HDR_EVT_RAW_RAW] at h3; omega), State.rd_wr_ne _ _ h]

/-- A declaration shows in DEF. -/
theorem State.setDef_def (b : Nat) (v : Bool) (hn : n < 64) (hb : b < 11) : ((s.setDef n b v).laneDef n).testBit b = v := by
  unfold State.setDef; split
  · assumption
  · unfold State.laneDef
    have hp : R.LANEF_DEF_DEFECTS.Placed n 0 := ⟨by simpa [pageCount, R.LANEF_DEF_DEFECTS] using hn, by simp [R.LANEF_DEF_DEFECTS],
      by simp [R.LANEF_DEF_DEFECTS]⟩
    rw [State.rd_raise _ _ _ _ _ _ (by simpa [pageCount] using hn) hp (by simp [R.LANEF_DEF_DEFECTS]) (by simp [R.LANEF_DEF_DEFECTS])]
    unfold State.setRaw
    rw [State.rd_wr_ne _ _ (fun e => by
      simp [Fld.key, Fld.addr, R.LANEF_DEF_DEFECTS, R.HDR_EVT_RAW_RAW] at e), State.rd_wr_same]
    simp only [R.LANEF_DEF_DEFECTS, Nat.testBit_mod_two_pow, hb, decide_true, Bool.true_and]
    exact testBit_putBit _ _ _

/-- A declaration leaves every lane's record. -/
theorem State.setDef_lane (b : Nat) (v : Bool) (m : Nat) : (s.setDef n b v).lane m = s.lane m := by
  unfold State.setDef; split
  · rfl
  · exact (State.raise_reports _ _ _).lane m

/-! The entry to SEARCH (R85, R91), as what it does before OOF is declared and LOF's raw condition is set. -/

/-- The state in which `enterSearch` declares OOF: the cell dropped, the reception cleared, STATE and the raw conditions written. -/
def State.searchBase (s : State) (n : Nat) : State :=
  let a := if (s.lane n).cell.isSome then s.cellDropped n else s
  let b := a.updLane n (fun l => { l with
      cands := [], errFas := 0, runUnit := {}, runAps := {}, runFb := {}, runLabel := {}, runAis := {}, runRdi := {},
      asm := none, lastMsg := [], msgN := 0, bipPrev := none, cell := none, fillSeen := false, reiNow := 0, reiTx := 0 })
  let c := (b.wr R.LANEF_STATE_SYNC 0 n).showCands n
  c.wr R.LANEF_DEF_RAW_DEFECTS (setBit (c.laneRaw n) 2) n

theorem State.enterSearch_eq (h : s.running n = true) :
    s.enterSearch n = ((s.searchBase n).setDef n 2 true).setRawDef n 3 true := by
  unfold State.enterSearch State.searchBase; dsimp only; rw [if_neg (by simp [h])]

theorem State.cellDropped_sameRegs (hn : n < 64) : s.SameRegs (s.cellDropped n) :=
  (State.count_sameRegs _ _ _ _ (by simpa [pageCount] using hn)).trans (State.raise_sameRegs _ _ _ (by simpa [pageCount] using hn))

/-- Fields of a lane's two pages that do not stand in an array. -/
theorem Fld.placed_lane {g : Fld} (hn : n < 64) (hp : g.page = .lanef ∨ g.page = .lanep) (ho : g.off < 0x1000) (hs : g.stride = 0)
    (hl : g.lsb < 64) : g.Placed n 0 := by
  refine ⟨?_, by simpa [hs] using ho, hl⟩
  rcases hp with h | h <;> simp [pageCount, h, hn]

/-- What it leaves of the registers. -/
theorem State.searchBase_rd (hn : n < 64) {g : Fld} {x y : Nat} (hg : g.Placed x y) (ho : 0x100 ≤ g.off) (he : g.page ≠ .event)
    (h1 : g.key x y ≠ R.LANEF_STATE_SYNC.key n 0) (h2 : g.key x y ≠ R.LANEF_STATE_CAND.key n 0)
    (h3 : g.key x y ≠ R.LANEF_STATE_CONF_COUNT.key n 0) (h4 : g.key x y ≠ R.LANEF_DEF_RAW_DEFECTS.key n 0) :
    (s.searchBase n).rd g x y = s.rd g x y := by
  unfold State.searchBase State.showCands; dsimp only
  rw [State.rd_wr_ne _ _ h4, State.rd_wr_ne _ _ h3, State.rd_wr_ne _ _ h2, State.rd_wr_ne _ _ h1, State.updLane_rd]
  split
  · exact State.cellDropped_sameRegs hn g x y hg ho he
  · rfl

theorem State.searchBase_raw (hn : n < 64) : (s.searchBase n).laneRaw n = setBit (s.laneRaw n) 2 % 2 ^ 11 := by
  have hg : R.LANEF_DEF_RAW_DEFECTS.Placed n 0 := Fld.placed_lane hn (.inl rfl) (by simp [R.LANEF_DEF_RAW_DEFECTS]) rfl
    (by simp [R.LANEF_DEF_RAW_DEFECTS])
  have e : ∀ a : State, s.SameRegs a → a.rd R.LANEF_DEF_RAW_DEFECTS n = s.rd R.LANEF_DEF_RAW_DEFECTS n := fun a h =>
    h _ _ _ hg (by simp [R.LANEF_DEF_RAW_DEFECTS]) (by simp [R.LANEF_DEF_RAW_DEFECTS])
  unfold State.searchBase State.showCands State.laneRaw; dsimp only
  rw [State.rd_wr_same, State.rd_wr_ne, State.rd_wr_ne, State.rd_wr_ne, State.updLane_rd]
  · split
    · rw [e _ (State.cellDropped_sameRegs hn)]; rfl
    · rfl
  all_goals (simp [Fld.key, Fld.addr, R.LANEF_DEF_RAW_DEFECTS, R.LANEF_STATE_SYNC, R.LANEF_STATE_CAND, R.LANEF_STATE_CONF_COUNT] <;> omega)

theorem State.searchBase_cands : ((s.searchBase n).lane n).cands = [] := by
  unfold State.searchBase State.showCands; simp

theorem State.searchBase_sync : (s.searchBase n).rd R.LANEF_STATE_SYNC n = 0 := by
  unfold State.searchBase State.showCands; dsimp only
  rw [State.rd_wr_ne, State.rd_wr_ne, State.rd_wr_ne, State.rd_wr_same]
  all_goals (simp [Fld.key, Fld.addr, R.LANEF_DEF_RAW_DEFECTS, R.LANEF_STATE_SYNC, R.LANEF_STATE_CAND, R.LANEF_STATE_CONF_COUNT] <;> omega)

theorem State.searchBase_cand : (s.searchBase n).rd R.LANEF_STATE_CAND n = 0 := by
  unfold State.searchBase State.showCands; dsimp only
  rw [State.rd_wr_ne, State.rd_wr_ne, State.rd_wr_same]
  · simp
  all_goals (simp [Fld.key, Fld.addr, R.LANEF_DEF_RAW_DEFECTS, R.LANEF_STATE_CAND, R.LANEF_STATE_CONF_COUNT])

/-- What the entry to SEARCH leaves of the registers. -/
theorem State.enterSearch_rd (hn : n < 64) {g : Fld} {x y : Nat} (hg : g.Placed x y) (ho : 0x100 ≤ g.off) (he : g.page ≠ .event)
    (h1 : g.key x y ≠ R.LANEF_STATE_SYNC.key n 0) (h2 : g.key x y ≠ R.LANEF_STATE_CAND.key n 0)
    (h3 : g.key x y ≠ R.LANEF_STATE_CONF_COUNT.key n 0) (h4 : g.key x y ≠ R.LANEF_DEF_RAW_DEFECTS.key n 0)
    (h5 : g.key x y ≠ R.LANEF_DEF_DEFECTS.key n 0) : (s.enterSearch n).rd g x y = s.rd g x y := by
  by_cases hr : s.running n = true
  · rw [State.enterSearch_eq hr, State.setRawDef_rd _ _ h4, State.setDef_rd _ _ hn hg ho he h5, State.searchBase_rd hn hg ho he h1 h2 h3 h4]
  · unfold State.enterSearch; rw [if_pos (by simpa using hr)]

/-- The entry of a running lane to SEARCH: no SYNC and no candidates, OOF declared, its raw condition and that of LOF set. -/
theorem State.enterSearch_does (hn : n < 64) (hr : s.running n = true) :
    (s.enterSearch n).inSync n = false ∧ (s.enterSearch n).rd R.LANEF_STATE_CAND n = 0 ∧ ((s.enterSearch n).lane n).cands = [] ∧
    ((s.enterSearch n).laneDef n).testBit 2 = true ∧
    (s.enterSearch n).laneRaw n = setBit (setBit (s.laneRaw n) 2 % 2 ^ 11) 3 % 2 ^ 11 := by
  have p1 : R.LANEF_STATE_SYNC.Placed n 0 := Fld.placed_lane hn (.inl rfl) (by simp [R.LANEF_STATE_SYNC]) rfl (by simp [R.LANEF_STATE_SYNC])
  have p2 : R.LANEF_STATE_CAND.Placed n 0 := Fld.placed_lane hn (.inl rfl) (by simp [R.LANEF_STATE_CAND]) rfl (by simp [R.LANEF_STATE_CAND])
  have p3 : R.LANEF_DEF_RAW_DEFECTS.Placed n 0 := Fld.placed_lane hn (.inl rfl) (by simp [R.LANEF_DEF_RAW_DEFECTS]) rfl
    (by simp [R.LANEF_DEF_RAW_DEFECTS])
  have p4 : R.LANEP_STAT_RUNNING.Placed n 0 := Fld.placed_lane hn (.inr rfl) (by simp [R.LANEP_STAT_RUNNING]) rfl
    (by simp [R.LANEP_STAT_RUNNING])
  have q4 : ∀ g : Fld, g.page = .lanef → g.Placed n 0 → R.LANEP_STAT_RUNNING.key n 0 ≠ g.key n 0 := fun g hg hp e => by
    have := (Fld.key_inj p4 hp e).1; rw [hg] at this; simp [R.LANEP_STAT_RUNNING] at this
  have p5 : R.LANEF_STATE_CONF_COUNT.Placed n 0 := Fld.placed_lane hn (.inl rfl) (by simp [R.LANEF_STATE_CONF_COUNT]) rfl
    (by simp [R.LANEF_STATE_CONF_COUNT])
  have p6 : R.LANEF_DEF_DEFECTS.Placed n 0 := Fld.placed_lane hn (.inl rfl) (by simp [R.LANEF_DEF_DEFECTS]) rfl (by simp [R.LANEF_DEF_DEFECTS])
  have fr : ((s.searchBase n).setDef n 2 true).running n = true := by
    unfold State.running State.on
    rw [State.setDef_rd _ _ hn p4 (by simp [R.LANEP_STAT_RUNNING]) (by simp [R.LANEP_STAT_RUNNING]) (q4 _ rfl p6),
      State.searchBase_rd hn p4 (by simp [R.LANEP_STAT_RUNNING]) (by simp [R.LANEP_STAT_RUNNING]) (q4 _ rfl p1) (q4 _ rfl p2) (q4 _ rfl p5)
        (q4 _ rfl p3)]
    exact hr
  rw [State.enterSearch_eq hr]
  refine ⟨?_, ?_, ?_, ?_, ?_⟩
  · unfold State.inSync State.on
    rw [State.setRawDef_rd, State.setDef_rd _ _ hn p1, State.searchBase_sync]
    · rfl
    all_goals (simp [Fld.key, Fld.addr, R.LANEF_STATE_SYNC, R.LANEF_DEF_DEFECTS, R.LANEF_DEF_RAW_DEFECTS] <;> omega)
  · rw [State.setRawDef_rd, State.setDef_rd _ _ hn p2, State.searchBase_cand]
    all_goals (simp [Fld.key, Fld.addr, R.LANEF_STATE_CAND, R.LANEF_DEF_DEFECTS, R.LANEF_DEF_RAW_DEFECTS])
  · rw [State.setRawDef_cands, State.setDef_lane, State.searchBase_cands]
  · unfold State.laneDef
    rw [State.setRawDef_rd _ _ (by simp [Fld.key, Fld.addr, R.LANEF_DEF_DEFECTS, R.LANEF_DEF_RAW_DEFECTS])]
    exact State.setDef_def _ _ hn (by omega)
  · rw [State.setRawDef_raw _ _ fr]
    have e : ((s.searchBase n).setDef n 2 true).laneRaw n = (s.searchBase n).laneRaw n := by
      unfold State.laneRaw
      rw [State.setDef_rd _ _ hn p3]
      all_goals (simp [Fld.key, Fld.addr, R.LANEF_DEF_DEFECTS, R.LANEF_DEF_RAW_DEFECTS])
    rw [e, State.searchBase_raw hn]; rfl

end Sys2Proof.Machine
end

