-- ==== Sys2Proof/Laws/Scratch.lean ====
section
/-! SUPPORT. What each operation and each meaning keeps of the scratchpad: no operation and no meaning changes it, but those of Laws/Memory.lean. -/
namespace Sys2Proof.Machine

/-- Every next state of `o` has the `sp` of `s`. -/
def spKept (s : State) (o : Host.Outcome State Fault Refusal) : Prop := ∀ t, o = .next t → t.sp = s.sp
@[simp] theorem spKept_next (s t : State) :
    spKept s (.next t) ↔ t.sp = s.sp := ⟨fun h => h t rfl, fun h u e => by cases e; exact h⟩
@[simp] theorem spKept_ok (s t : State) : spKept s (ok t) ↔ t.sp = s.sp := spKept_next s t
@[simp] theorem spKept_fault (s : State) (f : Fault) : spKept s (.fault f) := fun _ h => nomatch h
@[simp] theorem spKept_ite (s : State) (c : Prop) [Decidable c] (a b : Host.Outcome State Fault Refusal) (ha : spKept s a)
    (hb : spKept s b) : spKept s (if c then a else b) := by split <;> assumption
@[simp] theorem ite_sp (c : Prop) [Decidable c] (a b : State) :
    (if c then a else b).sp = if c then a.sp else b.sp := by split <;> rfl
@[simp] theorem foldl_sp {α : Type} (g : State → α → State) (l : List α) (s : State) (h : ∀ s x, (g s x).sp = s.sp) :
    (l.foldl g s).sp = s.sp := by
  induction l generalizing s with
  | nil => rfl
  | cons x l ih => simp [List.foldl, ih, h]
@[simp] theorem foldl_fst_sp {α β : Type} (g : State × β → α → State × β) (l : List α) (s : State × β)
    (h : ∀ s x, (g s x).1.sp = s.1.sp) : (l.foldl g s).1.sp = s.1.sp := by
  induction l generalizing s with
  | nil => rfl
  | cons x l ih => simp [List.foldl, ih, h]
@[simp] theorem State.wrB_sp (s : State) (f : Fld) (b : Bool) (i : Nat) (j : Nat) :
    (State.wrB s f b i j).sp = s.sp := by simp [State.wrB]
@[simp] theorem State.bump_sp (s : State) (f : Fld) (n : Nat) (i : Nat) (j : Nat) :
    (State.bump s f n i j).sp = s.sp := by simp [State.bump]
@[simp] theorem State.bumpWrap_sp (s : State) (f : Fld) (n : Nat) (i : Nat) (j : Nat) :
    (State.bumpWrap s f n i j).sp = s.sp := by simp [State.bumpWrap]
@[simp] theorem State.cntAdd_sp (s : State) (p : Page) (i k n : Nat) :
    (State.cntAdd s p i k n).sp = s.sp := by simp [State.cntAdd]
@[simp] theorem State.count1_sp (s : State) (p : Page) (i code n k : Nat) : (State.count1 s p i code n k).sp = s.sp := by
  unfold State.count1; (repeat' split) <;> simp
@[simp] theorem State.count_sp (s : State) (p : Page) (i code : Nat) (n : Nat) :
    (State.count s p i code n).sp = s.sp := by simp [State.count]
theorem wmCheck_sp (r : Page → Nat → Nat → State → State) (h : ∀ p i b s, (r p i b s).sp = s.sp) (w level : Nat) (s : State) :
    (wmCheck r w level s).sp = s.sp := by
  unfold wmCheck; dsimp only; split <;> simp [h]
theorem queueItem_sp (r : Page → Nat → Nat → State → State) (h : ∀ p i b s, (r p i b s).sp = s.sp) (x : W64) (s : State) :
    (queueItem r x s).sp = s.sp := by
  unfold queueItem; split <;> simp [h, wmCheck_sp r h]
@[simp] theorem State.msixFire_sp (s : State) (v : Nat) : (State.msixFire s v).sp = s.sp := by simp [State.msixFire]
@[simp] theorem State.chainSend_sp (s : State) (side : ChainSide) (f : BitVec 96) (fwd : Bool) (at' : Nat) :
    (State.chainSend s side f fwd at').sp = s.sp := by simp [State.chainSend]
@[simp] theorem State.chainPump_sp (s : State) (upTo : Nat) : (State.chainPump s upTo).sp = s.sp := by
  unfold State.chainPump; (repeat' split) <;> simp
@[simp] theorem State.chainOwn_sp (s : State) (side : ChainSide) (f : BitVec 96) :
    (State.chainOwn s side f).sp = s.sp := by simp [State.chainOwn]
@[simp] theorem State.notify_sp (s : State) : (State.notify s).sp = s.sp := by simp [State.notify]
theorem becomePending_sp (r : Page → Nat → Nat → State → State) (h : ∀ p i b s, (r p i b s).sp = s.sp) (p : Page) (i b : Nat)
    (w : Bool) (s : State) : (becomePending r p i b w s).sp = s.sp := by
  unfold becomePending; simp [queueItem_sp r h]
@[simp] theorem raiseN_sp (n : Nat) (p : Page) (i b : Nat) (s : State) : (raiseN n p i b s).sp = s.sp := by
  induction n generalizing p i b s with
  | zero => rfl
  | succ n ih => unfold raiseN; simp only [ite_sp]; (repeat' split) <;> simp [becomePending_sp _ ih]
@[simp] theorem wmCheck_raiseN_sp (n w l : Nat) (s : State) : (wmCheck (raiseN n) w l s).sp = s.sp :=
  wmCheck_sp _ (fun p i b s => raiseN_sp n p i b s) w l s
@[simp] theorem queueItem_raiseN_sp (n : Nat) (x : W64) (s : State) : (queueItem (raiseN n) x s).sp = s.sp :=
  queueItem_sp _ (fun p i b s => raiseN_sp n p i b s) x s
@[simp] theorem becomePending_raiseN_sp (n : Nat) (p : Page) (i b : Nat) (w : Bool) (s : State) :
    (becomePending (raiseN n) p i b w s).sp = s.sp := becomePending_sp _ (fun p i b s => raiseN_sp n p i b s) p i b w s
@[simp] theorem State.raise_sp (s : State) (p : Page) (i b : Nat) : (State.raise s p i b).sp = s.sp := by simp [State.raise]
@[simp] theorem State.setRaw_sp (s : State) (p : Page) (i b : Nat) (v : Bool) :
    (State.setRaw s p i b v).sp = s.sp := by simp [State.setRaw]
@[simp] theorem State.watermark_sp (s : State) (w level : Nat) :
    (State.watermark s w level).sp = s.sp := by simp [State.watermark]
@[simp] theorem State.lostItem_sp (s : State) (slotFabric edit : Bool) (offset : Nat) :
    (State.lostItem s slotFabric edit offset).sp = s.sp := by simp [State.lostItem]
@[simp] theorem State.recordRecovery_sp (s : State) (cause wh : Nat) :
    (State.recordRecovery s cause wh).sp = s.sp := by simp [State.recordRecovery]
@[simp] theorem State.recover_sp (s : State) (cause wh : Nat) : (State.recover s cause wh).sp = s.sp := by simp [State.recover]
@[simp] theorem ok_sp (s : State) : spKept s (ok s) := by simp [ok]
@[simp] theorem State.onPage_sp (s : State) (p : Page) (i : Nat) (f : State → State) (h : ∀ s, (f s).sp = s.sp) :
    spKept s (s.onPage p i f) := by
  unfold State.onPage; split <;> simp [h]
@[simp] theorem State.readyChk_sp (s : State) : (State.readyChk s).sp = s.sp := by simp [State.readyChk]
@[simp] theorem State.spDet_sp (s : State) (o : Nat) (b : Bool) : (State.spDet s o b).sp = s.sp := by simp [State.spDet]
@[simp] theorem State.portLatch_sp (s : State) (p : Port) (c : PortCmd) :
    (State.portLatch s p c).sp = s.sp := by simp [State.portLatch]
@[simp] theorem State.portFree_sp (s : State) (p : Port) : (State.portFree s p).sp = s.sp := by simp [State.portFree]
@[simp] theorem State.updLane_sp (s : State) (n : Nat) (f : Lane → Lane) :
    (State.updLane s n f).sp = s.sp := by simp [State.updLane]
@[simp] theorem State.setDef_sp (s : State) (n b : Nat) (v : Bool) : (State.setDef s n b v).sp = s.sp := by simp [State.setDef]
@[simp] theorem State.integStart_sp (s : State) (n b : Nat) (v : Bool) : (State.integStart s n b v).sp = s.sp := by
  simp [State.integStart]
@[simp] theorem State.setRawDef_sp (s : State) (n b : Nat) (v : Bool) :
    (State.setRawDef s n b v).sp = s.sp := by simp [State.setRawDef]
@[simp] theorem State.showCands_sp (s : State) (n : Nat) : (State.showCands s n).sp = s.sp := by simp [State.showCands]
@[simp] theorem State.cellDropped_sp (s : State) (n : Nat) : (State.cellDropped s n).sp = s.sp := by simp [State.cellDropped]
@[simp] theorem State.enterSearch_sp (s : State) (n : Nat) : (State.enterSearch s n).sp = s.sp := by simp [State.enterSearch]
@[simp] theorem State.enterSync_sp (s : State) (n : Nat) : (State.enterSync s n).sp = s.sp := by simp [State.enterSync]
@[simp] theorem State.eyeStop_sp (s : State) (n : Nat) : (State.eyeStop s n).sp = s.sp := by simp [State.eyeStop]
@[simp] theorem State.judgeLol_sp (s : State) (n : Nat) : (State.judgeLol s n).sp = s.sp := by simp [State.judgeLol]
@[simp] theorem State.judgeLos_sp (s : State) (n : Nat) :
    (State.judgeLos s n).sp = s.sp := by unfold State.judgeLos; split <;> simp
@[simp] theorem State.setDxRx_sp (s : State) (l : Nat) (r : DxRx) : (State.setDxRx s l r).sp = s.sp := by
  simp [State.setDxRx]
@[simp] theorem State.dxJudge_sp (s : State) (l : Nat) : (State.dxJudge s l).sp = s.sp := by simp [State.dxJudge]
@[simp] theorem State.sigDet_sp (s : State) (l : LaneId) (present : Bool) :
    (State.sigDet s l present).sp = s.sp := by
  unfold State.sigDet; simp only []; split <;> simp
@[simp] theorem execSigDetChange_sp (l : LaneId) (present : Bool) (s : State) :
    spKept s (execSigDetChange l present s) := by simp [execSigDetChange]
@[simp] theorem State.cdrLock_sp (s : State) (l : LaneId) (locked : Bool) :
    (State.cdrLock s l locked).sp = s.sp := by
  unfold State.cdrLock; simp only []; split <;> simp
@[simp] theorem execCdrLockChange_sp (l : LaneId) (locked : Bool) (s : State) :
    spKept s (execCdrLockChange l locked s) := by simp [execCdrLockChange]
@[simp] theorem State.refRangeLane_sp (s : State) (n : Nat) : (State.refRangeLane s n).sp = s.sp := by simp [State.refRangeLane]
@[simp] theorem State.pllLane_sp (locked : Bool) (s : State) (n : Nat) :
    (State.pllLane locked s n).sp = s.sp := by simp [State.pllLane]
@[simp] theorem State.refOffsetLane_sp (off : Int) (s : State) (n : Nat) :
    (State.refOffsetLane off s n).sp = s.sp := by simp [State.refOffsetLane]
@[simp] theorem State.refRangeClearLane_sp (s : State) (n : Nat) :
    (State.refRangeClearLane s n).sp = s.sp := by simp [State.refRangeClearLane]
@[simp] theorem execQuadPllLockChange_sp (q : RefClk) (locked : Bool) (s : State) :
    spKept s (execQuadPllLockChange q locked s) := by
  unfold execQuadPllLockChange; simp only []; split <;> simp
@[simp] theorem execRefOffsetUpdate_sp (q : RefClk) (off : Int) (s : State) : spKept s (execRefOffsetUpdate q off s) := by
  unfold execRefOffsetUpdate; simp only []; split <;> simp
@[simp] theorem execRefRangeClear_sp (q : RefClk) (s : State) : spKept s (execRefRangeClear q s) := by
  unfold execRefRangeClear; simp only []; split <;> simp
@[simp] theorem State.integJudge_sp (s : State) (n b : Nat) : (State.integJudge s n b).sp = s.sp := by
  simp [State.integJudge]
@[simp] theorem execLaneDefectDeclare_sp (n : Fin 64) (d : LaneDefect) (run : Nat) (s : State) :
    spKept s (execLaneDefectDeclare n d run s) := by simp [execLaneDefectDeclare]
@[simp] theorem execLaneDefectClear_sp (n : Fin 64) (d : LaneDefect) (run : Nat) (s : State) :
    spKept s (execLaneDefectClear n d run s) := by simp [execLaneDefectClear]
@[simp] theorem execFillerBerCheck_sp (n : Fin 64) (s : State) : spKept s (execFillerBerCheck n s) := by simp [execFillerBerCheck]
@[simp] theorem State.integJudgeDrw_sp (s : State) (n c b : Nat) : (State.integJudgeDrw s n c b).sp = s.sp := by
  simp [State.integJudgeDrw]
@[simp] theorem execDrawerDefectDeclare_sp (n : Fin 64) (c : BitVec 13) (d : DrawerDefect) (run : Nat) (s : State) :
    spKept s (execDrawerDefectDeclare n c d run s) := by simp [execDrawerDefectDeclare]
@[simp] theorem execDrawerDefectClear_sp (n : Fin 64) (c : BitVec 13) (d : DrawerDefect) (run : Nat) (s : State) :
    spKept s (execDrawerDefectClear n c d run s) := by simp [execDrawerDefectClear]
@[simp] theorem State.integWrite_sp (s : State) (n : Nat) (r : IntegReg) (set clr : Nat) :
    (State.integWrite s n r set clr).sp = s.sp := by
  unfold State.integWrite; simp only []; split <;> simp
@[simp] theorem execIntegWrite_sp (n : Fin 64) (r : IntegReg) (set clear : Byte) (s : State) :
    spKept s (execIntegWrite n r set clear s) := by simp [execIntegWrite]
@[simp] theorem State.eqShowRec_sp (s : State) (n : Nat) (r : List Byte) :
    (State.eqShowRec s n r).sp = s.sp := by simp [State.eqShowRec]
@[simp] theorem State.eqShow_sp (s : State) (n : Nat) : (State.eqShow s n).sp = s.sp := by simp [State.eqShow]
@[simp] theorem State.eqFail_sp (s : State) (n : Nat) (f : Fld) : (State.eqFail s n f).sp = s.sp := by simp [State.eqFail]
@[simp] theorem State.eqTake_sp (s : State) (n : Nat) (rs : List (List Byte)) :
    (State.eqTake s n rs).sp = s.sp := by simp [State.eqTake]
@[simp] theorem State.eqLoad_sp (s : State) (n : Nat) : (State.eqLoad s n).sp = s.sp := by simp [State.eqLoad]
@[simp] theorem execEqLoad_sp (n : Fin 64) (s : State) : spKept s (execEqLoad n s) := by simp [execEqLoad]
@[simp] theorem execEqLoadDone_sp (n : Fin 64) (s : State) : spKept s (execEqLoadDone n s) := by
  unfold execEqLoadDone; dsimp only; (repeat' split) <;> simp
@[simp] theorem State.laneEnSet_sp (s : State) (n : Nat) : (State.laneEnSet s n).sp = s.sp := by simp [State.laneEnSet]
@[simp] theorem execLaneEnSet_sp (n : Fin 64) (s : State) : spKept s (execLaneEnSet n s) := by simp [execLaneEnSet]
@[simp] theorem State.laneEnClear_sp (s : State) (n : Nat) : (State.laneEnClear s n).sp = s.sp := by simp [State.laneEnClear]
@[simp] theorem execLaneEnClear_sp (n : Fin 64) (s : State) : spKept s (execLaneEnClear n s) := by simp [execLaneEnClear]
@[simp] theorem State.rateWrite_sp (s : State) (n rate : Nat) : (State.rateWrite s n rate).sp = s.sp := by simp [State.rateWrite]
@[simp] theorem execRateWrite_sp (n : Fin 64) (rate : BitVec 2) (s : State) :
    spKept s (execRateWrite n rate s) := by simp [execRateWrite]
@[simp] theorem State.loopWrite_sp (s : State) (n loop : Nat) : (State.loopWrite s n loop).sp = s.sp := by simp [State.loopWrite]
@[simp] theorem execLoopWrite_sp (n : Fin 64) (loop : BitVec 2) (s : State) :
    spKept s (execLoopWrite n loop s) := by simp [execLoopWrite]
@[simp] theorem State.eyeStart_sp (s : State) (n : Nat) : (State.eyeStart s n).sp = s.sp := by simp [State.eyeStart]
@[simp] theorem execEyeStart_sp (n : Fin 64) (s : State) : spKept s (execEyeStart n s) := by simp [execEyeStart]
@[simp] theorem execEyeAbort_sp (n : Fin 64) (s : State) : spKept s (execEyeAbort n s) := by simp [execEyeAbort]
@[simp] theorem State.candOpen_sp (s : State) (l : LaneId) (p : Nat) : (State.candOpen s l p).sp = s.sp := by
  unfold State.candOpen; simp only []; split <;> simp
@[simp] theorem execFasCandidateOpen_sp (l : LaneId) (p : Nat) (s : State) :
    spKept s (execFasCandidateOpen l p s) := by simp [execFasCandidateOpen]
@[simp] theorem State.candConfirm_sp (s : State) (l : LaneId) (p q stuff diff : Nat) :
    (State.candConfirm s l p q stuff diff).sp = s.sp := by
  unfold State.candConfirm; dsimp only; (repeat' split) <;> simp
@[simp] theorem execFasCandidateConfirm_sp (l : LaneId) (p q stuff diff : Nat) (s : State) :
    spKept s (execFasCandidateConfirm l p q stuff diff s) := by simp [execFasCandidateConfirm]
@[simp] theorem State.candDrop_sp (s : State) (l : LaneId) (p : Nat) : (State.candDrop s l p).sp = s.sp := by
  unfold State.candDrop; simp only []; split <;> simp
@[simp] theorem execFasCandidateDrop_sp (l : LaneId) (p : Nat) (s : State) :
    spKept s (execFasCandidateDrop l p s) := by simp [execFasCandidateDrop]
@[simp] theorem State.acceptOh_sp (s : State) (n : Nat) (lo : List Byte) : (State.acceptOh s n lo).sp = s.sp := by
  unfold State.acceptOh; dsimp only; (repeat' split) <;> simp
@[simp] theorem State.acceptLabel_sp (s : State) (n : Nat) (lo : List Byte) : (State.acceptLabel s n lo).sp = s.sp := by
  unfold State.acceptLabel; simp only []; split <;> simp
@[simp] theorem State.acceptAlarms_sp (s : State) (n : Nat) (lo : List Byte) :
    (State.acceptAlarms s n lo).sp = s.sp := by simp [State.acceptAlarms]
@[simp] theorem State.wrTrace_sp (s : State) (f : Fld) (n : Nat) (m : List Byte) :
    (State.wrTrace s f n m).sp = s.sp := by simp [State.wrTrace]
@[simp] theorem State.acceptTrace_sp (s : State) (n : Nat) (b : Byte) : (State.acceptTrace s n b).sp = s.sp := by
  unfold State.acceptTrace; simp only []; split <;> simp
@[simp] theorem State.frameLength_sp (s : State) (n : Nat) (lo : List Byte) (removed fill : Nat) :
    (State.frameLength s n lo removed fill).sp = s.sp := by simp [State.frameLength]
@[simp] theorem State.deliver_sp (s : State) (n : Nat) (skew : Nat) (payload : List Byte) :
    (State.deliver s n skew payload).sp = s.sp := by simp [State.deliver]
@[simp] theorem State.loopTake_sp (s : State) (n : Nat) (payload : List Byte) :
    (State.loopTake s n payload).sp = s.sp := by simp [State.loopTake]
@[simp] theorem State.rxFas_sp (s : State) (n : Nat) (errored : Bool) : (State.rxFas s n errored).sp = s.sp := by
  simp [State.rxFas]
@[simp] theorem State.takeCell_sp (s : State) (n : Nat) : (State.takeCell s n).1.sp = s.sp := by
  unfold State.takeCell; dsimp only; (repeat' split) <;> simp
@[simp] theorem State.loopSent_sp (s : State) (n : Nat) : (State.loopSent s n).sp = s.sp := by simp [State.loopSent]
@[simp] theorem State.txClose_sp (s : State) (n : Nat) (bits : Nat) : (State.txClose s n bits).sp = s.sp := by
  unfold State.txClose; simp only []; split <;> simp
@[simp] theorem State.txStart_sp (s : State) (n : Nat) : (State.txStart s n).sp = s.sp := by simp [State.txStart]
@[simp] theorem State.frameTickHorale_sp (s : State) (n : Nat) (bits : Nat) :
    (State.frameTickHorale s n bits).sp = s.sp := by
  unfold State.frameTickHorale; (repeat' split) <;> simp
@[simp] theorem execRxFramerTimeout_sp (n : Fin 64) (s : State) :
    spKept s (execRxFramerTimeout n s) := by simp [execRxFramerTimeout]
@[simp] theorem execTxFramerTimeout_sp (n : Fin 64) (s : State) :
    spKept s (execTxFramerTimeout n s) := by simp [execTxFramerTimeout]
@[simp] theorem State.drwCmd_sp (s : State) (n op : Nat) : (State.drwCmd s n op).sp = s.sp := by simp [State.drwCmd]
@[simp] theorem execDrwRead_sp (n : Fin 64) (s : State) : spKept s (execDrwRead n s) := by simp [execDrwRead]
@[simp] theorem execDrwReadClear_sp (n : Fin 64) (s : State) : spKept s (execDrwReadClear n s) := by simp [execDrwReadClear]
@[simp] theorem execDrwWrite_sp (n : Fin 64) (s : State) : spKept s (execDrwWrite n s) := by simp [execDrwWrite]
@[simp] theorem State.wrDrwCfg_sp (s : State) (n w : Nat) : (State.wrDrwCfg s n w).sp = s.sp := by simp [State.wrDrwCfg]
@[simp] theorem State.drwCapture_sp (s : State) (n : Nat) (d : Drawer) :
    (State.drwCapture s n d).sp = s.sp := by simp [State.drwCapture]
@[simp] theorem State.drwDone_sp (s : State) (n : Nat) (c : PortCmd) : (State.drwDone s n c).sp = s.sp := by simp [State.drwDone]
@[simp] theorem State.busErr_sp (s : State) (m t addr cause : Nat) :
    (State.busErr s m t addr cause).sp = s.sp := by simp [State.busErr]
@[simp] theorem State.dramJudge_sp (s : State) : (State.dramJudge s).sp = s.sp := (rfl)
@[simp] theorem State.dramBringUp_sp (s : State) (c : Nat) : (State.dramBringUp s c).sp = s.sp := by simp [State.dramBringUp]
@[simp] theorem State.dramCfgWrite_sp (s : State) (c v : Nat) :
    (State.dramCfgWrite s c v).sp = s.sp := by simp [State.dramCfgWrite]
@[simp] theorem execDramCfgWrite_sp (c : Fin 2) (v : W32) (s : State) :
    spKept s (execDramCfgWrite c v s) := by simp [execDramCfgWrite]
@[simp] theorem State.dramLost_sp (s : State) (c : Nat) : (State.dramLost s c).sp = s.sp := by simp [State.dramLost]
@[simp] theorem execDramTrainDone_sp (c : Fin 2) (s : State) : spKept s (execDramTrainDone c s) := by simp [execDramTrainDone]
@[simp] theorem State.trainFail_sp (s : State) (c step : Nat) : (State.trainFail s c step).sp = s.sp := by simp [State.trainFail]
@[simp] theorem execDramTrainFail_sp (c : Fin 2) (step : BitVec 4) (s : State) :
    spKept s (execDramTrainFail c step s) := by simp [execDramTrainFail]
@[simp] theorem execDramTrainTimeout_sp (c : Fin 2) (s : State) :
    spKept s (execDramTrainTimeout c s) := by simp [execDramTrainTimeout]
@[simp] theorem execDqsRetune_sp (x0 : Fin 2) (s : State) : spKept s (execDqsRetune x0 s) := by simp [execDqsRetune]
@[simp] theorem execDramHotChange_sp (c : Fin 2) (hot : Bool) (s : State) :
    spKept s (execDramHotChange c hot s) := by simp [execDramHotChange]
@[simp] theorem execDramQueueTimeout_sp (c : Fin 2) (sub : Bool) (s : State) :
    spKept s (execDramQueueTimeout c sub s) := by simp [execDramQueueTimeout]
@[simp] theorem State.burstDet_sp (s : State) (burst cause region : Nat) :
    (State.burstDet s burst cause region).sp = s.sp := by simp [State.burstDet]
@[simp] theorem State.burstPut_sp (s : State) (region wtag burst : Nat) (data : List Byte) :
    (State.burstPut s region wtag burst data).sp = s.sp := by simp [State.burstPut]
@[simp] theorem State.burstGet_sp (s : State) (region wtag burst : Nat) :
    (State.burstGet s region wtag burst).1.sp = s.sp := by
  unfold State.burstGet; simp only []; split <;> simp
@[simp] theorem State.upset_sp (s : State) (us : List (Nat × List Byte)) : (State.upset s us).sp = s.sp := (rfl)
@[simp] theorem State.spUpset_sp (s : State) (os : List (BitVec 19)) : (State.spUpset s os).sp = s.sp := rfl
@[simp] theorem State.winWrite_sp (s : State) (w v : Nat) : (State.winWrite s w v).sp = s.sp := by simp [State.winWrite]
@[simp] theorem execWinEnable_sp (w : Fin 8) (v : W32) (s : State) : spKept s (execWinEnable w v s) := by simp [execWinEnable]
@[simp] theorem State.burstWrite_sp (s : State) (burst o : Nat) (bs : List Byte) : (State.burstWrite s burst o bs).1.sp = s.sp := by
  unfold State.burstWrite; split
  · simp
  · have h := State.burstGet_sp s rgHost 0 burst
    split <;> (rename_i e; rw [e] at h; simpa using h)
@[simp] theorem State.deviceWrite_sp (n d : Nat) (bs : List Byte) (s : State) : (State.deviceWrite n d bs s).1.sp = s.sp := by
  induction n generalizing d bs s with
  | zero => rfl
  | succ n ih => unfold State.deviceWrite; dsimp only; (repeat' split) <;> simp [ih]
@[simp] theorem State.deviceRead_sp (n d len : Nat) (s : State) : (State.deviceRead n d len s).1.sp = s.sp := by
  induction n generalizing d len s with
  | zero => rfl
  | succ n ih =>
    unfold State.deviceRead; dsimp only; split
    · rfl
    · have h := State.burstGet_sp s rgHost 0 (d / 64)
      split
      · rename_i e; rw [e] at h; exact h
      · rename_i e; rw [e] at h; exact (ih ..).trans h
@[simp] theorem State.winRead_sp (n a len : Nat) (s : State) : (State.winRead n a len s).s.sp = s.sp := by
  induction n generalizing a len s with
  | zero => rfl
  | succ n ih =>
    unfold State.winRead; dsimp only; split
    · rfl
    · split
      · rfl
      · rename_i d _
        have h := State.deviceRead_sp (min len (windowLeft a) / 64 + 2) d.1 (min len (windowLeft a)) s
        split
        · rename_i e; rw [e] at h; exact h
        · rename_i e; rw [e] at h
          split <;> exact (ih ..).trans h
@[simp] theorem State.winStore_sp (n a : Nat) (bs : List Byte) (s : State) : (State.winStore n a bs s).s.sp = s.sp := by
  induction n generalizing a bs s with
  | zero => rfl
  | succ n ih => unfold State.winStore; dsimp only; (repeat' split) <;> simp [ih]
@[simp] theorem State.winReadBus_sp (s : State) (a len : Nat) : (State.winReadBus s a len).s.sp = s.sp := by
  simp [State.winReadBus]
@[simp] theorem State.winWriteBus_sp (s : State) (a : Nat) (bs : List Byte) : (State.winWriteBus s a bs).s.sp = s.sp := by
  simp [State.winWriteBus]
@[simp] theorem State.spReadBus_sp (s : State) (a len : Nat) : (State.spReadBus s a len).s.sp = s.sp := by
  unfold State.spReadBus; simp only []; split <;> simp
@[simp] theorem Resp.note_sp (r : Resp) (m t addr : Nat) : (r.note m t addr).s.sp = r.s.sp := by
  unfold Resp.note; split <;> simp
@[simp] theorem State.setBank_sp (s : State) (edit : Bool) (b : Bank) :
    (State.setBank s edit b).sp = s.sp := by simp [State.setBank]
@[simp] theorem State.setEdit_sp (s : State) (b : Bank) : (State.setEdit s b).sp = s.sp := by simp [State.setEdit]
@[simp] theorem State.sumStale_sp (s : State) (edit : Bool) : (State.sumStale s edit).sp = s.sp := by
  simp [State.sumStale]
@[simp] theorem State.loseWord_sp (s : State) (edit : Bool) (k : Nat) :
    (State.loseWord s edit k).sp = s.sp := by simp [State.loseWord]
@[simp] theorem State.routeWrite_sp (s : State) (edit : Bool) (x : Nat) :
    (State.routeWrite s edit x).sp = s.sp := by simp [State.routeWrite]
@[simp] theorem State.routeRead_sp (s : State) (edit : Bool) (k : Nat) : (State.routeRead s edit k).1.sp = s.sp := by
  unfold State.routeRead; dsimp only; split
  · rfl
  · have h := State.burstGet_sp s rgRoute 0 (routeBurst (s.imageOf edit) (burstKey k))
    split <;> (rename_i e; rw [e] at h; exact h)
@[simp] theorem State.rebuild_sp (s : State) (edit : Bool) (k : Nat) : (State.rebuild s edit k).sp = s.sp := by
  unfold State.rebuild; dsimp only
  have h := State.routeRead_sp s edit k
  split
  · rename_i e; rw [e] at h; simpa using h
  · rename_i e; rw [e] at h; split <;> simpa using h
@[simp] theorem execWordRecompute_sp (w : WordRef) (altered : List (Nat × List Byte)) (s : State) : spKept s (execWordRecompute w altered s) := by
  simp [execWordRecompute]
@[simp] theorem State.sweepSlot_sp (s : State) (edit : Bool) (t : Nat) : (State.sweepSlot s edit t).sp = s.sp := by
  simp [State.sweepSlot]
@[simp] theorem execCentreLossSweep_sp (s : State) : spKept s (execCentreLossSweep s) := by
  unfold execCentreLossSweep; simp only []; split <;> simp
@[simp] theorem execRouteBurstWrite_sp (f : Fabric) (edit : Bool) (burst : Nat) (s : State) :
    spKept s (execRouteBurstWrite f edit burst s) := by simp [execRouteBurstWrite]
@[simp] theorem State.cmReadBus_sp (s : State) (slotFabric : Bool) (a len : Nat) :
    (State.cmReadBus s slotFabric a len).s.sp = s.sp := by simp [State.cmReadBus]
@[simp] theorem State.cmPut_sp (slotFabric : Bool) (x : Nat) (v : Byte) (s : State) :
    (State.cmPut slotFabric x v s).sp = s.sp := by simp [State.cmPut]
@[simp] theorem State.cmWriteBus_sp (s : State) (slotFabric : Bool) (a : Nat) (bs : List Byte) :
    (State.cmWriteBus s slotFabric a bs).s.sp = s.sp := by simp [State.cmWriteBus]
@[simp] theorem State.listRead_sp (s : State) (a len : Nat) : (s.listRead a len).s.sp = s.sp := by
  unfold State.listRead; (repeat' split) <;> simp
@[simp] theorem State.queueMark_sp (s : State) : (State.queueMark s).sp = s.sp := by simp [State.queueMark]
@[simp] theorem State.mapRefused_sp (s : State) : (State.mapRefused s).sp = s.sp := by simp [State.mapRefused]
@[simp] theorem State.enqueue_sp (s : State) (r : Req) : (State.enqueue s r).sp = s.sp := by simp [State.enqueue]
@[simp] theorem State.listEnd_sp (s : State) : (State.listEnd s).sp = s.sp := by simp [State.listEnd]
@[simp] theorem State.listCheck_sp (s : State) : (State.listCheck s).sp = s.sp := by simp [State.listCheck]
@[simp] theorem State.dequeue_sp (s : State) (r : Req) : (State.dequeue s r).sp = s.sp := by simp [State.dequeue]
@[simp] theorem State.reject_sp (s : State) (word reason : Nat) : (State.reject s word reason).sp = s.sp := by simp [State.reject]
@[simp] theorem State.accept_sp (s : State) (b : Bank) (placed released : Nat) :
    (State.accept s b placed released).sp = s.sp := by simp [State.accept]
@[simp] theorem State.takeRequest_sp (s : State) (op : Nat) (f : Nat → Effect) : (State.takeRequest s op f).sp = s.sp := by
  unfold State.takeRequest; dsimp only; (repeat' split) <;> simp
@[simp] theorem execMapConnect_sp (s : State) : spKept s (execMapConnect s) := by simp [execMapConnect]
@[simp] theorem execMapUneq_sp (s : State) : spKept s (execMapUneq s) := by simp [execMapUneq]
@[simp] theorem execMapAis_sp (s : State) : spKept s (execMapAis s) := by simp [execMapAis]
@[simp] theorem execSlot_sp (s : State) : spKept s (execSlot s) := by simp [execSlot]
@[simp] theorem execConst_sp (s : State) : spKept s (execConst s) := by simp [execConst]
@[simp] theorem execParty_sp (s : State) : spKept s (execParty s) := by simp [execParty]
@[simp] theorem execHear_sp (s : State) : spKept s (execHear s) := by simp [execHear]
@[simp] theorem State.replaceRoute_sp (allowed : Nat) (s : State) (c : Nat × Nat × Nat × Nat) :
    (State.replaceRoute allowed s c).sp = s.sp := by
  unfold State.replaceRoute; simp only []; split <;> simp
@[simp] theorem State.replaceGroups_sp (s : State) (gone : Nat) :
    (State.replaceGroups s gone).sp = s.sp := by simp [State.replaceGroups]
@[simp] theorem State.planeEnWrite_sp (s : State) (v : Nat) : (State.planeEnWrite s v).sp = s.sp := by simp [State.planeEnWrite]
@[simp] theorem execPlaneEnWrite_sp (v : BitVec 8) (s : State) : spKept s (execPlaneEnWrite v s) := by simp [execPlaneEnWrite]
@[simp] theorem State.purge_sp (s : State) (n : Nat) : (State.purge s n).sp = s.sp := by simp [State.purge]
@[simp] theorem State.mapInit_sp (s : State) : (State.mapInit s).sp = s.sp := by simp [State.mapInit]
@[simp] theorem State.clearWords_sp (s : State) (f : Fld) (n : Nat) :
    (State.clearWords s f n).sp = s.sp := by simp [State.clearWords]
@[simp] theorem State.checkTag_sp (s : State) (hdr body tag : List Byte) : (State.checkTag s hdr body tag).1.sp = s.sp := by
  unfold State.checkTag; (repeat' split) <;> simp
@[simp] theorem State.commitTag_sp (s : State) (a : Ask) : (State.commitTag s a).1.sp = s.sp := by
  unfold State.commitTag; (repeat' split) <;> simp
@[simp] theorem State.newAuthSeq_sp (s : State) : (State.newAuthSeq s).sp = s.sp := by simp [State.newAuthSeq]
@[simp] theorem State.wipeKeys_sp (s : State) : (State.wipeKeys s).sp = s.sp := by simp [State.wipeKeys]
@[simp] theorem State.lcUsed_sp (s : State) : (State.lcUsed s).sp = s.sp := by simp [State.lcUsed]
@[simp] theorem State.lcGo_sp (s : State) (target : Nat) : (State.lcGo s target).sp = s.sp := by
  unfold State.lcGo; simp only []; split <;> simp
@[simp] theorem execLcGo_sp (target : BitVec 2) (s : State) : spKept s (execLcGo target s) := by simp [execLcGo]
@[simp] theorem State.lcEnd_sp (s : State) (target : Nat) : (State.lcEnd s target).sp = s.sp := by simp [State.lcEnd]
@[simp] theorem execLcDone_sp (s : State) : spKept s (execLcDone s) := by
  unfold execLcDone; simp only []; split <;> simp
@[simp] theorem State.loadIdKey_sp (s : State) : (State.loadIdKey s).sp = s.sp := by simp [State.loadIdKey]
@[simp] theorem State.loadAuthKey_sp (s : State) : (State.loadAuthKey s).sp = s.sp := by simp [State.loadAuthKey]
@[simp] theorem State.keyCmd_sp (s : State) (v : Nat) : (State.keyCmd s v).sp = s.sp := by simp [State.keyCmd]
@[simp] theorem execLoadId_sp (s : State) : spKept s (execLoadId s) := by simp [execLoadId]
@[simp] theorem execLoadAuth_sp (s : State) : spKept s (execLoadAuth s) := by simp [execLoadAuth]
@[simp] theorem State.enforceWrite_sp (s : State) (on : Bool) :
    (State.enforceWrite s on).sp = s.sp := by simp [State.enforceWrite]
@[simp] theorem execEnforceWrite_sp (on : Bool) (s : State) : spKept s (execEnforceWrite on s) := by simp [execEnforceWrite]
@[simp] theorem execTamper_sp (s : State) : spKept s (execTamper s) := by simp [execTamper]
@[simp] theorem execTamperNRelease_sp (s : State) : spKept s (execTamperNRelease s) := by simp [execTamperNRelease]
@[simp] theorem State.respond_sp (s : State) : (State.respond s).sp = s.sp := by simp [State.respond]
@[simp] theorem execRespond_sp (s : State) : spKept s (execRespond s) := by simp [execRespond]
@[simp] theorem execIdResponseReady_sp (s : State) : spKept s (execIdResponseReady s) := by
  unfold execIdResponseReady; dsimp only; (repeat' split) <;> simp
@[simp] theorem State.mirrorSend_sp (s : State) (type row : Nat) (body : List Byte) :
    (State.mirrorSend s type row body).sp = s.sp := by simp [State.mirrorSend]
@[simp] theorem State.submit_sp (s : State) (w : W64) (auth list : Bool) :
    (State.submit s w auth list).sp = s.sp := by simp [State.submit]
@[simp] theorem State.reqPush_sp (s : State) (hi : Nat) : (State.reqPush s hi).sp = s.sp := by simp [State.reqPush]
@[simp] theorem execReqPush_sp (hi : W32) (s : State) : spKept s (execReqPush hi s) := by simp [execReqPush]
@[simp] theorem State.listStart_sp (s : State) : (State.listStart s).sp = s.sp := by simp [State.listStart]
@[simp] theorem execListStart_sp (s : State) : spKept s (execListStart s) := by simp [execListStart]
@[simp] theorem State.listAbort_sp (s : State) : (State.listAbort s).sp = s.sp := by simp [State.listAbort]
@[simp] theorem execListAbort_sp (s : State) : spKept s (execListAbort s) := by simp [execListAbort]
@[simp] theorem State.rejectAll_sp (ws : List Nat) (reason : Nat) (s : State) :
    (State.rejectAll ws reason s).sp = s.sp := by simp [State.rejectAll]
@[simp] theorem execListRequestFetch_sp (s : State) : spKept s (execListRequestFetch s) := by
  unfold execListRequestFetch; dsimp only; (repeat' split) <;> simp
@[simp] theorem State.commitRefused_sp (s : State) : (State.commitRefused s).sp = s.sp := by simp [State.commitRefused]
@[simp] theorem State.commitGone_sp (s : State) : (State.commitGone s).sp = s.sp := by simp [State.commitGone]
@[simp] theorem State.commitPend_sp (s : State) (kind : CommitKind) (held : Bool) :
    (State.commitPend s kind held).sp = s.sp := by simp [State.commitPend]
@[simp] theorem State.commitCancel_sp (s : State) : (State.commitCancel s).sp = s.sp := by
  unfold State.commitCancel; (repeat' split) <;> simp
@[simp] theorem State.commitHold_sp (s : State) (now arm drop cancel : Bool) (epoch : Nat) :
    (State.commitHold s now arm drop cancel epoch).sp = s.sp := by simp [State.commitHold]
@[simp] theorem State.commitNew_sp (s : State) (a : Ask) : (State.commitNew s a).sp = s.sp := by simp [State.commitNew]
@[simp] theorem State.cancelAsk_sp (s : State) : (State.cancelAsk s).sp = s.sp := by simp [State.cancelAsk]
@[simp] theorem State.commitAsk_sp (s : State) (a : Ask) : (State.commitAsk s a).sp = s.sp := by simp [State.commitAsk]
@[simp] theorem State.listChecked_sp (s : State) : (State.listChecked s).sp = s.sp := by simp [State.listChecked]
@[simp] theorem execListTagCheckDone_sp (s : State) : spKept s (execListTagCheckDone s) := by simp [execListTagCheckDone]
@[simp] theorem State.sumAsk_sp (s : State) (act edit : Bool) : (State.sumAsk s act edit).sp = s.sp := by simp [State.sumAsk]
@[simp] theorem execSumAct_sp (s : State) : spKept s (execSumAct s) := by simp [execSumAct]
@[simp] theorem execSumEdit_sp (s : State) : spKept s (execSumEdit s) := by simp [execSumEdit]
@[simp] theorem State.rebuildBad_sp (s : State) (edit : Bool) : (State.rebuildBad s edit).sp = s.sp := by simp [State.rebuildBad]
@[simp] theorem State.sumActive_sp (s : State) : (State.sumActive s).sp = s.sp := by simp [State.sumActive]
@[simp] theorem State.sumEditing_sp (s : State) : (State.sumEditing s).sp = s.sp := by simp [State.sumEditing]
@[simp] theorem execSumDone_sp (s : State) : spKept s (execSumDone s) := by simp [execSumDone]
@[simp] theorem State.commitWrite_sp (s : State) (v : Nat) : (State.commitWrite s v).sp = s.sp := by
  simp [State.commitWrite]
@[simp] theorem State.commitCtlWrite_sp (s : State) (v : Nat) :
    (State.commitCtlWrite s v).sp = s.sp := by simp [State.commitCtlWrite]
@[simp] theorem execCommitNow_sp (s : State) : spKept s (execCommitNow s) := by simp [execCommitNow]
@[simp] theorem execCommitArm_sp (dropLate : Bool) (s : State) : spKept s (execCommitArm dropLate s) := by simp [execCommitArm]
@[simp] theorem execCommitCancel_sp (s : State) : spKept s (execCommitCancel s) := by simp [execCommitCancel]
@[simp] theorem State.lateDrop_sp (s : State) : (State.lateDrop s).sp = s.sp := by simp [State.lateDrop]
@[simp] theorem State.commitTake_sp (s : State) : (State.commitTake s).sp = s.sp := by
  unfold State.commitTake; (repeat' split) <;> simp
@[simp] theorem execCommitTake_sp (s : State) : spKept s (execCommitTake s) := by simp [execCommitTake]
@[simp] theorem execCommitCut_sp (s : State) : spKept s (execCommitCut s) := by
  unfold execCommitCut; simp only []; split <;> simp
@[simp] theorem State.swapLocks_sp (s : State) : (State.swapLocks s).sp = s.sp := by
  unfold State.swapLocks; simp
@[simp] theorem State.swapUnlock_sp (s : State) : (State.swapUnlock s).sp = s.sp := by simp [State.swapUnlock]
@[simp] theorem State.commitSwap_sp (s : State) (c : Commit) (e : Nat) :
    (State.commitSwap s c e).sp = s.sp := by simp [State.commitSwap]
@[simp] theorem State.commitHinge_sp (s : State) (k e : Nat) : (State.commitHinge s k e).sp = s.sp := by
  unfold State.commitHinge; (repeat' split) <;> simp
@[simp] theorem State.sweepActive_sp (s : State) : (State.sweepActive s).sp = s.sp := by simp [State.sweepActive]
@[simp] theorem State.catchupDone_sp (s : State) : (State.catchupDone s).sp = s.sp := by simp [State.catchupDone]
@[simp] theorem execCatchupDone_sp (s : State) : spKept s (execCatchupDone s) := by simp [execCatchupDone]
@[simp] theorem State.legSat_sp (s : State) (b : Nat) : (State.legSat s b).sp = s.sp := by simp [State.legSat]
@[simp] theorem State.gCmd_sp (s : State) (op : Nat) : (State.gCmd s op).sp = s.sp := by simp [State.gCmd]
@[simp] theorem State.confCmd_sp (s : State) (op : Nat) : (State.confCmd s op).sp = s.sp := by simp [State.confCmd]
@[simp] theorem execGRead_sp (s : State) : spKept s (execGRead s) := by simp [execGRead]
@[simp] theorem execGReadClear_sp (s : State) : spKept s (execGReadClear s) := by simp [execGReadClear]
@[simp] theorem execConfRead_sp (s : State) : spKept s (execConfRead s) := by simp [execConfRead]
@[simp] theorem execConfReadClear_sp (s : State) : spKept s (execConfReadClear s) := by simp [execConfReadClear]
@[simp] theorem State.gDone_sp (s : State) (c : PortCmd) : (State.gDone s c).sp = s.sp := by simp [State.gDone]
@[simp] theorem State.confDone_sp (s : State) (c : PortCmd) : (State.confDone s c).sp = s.sp := by simp [State.confDone]
@[simp] theorem State.benchCmd_sp (s : State) (op : Nat) : (State.benchCmd s op).sp = s.sp := by simp [State.benchCmd]
@[simp] theorem execBenchRead_sp (s : State) : spKept s (execBenchRead s) := by simp [execBenchRead]
@[simp] theorem execBenchReadClear_sp (s : State) : spKept s (execBenchReadClear s) := by simp [execBenchReadClear]
@[simp] theorem execBenchWrite_sp (s : State) : spKept s (execBenchWrite s) := by simp [execBenchWrite]
@[simp] theorem State.benchDone_sp (s : State) (c : PortCmd) : (State.benchDone s c).sp = s.sp := by simp [State.benchDone]
@[simp] theorem State.mirrorSel_sp (s : State) (a : Nat) : (State.mirrorSel s a).sp = s.sp := by simp [State.mirrorSel]
@[simp] theorem State.mirrorGrp_sp (s : State) (g : Nat) : (State.mirrorGrp s g).sp = s.sp := by simp [State.mirrorGrp]
@[simp] theorem State.selMoved_sp (s : State) (a : Nat) (prot : Bool) :
    (State.selMoved s a prot).sp = s.sp := by simp [State.selMoved]
@[simp] theorem State.selCfg_sp (s : State) (a : Nat) : (State.selCfg s a).sp = s.sp := by
  unfold State.selCfg; simp only []; split <;> simp
@[simp] theorem State.selMove_sp (s : State) (a : Nat) (changed : Bool) : (State.selMove s a changed).sp = s.sp := by
  unfold State.selMove; simp only []; split <;> simp
@[simp] theorem State.selTurn_sp (s : State) (a : Nat) (changed : Bool) :
    (State.selTurn s a changed).sp = s.sp := by simp [State.selTurn]
@[simp] theorem State.selDecide_sp (s : State) (a cw cp : Nat) (nw np : Bool) :
    (State.selDecide s a cw cp nw np).sp = s.sp := by simp [State.selDecide]
@[simp] theorem State.showGrp_sp (s : State) (g : Nat) : (State.showGrp s g).sp = s.sp := by simp [State.showGrp]
@[simp] theorem State.sendAps_sp (s : State) (cfg v : Nat) : (State.sendAps s cfg v).sp = s.sp := by simp [State.sendAps]
@[simp] theorem State.grpCfg_sp (s : State) (g : Nat) : (State.grpCfg s g).sp = s.sp := by simp [State.grpCfg]
@[simp] theorem State.grpMove_sp (s : State) (g : Nat) : (State.grpMove s g).sp = s.sp := by
  unfold State.grpMove; simp only []; split <;> simp
@[simp] theorem State.grpTurn_sp (s : State) (g : Nat) : (State.grpTurn s g).sp = s.sp := by simp [State.grpTurn]
@[simp] theorem State.grpDecide_sp (s : State) (g : Nat) : (State.grpDecide s g).sp = s.sp := by simp [State.grpDecide]
@[simp] theorem State.gCfgWrite_sp (s : State) (g v : Nat) : (State.gCfgWrite s g v).sp = s.sp := by simp [State.gCfgWrite]
@[simp] theorem execGCfgWrite_sp (g : Fin 32) (v : W32) (s : State) : spKept s (execGCfgWrite g v s) := by simp [execGCfgWrite]
@[simp] theorem State.grpCommand_sp (s : State) (g c : Nat) : (State.grpCommand s g c).sp = s.sp := by simp [State.grpCommand]
@[simp] theorem execGrpLo_sp (g : Fin 32) (s : State) : spKept s (execGrpLo g s) := by simp [execGrpLo]
@[simp] theorem execGrpFs_sp (g : Fin 32) (s : State) : spKept s (execGrpFs g s) := by simp [execGrpFs]
@[simp] theorem execGrpMsP_sp (g : Fin 32) (s : State) : spKept s (execGrpMsP g s) := by simp [execGrpMsP]
@[simp] theorem execGrpMsW_sp (g : Fin 32) (s : State) : spKept s (execGrpMsW g s) := by simp [execGrpMsW]
@[simp] theorem execGrpClear_sp (g : Fin 32) (s : State) : spKept s (execGrpClear g s) := by simp [execGrpClear]
@[simp] theorem State.sCmd_sp (s : State) (v : Nat) : (State.sCmd s v).sp = s.sp := by simp [State.sCmd]
@[simp] theorem execSelLo_sp (s : State) : spKept s (execSelLo s) := by simp [execSelLo]
@[simp] theorem execSelFs_sp (s : State) : spKept s (execSelFs s) := by simp [execSelFs]
@[simp] theorem execSelMsP_sp (s : State) : spKept s (execSelMsP s) := by simp [execSelMsP]
@[simp] theorem execSelMsW_sp (s : State) : spKept s (execSelMsW s) := by simp [execSelMsW]
@[simp] theorem execSelClear_sp (s : State) : spKept s (execSelClear s) := by simp [execSelClear]
@[simp] theorem execSRead_sp (s : State) : spKept s (execSRead s) := by simp [execSRead]
@[simp] theorem execSReadClear_sp (s : State) : spKept s (execSReadClear s) := by simp [execSReadClear]
@[simp] theorem execSWrite_sp (s : State) : spKept s (execSWrite s) := by simp [execSWrite]
@[simp] theorem State.sErr_sp (s : State) : (State.sErr s).sp = s.sp := by simp [State.sErr]
@[simp] theorem State.sRefused_sp (s : State) : (State.sRefused s).sp = s.sp := by simp [State.sRefused]
@[simp] theorem State.selCommand_sp (s : State) (a c : Nat) : (State.selCommand s a c).sp = s.sp := by simp [State.selCommand]
@[simp] theorem State.selWrite_sp (s : State) (a w : Nat) : (State.selWrite s a w).sp = s.sp := by simp [State.selWrite]
@[simp] theorem State.selCapture_sp (s : State) (a : Nat) (clr : Bool) :
    (State.selCapture s a clr).sp = s.sp := by simp [State.selCapture]
@[simp] theorem State.sDone_sp (s : State) (c : PortCmd) : (State.sDone s c).sp = s.sp := by simp [State.sDone]
@[simp] theorem execHoldoffExpire_sp (t : SelRef) (side : Side) (run : Nat) (s : State) :
    spKept s (execHoldoffExpire t side run s) := by
  unfold execHoldoffExpire; (repeat' split) <;> simp
@[simp] theorem execWtrExpire_sp (t : SelRef) (run : Nat) (s : State) : spKept s (execWtrExpire t run s) := by
  unfold execWtrExpire; (repeat' split) <;> simp
@[simp] theorem State.apsMm_sp (s : State) (g : Nat) (v : Bool) : (State.apsMm s g v).sp = s.sp := by simp [State.apsMm]
@[simp] theorem execApsMmDeclare_sp (g : Fin 32) (s : State) : spKept s (execApsMmDeclare g s) := by simp [execApsMmDeclare]
@[simp] theorem execApsMmClear_sp (g : Fin 32) (s : State) : spKept s (execApsMmClear g s) := by simp [execApsMmClear]
@[simp] theorem execEqMultiframe_sp (q : Fin 65536) (side : Side) (tag : BitVec 16) (s : State) : spKept s (execEqMultiframe q side tag s) := by
  simp [execEqMultiframe]
@[simp] theorem State.eqLine_sp (s : State) (q : Nat) (r : EqRing) (now tag u : Nat) :
    (State.eqLine s q r now tag u).1.sp = s.sp := by
  unfold State.eqLine; dsimp only; (repeat' split) <;> simp
@[simp] theorem State.eqFetch_sp (s : State) (q : Nat) (r : EqRing) (now n : Nat) :
    (State.eqFetch s q r now n).1.sp = s.sp := by
  unfold State.eqFetch; simp only []; split <;> simp
@[simp] theorem State.eqLost_sp (s : State) (q : Nat) : (State.eqLost s q).sp = s.sp := by simp [State.eqLost]
@[simp] theorem State.eqRelease_sp (s : State) (q n : Nat) : (State.eqRelease s q n).sp = s.sp := by
  unfold State.eqRelease; dsimp only; (repeat' split) <;> simp
@[simp] theorem execEqContainerRelease_sp (q : Fin 65536) (tag : BitVec 16) (i : Fin 32)
    (altered : List (Nat × List Byte)) (s : State) :
    spKept s (execEqContainerRelease q tag i altered s) := by simp [execEqContainerRelease]
@[simp] theorem State.eqByte_sp (q : Nat) (early : Bool) (acc : State × List Byte) (y : EqByte) :
    (State.eqByte q early acc y).1.sp = acc.1.sp := by
  simp [State.eqByte]
@[simp] theorem State.eqSend_sp (s : State) (q : Nat) (pre : List EqByte) (came : Nat) (restart : Bool) :
    (State.eqSend s q pre came restart).1.sp = s.sp := by
  unfold State.eqSend; dsimp only; split
  · simp
  all_goals (split <;> simp)
@[simp] theorem State.eqStore_sp (q : Nat) (t : State × EqRing) (x : EqByte) :
    (State.eqStore q t x).1.sp = t.1.sp := by
  unfold State.eqStore; dsimp only; (repeat' split) <;> simp
@[simp] theorem State.eqFrame_sp (s : State) (e q : Nat) (col : Bool → Option Col) (ps : List Nat) :
    (State.eqFrame s e q col ps).1.sp = s.sp := by
  unfold State.eqFrame; dsimp only; (repeat' split) <;> simp
@[simp] theorem State.eqTurn_sp (s : State) (q : Nat) (changed : Bool) :
    (State.eqTurn s q changed).1.sp = s.sp := by simp [State.eqTurn]
@[simp] theorem State.qCmd_sp (s : State) (v : Nat) : (State.qCmd s v).sp = s.sp := by simp [State.qCmd]
@[simp] theorem execQRead_sp (s : State) : spKept s (execQRead s) := by simp [execQRead]
@[simp] theorem execQReadClear_sp (s : State) : spKept s (execQReadClear s) := by simp [execQReadClear]
@[simp] theorem execQWrite_sp (s : State) : spKept s (execQWrite s) := by simp [execQWrite]
@[simp] theorem State.eqWrite_sp (s : State) (q w : Nat) : (State.eqWrite s q w).sp = s.sp := by simp [State.eqWrite]
@[simp] theorem State.eqCapture_sp (s : State) (q : Nat) (clr : Bool) :
    (State.eqCapture s q clr).sp = s.sp := by simp [State.eqCapture]
@[simp] theorem State.qDone_sp (s : State) (c : PortCmd) : (State.qDone s c).sp = s.sp := by simp [State.qDone]
@[simp] theorem State.setRef_sp (s : State) (r : Nat) (x : Ref) : (State.setRef s r x).sp = s.sp := by simp [State.setRef]
@[simp] theorem State.refFollow_sp (s : State) (r : Nat) : (State.refFollow s r).sp = s.sp := by simp [State.refFollow]
@[simp] theorem State.refOff_sp (s : State) (r : Nat) : (State.refOff s r).sp = s.sp := by simp [State.refOff]
@[simp] theorem State.refShow_sp (s : State) (r : Nat) : (State.refShow s r).sp = s.sp := by simp [State.refShow]
@[simp] theorem State.disqualify_sp (s : State) (r : Nat) : (State.disqualify s r).sp = s.sp := by simp [State.disqualify]
@[simp] theorem State.refCycle_sp (s : State) (r : Nat) : (State.refCycle s r).sp = s.sp := by simp [State.refCycle]
@[simp] theorem State.refJudge_sp (s : State) (r : Nat) (hit : Bool) :
    (State.refJudge s r hit).sp = s.sp := by simp [State.refJudge]
@[simp] theorem State.hoStop_sp (s : State) : (State.hoStop s).sp = s.sp := by simp [State.hoStop]
@[simp] theorem State.unfollow_sp (s : State) (st : Nat) : (State.unfollow s st).sp = s.sp := by simp [State.unfollow]
@[simp] theorem State.enterFreerun_sp (s : State) : (State.enterFreerun s).sp = s.sp := by simp [State.enterFreerun]
@[simp] theorem State.enterHoldover_sp (s : State) : (State.enterHoldover s).sp = s.sp := by simp [State.enterHoldover]
@[simp] theorem State.transition_sp (s : State) (r : Nat) : (State.transition s r).sp = s.sp := by simp [State.transition]
@[simp] theorem State.retargetTo_sp (s : State) (r : Nat) : (State.retargetTo s r).sp = s.sp := (rfl)
@[simp] theorem State.selectRef_sp (s : State) : (State.selectRef s).sp = s.sp := by
  unfold State.selectRef; (repeat' split) <;> simp
@[simp] theorem State.selectAfter_sp (old s : State) : (State.selectAfter old s).sp = s.sp := by simp [State.selectAfter]
@[simp] theorem State.refEvent_sp (s : State) (r : Nat) (hit : Bool) :
    (State.refEvent s r hit).sp = s.sp := by simp [State.refEvent]
@[simp] theorem State.refActivity_sp (s : State) (r : Nat) (a : Activity) : (State.refActivity s r a).sp = s.sp := by
  unfold State.refActivity; (repeat' split) <;> simp
@[simp] theorem execRefActivityChange_sp (r : Fin 13) (a : Activity) (s : State) :
    spKept s (execRefActivityChange r a s) := by simp [execRefActivityChange]
@[simp] theorem execUnstableClear_sp (r : Fin 13) (s : State) : spKept s (execUnstableClear r s) := by simp [execUnstableClear]
@[simp] theorem execHit_sp (h : PhaseHit) (s : State) : spKept s (execHit h s) := by
  simp [execHit]
@[simp] theorem execRefQualify_sp (r : Fin 13) (run : Nat) (s : State) :
    spKept s (execRefQualify r run s) := by simp [execRefQualify]
@[simp] theorem execLockoutEnd_sp (r : Fin 13) (s : State) : spKept s (execLockoutEnd r s) := by simp [execLockoutEnd]
@[simp] theorem State.freqDisqualify_sp (s : State) (r : Nat) :
    (State.freqDisqualify s r).sp = s.sp := by simp [State.freqDisqualify]
@[simp] theorem execPersistExpire_sp (r : Fin 13) (run : Nat) (s : State) :
    spKept s (execPersistExpire r run s) := by simp [execPersistExpire]
@[simp] theorem State.refFreq_sp (old : State) (offs : List (Nat × Int)) (s : State) (r : Nat) (x : Int) :
    (State.refFreq old offs s r x).sp = s.sp := by simp [State.refFreq]
@[simp] theorem State.refNoFreq_sp (s : State) (r : Nat) : (State.refNoFreq s r).sp = s.sp := by simp [State.refNoFreq]
@[simp] theorem State.refsUpdate_sp (s : State) (m : TimingMeas) : (s.refsUpdate m).sp = s.sp := by
  unfold State.refsUpdate; dsimp only
  rw [State.wr_sp, State.wrB_sp, foldl_sp _ _ _ (fun s x => by simp), foldl_sp _ _ _ (fun s x => by split <;> simp),
    foldl_sp _ _ _ (fun s x => by simp)]
@[simp] theorem State.dpllMove_sp (s : State) (loop : Int) : (State.dpllMove s loop).sp = s.sp := by simp [State.dpllMove]
@[simp] theorem State.lockingTick_sp (s : State) (f phase : Int) : (State.lockingTick s f phase).sp = s.sp := by
  unfold State.lockingTick; simp only []; split <;> simp
@[simp] theorem State.hoSpecChk_sp (s : State) : (State.hoSpecChk s).sp = s.sp := by simp [State.hoSpecChk]
@[simp] theorem State.holdTick_sp (s : State) : (State.holdTick s).sp = s.sp := by simp [State.holdTick]
@[simp] theorem State.dpllTick_sp (s : State) (phase : Int) (held : Bool) :
    (State.dpllTick s phase held).sp = s.sp := by simp [State.dpllTick]
@[simp] theorem execTimingUpdate_sp (m : TimingMeas) (s : State) : spKept s (execTimingUpdate m s) := by
  simp [execTimingUpdate]
@[simp] theorem State.transitionEnd_sp (s : State) : (State.transitionEnd s).sp = s.sp := by simp [State.transitionEnd]
@[simp] theorem execTransitionStep_sp (phase : Int) (s : State) : spKept s (execTransitionStep phase s) := by
  unfold execTransitionStep; dsimp only; (repeat' split) <;> simp
@[simp] theorem execDpllLocked_sp (s : State) : spKept s (execDpllLocked s) := by simp [execDpllLocked]
@[simp] theorem execHoldoverOos_sp (seconds : Nat) (s : State) : spKept s (execHoldoverOos seconds s) := by simp [execHoldoverOos]
@[simp] theorem execLoFailDeclare_sp (s : State) : spKept s (execLoFailDeclare s) := by simp [execLoFailDeclare]
@[simp] theorem execLoFailClear_sp (s : State) : spKept s (execLoFailClear s) := by simp [execLoFailClear]
@[simp] theorem State.evtMaskWrite_sp (s : State) (p : Page) (i v : Nat) : (s.evtMaskWrite p i v).sp = s.sp := by
  unfold State.evtMaskWrite; dsimp only
  rw [foldl_fst_sp]
  · simp
  · intro s x; split <;> simp
@[simp] theorem execEvtMaskWrite_sp (p : Page) (i : Nat) (v : W32) (s : State) :
    spKept s (execEvtMaskWrite p i v s) := by simp [execEvtMaskWrite]
@[simp] theorem State.eqPop_sp (s : State) : (State.eqPop s).1.sp = s.sp := by
  unfold State.eqPop; simp only []; split <;> simp
@[simp] theorem execEventQueuePop_sp (s : State) : spKept s (execEventQueuePop s) := by simp [execEventQueuePop]
@[simp] theorem State.eqFlush_sp (s : State) : (State.eqFlush s).sp = s.sp := by simp [State.eqFlush]
@[simp] theorem execEventQueueFlush_sp (s : State) : spKept s (execEventQueueFlush s) := by simp [execEventQueueFlush]
@[simp] theorem State.eqMismatch_sp (s : State) : (State.eqMismatch s).sp = s.sp := by simp [State.eqMismatch]
@[simp] theorem State.drwChanged_sp (s : State) (n c : Nat) : (State.drwChanged s n c).sp = s.sp := by simp [State.drwChanged]
@[simp] theorem State.chgCapture_sp (s : State) (v : Nat) : (State.chgCapture s v).sp = s.sp := by simp [State.chgCapture]
@[simp] theorem execChgCapture_sp (v : W32) (s : State) : spKept s (execChgCapture v s) := by simp [execChgCapture]
@[simp] theorem execCntPreset_sp (p : Page) (i : Nat) (k : Fin 8) (v : BitVec 48) (s : State) :
    spKept s (execCntPreset p i k v s) := by simp [execCntPreset]
@[simp] theorem execCntWrap_sp (p : Page) (i : Nat) (k : Fin 8) (s : State) :
    spKept s (execCntWrap p i k s) := by simp [execCntWrap]
@[simp] theorem State.snapTake_sp (s : State) (src : Nat) : (State.snapTake s src).sp = s.sp := by simp [State.snapTake]
@[simp] theorem State.snapshot_sp (s : State) (src : Nat) : (State.snapshot s src).sp = s.sp := by simp [State.snapshot]
@[simp] theorem execPerfSnap_sp (s : State) : spKept s (execPerfSnap s) := by simp [execPerfSnap]
@[simp] theorem execPerfFreeze_sp (on : Bool) (s : State) : spKept s (execPerfFreeze on s) := by simp [execPerfFreeze]
@[simp] theorem execSnapPin_sp (level : Bool) (s : State) : spKept s (execSnapPin level s) := by simp [execSnapPin]
@[simp] theorem State.trCtlWrite_sp (s : State) (v : Nat) : (State.trCtlWrite s v).sp = s.sp := by simp [State.trCtlWrite]
@[simp] theorem execTraceEnable_sp (v : W32) (s : State) : spKept s (execTraceEnable v s) := by simp [execTraceEnable]
@[simp] theorem State.traceWrite_sp (s : State) (tag : BitVec 16) (kind : Nat) (stage : Byte) (id : W32) (info : BitVec 16) :
    (State.traceWrite s tag kind stage id info).sp = s.sp := by simp [State.traceWrite]
@[simp] theorem State.traceCandidate_sp (s : State) (kind id info : Nat) :
    (State.traceCandidate s kind id info).1.sp = s.sp := by simp [State.traceCandidate]
@[simp] theorem execTraceRecord_sp (stage : Byte) (id : W32) (info : BitVec 16) (item : Option (BitVec 16)) (s : State) :
    spKept s (execTraceRecord stage id info item s) := by
  unfold execTraceRecord; dsimp only; split
  · simp
  · cases item <;> simp
@[simp] theorem State.tracePop_sp (s : State) : (State.tracePop s).1.sp = s.sp := by
  unfold State.tracePop; (repeat' split) <;> simp
@[simp] theorem execTracePop_sp (s : State) : spKept s (execTracePop s) := by simp [execTracePop]
@[simp] theorem State.traceFlush_sp (s : State) : (State.traceFlush s).sp = s.sp := by simp [State.traceFlush]
@[simp] theorem State.trMismatch_sp (s : State) : (State.trMismatch s).sp = s.sp := by simp [State.trMismatch]
@[simp] theorem State.setRate_sp (s : State) (f sl : Int) : (State.setRate s f sl).sp = s.sp := by simp [State.setRate]
@[simp] theorem State.setTime_sp (s : State) (t : Nat) : (State.setTime s t).sp = s.sp := by simp [State.setTime]
@[simp] theorem State.timeRead_sp (s : State) : (State.timeRead s).1.sp = s.sp := by simp [State.timeRead]
@[simp] theorem execTimeRead_sp (s : State) : spKept s (execTimeRead s) := by simp [execTimeRead]
@[simp] theorem State.setServo_sp (s : State) (v : Nat) : (State.setServo s v).sp = s.sp := by simp [State.setServo]
@[simp] theorem State.slewFollow_sp (s : State) : (State.slewFollow s).sp = s.sp := (rfl)
@[simp] theorem State.servoFree_sp (s : State) : (State.servoFree s).sp = s.sp := by simp [State.servoFree]
@[simp] theorem State.servoCount_sp (s : State) (id : Nat) : (State.servoCount s id).sp = s.sp := by simp [State.servoCount]
@[simp] theorem State.servoLoop_sp (s : State) (off : Int) : (State.servoLoop s off).sp = s.sp := (rfl)
@[simp] theorem State.servoSample_sp (s : State) (off : Int) : (State.servoSample s off).sp = s.sp := by
  simp [State.servoSample]
@[simp] theorem State.samplePush_sp (s : State) (hi : Nat) : (State.samplePush s hi).sp = s.sp := by simp [State.samplePush]
@[simp] theorem execSamplePush_sp (hi : W32) (s : State) : spKept s (execSamplePush hi s) := by simp [execSamplePush]
@[simp] theorem execMasterTimeout_sp (run : Nat) (s : State) : spKept s (execMasterTimeout run s) := by simp [execMasterTimeout]
@[simp] theorem State.stepGo_sp (s : State) (abs neg : Bool) : (State.stepGo s abs neg).sp = s.sp := by simp [State.stepGo]
@[simp] theorem execStepGo_sp (abs neg : Bool) (s : State) : spKept s (execStepGo abs neg s) := by simp [execStepGo]
@[simp] theorem State.stepTake_sp (s : State) : (State.stepTake s).sp = s.sp := by
  unfold State.stepTake; simp only []; split <;> simp
@[simp] theorem State.labelHinge_sp (s : State) (mate : Option Nat) :
    (State.labelHinge s mate).sp = s.sp := by simp [State.labelHinge]
@[simp] theorem State.actArm_sp (s : State) (i action : Nat) (drop : Bool) :
    (State.actArm s i action drop).sp = s.sp := by simp [State.actArm]
@[simp] theorem State.actCancel_sp (s : State) (i : Nat) : (State.actCancel s i).sp = s.sp := by simp [State.actCancel]
@[simp] theorem execActArm_sp (i : Fin 16) (action : BitVec 4) (dropLate : Bool) (s : State) :
    spKept s (execActArm i action dropLate s) := by simp [execActArm]
@[simp] theorem execActCancel_sp (i : Fin 16) (s : State) : spKept s (execActCancel i s) := by simp [execActCancel]
@[simp] theorem State.actTurn_sp (s : State) (i : Nat) (snap : Bool) : (State.actTurn s i snap).1.sp = s.sp := by
  unfold State.actTurn; dsimp only; (repeat' split) <;> simp
@[simp] theorem State.actions_sp (s : State) : (State.actions s).sp = s.sp := by simp [State.actions]
@[simp] theorem execPpsOutEdge_sp (s : State) : spKept s (execPpsOutEdge s) := by simp [execPpsOutEdge]
@[simp] theorem execPpsWidthEnd_sp (s : State) : spKept s (execPpsWidthEnd s) := by simp [execPpsWidthEnd]
@[simp] theorem State.ppsFollow_sp (s : State) : (State.ppsFollow s).sp = s.sp := by simp [State.ppsFollow]
@[simp] theorem execPpsIn_sp (s : State) : spKept s (execPpsIn s) := by simp [execPpsIn]
@[simp] theorem State.txQfull_sp (s : State) (p : Nat) : (State.txQfull s p).sp = s.sp := by simp [State.txQfull]
@[simp] theorem State.sendPacket_sp (s : State) (n : Nat) (us : List (Nat × Nat × List Byte)) :
    (State.sendPacket s n us).sp = s.sp := by
  unfold State.sendPacket; simp only []; split <;> simp
@[simp] theorem State.visit_sp (s : State) (n : Nat) : (State.visit s n).sp = s.sp := by simp [State.visit]
@[simp] theorem State.mirrorPwctx_sp (s : State) (n : Nat) : (State.mirrorPwctx s n).sp = s.sp := by
  simp [State.mirrorPwctx]
@[simp] theorem State.visitTurn_sp (s : State) (n : Nat) : (State.visitTurn s n).sp = s.sp := by simp [State.visitTurn]
@[simp] theorem State.jbRestart_sp (s : State) (n : Nat) : (State.jbRestart s n).sp = s.sp := by simp [State.jbRestart]
@[simp] theorem State.pwDiscard_sp (s : State) : (State.pwDiscard s).sp = s.sp := by simp [State.pwDiscard]
@[simp] theorem State.offTime_sp (s : State) (n : Nat) (early : Bool) :
    (State.offTime s n early).sp = s.sp := by simp [State.offTime]
@[simp] theorem State.noteLR_sp (s : State) (n : Nat) (l r : Bool) : (State.noteLR s n l r).sp = s.sp := by simp [State.noteLR]
@[simp] theorem State.placePacket_sp (s : State) (n : Nat) (no : Nat) (us : List (List Byte)) (l r : Bool) :
    (State.placePacket s n no us l r).sp = s.sp := by simp [State.placePacket]
@[simp] theorem State.crSet_sp (s : State) (n : Nat) (x : Int) : (State.crSet s n x).sp = s.sp := by simp [State.crSet]
@[simp] theorem State.crUpdate_sp (s : State) (n : Nat) : (State.crUpdate s n).sp = s.sp := by simp [State.crUpdate]
@[simp] theorem State.crPacket_sp (s : State) (n no ts : Nat) : (State.crPacket s n no ts).sp = s.sp := by
  unfold State.crPacket; dsimp only; (repeat' split) <;> simp
@[simp] theorem State.pwReceive_sp (s : State) (n seq ts : Nat) (us : List (List Byte)) (l r : Bool) :
    (State.pwReceive s n seq ts us l r).sp = s.sp := by simp [State.pwReceive]
@[simp] theorem State.concealUnit_sp (s : State) (n : Nat) : (State.concealUnit s n).sp = s.sp := by simp [State.concealUnit]
@[simp] theorem State.jbDet_sp (s : State) : (State.jbDet s).sp = s.sp := by simp [State.jbDet]
@[simp] theorem State.unitContent_sp (s : State) (n f : Nat) : (State.unitContent s n f).1.sp = s.sp := by
  unfold State.unitContent; dsimp only; split
  · rfl
  · split
    · rfl
    · have h := State.burstGet_sp s rgJitter (unitTag f) (unitBurst n f)
      split <;> (rename_i e; rw [e] at h; simpa using h)
@[simp] theorem State.playUnit_sp (s : State) (n f : Nat) : (State.playUnit s n f).sp = s.sp := by
  unfold State.playUnit; simp only []; split <;> simp
@[simp] theorem State.playout_sp (s : State) (n : Nat) : (State.playout s n).sp = s.sp := by
  unfold State.playout; dsimp only; (repeat' split) <;> simp
@[simp] theorem execPlayoutUnit_sp (n : Fin 16384) (s : State) : spKept s (execPlayoutUnit n s) := by simp [execPlayoutUnit]
@[simp] theorem execJbBurstWrite_sp (n : Fin 16384) (f : Nat) (s : State) :
    spKept s (execJbBurstWrite n f s) := by simp [execJbBurstWrite]
@[simp] theorem execJbMerge_sp (n : Fin 16384) (f : Nat) (s : State) : spKept s (execJbMerge n f s) := by
  unfold execJbMerge; dsimp only; split
  · simp
  · split
    · simp
    · rename_i u _ _
      generalize ht : s.start.setCtx n { s.start.ctx n with late := mdel (s.start.ctx n).late f } = t
      have h₀ : t.sp = s.sp := by rw [← ht]; simp
      have h := State.burstGet_sp t rgJitter (unitTag f) (unitBurst n f)
      split <;> (rename_i e; rw [e] at h; simpa using h.trans h₀)
@[simp] theorem State.cCmd_sp (s : State) (v : Nat) : (State.cCmd s v).sp = s.sp := by simp [State.cCmd]
@[simp] theorem execCtxRead_sp (s : State) : spKept s (execCtxRead s) := by simp [execCtxRead]
@[simp] theorem execCtxReadClear_sp (s : State) : spKept s (execCtxReadClear s) := by simp [execCtxReadClear]
@[simp] theorem execCtxWrite_sp (s : State) : spKept s (execCtxWrite s) := by simp [execCtxWrite]
@[simp] theorem State.ctxSet_sp (s : State) (n : Nat) (c : Ctx) : (State.ctxSet s n c).sp = s.sp := by simp [State.ctxSet]
@[simp] theorem State.mirrorPwcfg_sp (s : State) (bodies : List (List Byte)) :
    (State.mirrorPwcfg s bodies).sp = s.sp := by simp [State.mirrorPwcfg]
@[simp] theorem State.cErr_sp (s : State) (code : Nat) : (State.cErr s code).sp = s.sp := by simp [State.cErr]
@[simp] theorem State.ctxWrite_sp (s : State) (n : Nat) (c : Ctx) : (State.ctxWrite s n c).sp = s.sp := by simp [State.ctxWrite]
@[simp] theorem State.wrCCfg_sp (s : State) (c : Ctx) : (State.wrCCfg s c).sp = s.sp := by simp [State.wrCCfg]
@[simp] theorem State.ctxCapture_sp (s : State) (n : Nat) (clr : Bool) :
    (State.ctxCapture s n clr).sp = s.sp := by simp [State.ctxCapture]
@[simp] theorem State.ctxDone_sp (s : State) (c : PortCmd) : (State.ctxDone s c).sp = s.sp := by simp [State.ctxDone]
@[simp] theorem State.tCmd_sp (s : State) (v : Nat) : (State.tCmd s v).sp = s.sp := by simp [State.tCmd]
@[simp] theorem execTplRead_sp (s : State) : spKept s (execTplRead s) := by simp [execTplRead]
@[simp] theorem execTplWrite_sp (s : State) : spKept s (execTplWrite s) := by simp [execTplWrite]
@[simp] theorem execTplInval_sp (s : State) : spKept s (execTplInval s) := by simp [execTplInval]
@[simp] theorem State.tplCapture_sp (s : State) (i : Nat) : (State.tplCapture s i).sp = s.sp := by
  unfold State.tplCapture; simp only []; split <;> simp
@[simp] theorem State.tplDone_sp (s : State) (c : PortCmd) : (State.tplDone s c).sp = s.sp := by simp [State.tplDone]
@[simp] theorem State.hostRead_sp (s : State) (d len : Nat) : (State.hostRead s d len).1.sp = s.sp := by simp [State.hostRead]
@[simp] theorem State.hostWrite_sp (s : State) (d : Nat) (bs : List Byte) :
    (State.hostWrite s d bs).sp = s.sp := by simp [State.hostWrite]
@[simp] theorem State.descDone_sp (s : State) (p : Nat) (x : TxItem) (flags : Nat) (stamp : Option Nat) :
    (State.descDone s p x flags stamp).sp = s.sp := by
  unfold State.descDone; (repeat' split) <;> simp
@[simp] theorem State.queueHost_sp (s : State) (p : Nat) (x : TxItem) :
    (State.queueHost s p x).sp = s.sp := by simp [State.queueHost]
@[simp] theorem State.launchLate_sp (s : State) (p : Nat) (x : TxItem) :
    (State.launchLate s p x).sp = s.sp := by simp [State.launchLate]
@[simp] theorem State.hostTxDesc_sp (s : State) (p : Nat) : (s.hostTxDesc p).sp = s.sp := by
  unfold State.hostTxDesc; dsimp only
  split
  · rfl
  · have h := State.hostRead_sp s (descAddr (s.rd R.ETH_HTX_BASE_BASE p) (s.rd R.ETH_HTX_SIZE_SIZE p) (s.eth p).next) 32
    split
    · rename_i e; rw [e] at h; exact h
    · rename_i t b e
      rw [e] at h
      have h' := State.hostRead_sp t (ofLe (sliceBytes b 0 5)) (ofLe (sliceBytes b 5 2))
      split
      all_goals (rename_i e'; rw [e'] at h'; (repeat' split) <;> simpa using h'.trans h)
@[simp] theorem execHostTxDesc_sp (p : Fin 8) (s : State) : spKept s (execHostTxDesc p s) := by simp [execHostTxDesc]
@[simp] theorem State.launchHost_sp (sl : Nat) (s : State) (p : Nat) : (State.launchHost sl s p).sp = s.sp := by
  unfold State.launchHost; simp only []; split <;> simp
@[simp] theorem execLaunchSlot_sp (sl : Fin 125) (s : State) : spKept s (execLaunchSlot sl s) := by simp [execLaunchSlot]
@[simp] theorem State.toHost_sp (s : State) (p : Nat) (f : EthRx) (stamp : Nat) : (s.toHost p f stamp).sp = s.sp := by
  unfold State.toHost; dsimp only
  split
  · simp
  · have h := State.hostRead_sp s (descAddr (s.rd R.ETH_HRX_BASE_BASE p) (s.rd R.ETH_HRX_SIZE_SIZE p) (s.rd R.ETH_HRX_PTR_WR p)) 32
    split <;> (rename_i e; rw [e] at h; simpa using h)
@[simp] theorem State.pwPacket_sp (s : State) (n : Nat) (bs : List Byte) (o stop : Nat) :
    (State.pwPacket s n bs o stop).sp = s.sp := by simp [State.pwPacket]
@[simp] theorem State.rxTake_sp (s : State) (p : Nat) (x : EthRx × Nat) : (State.rxTake s p x).sp = s.sp := by
  unfold State.rxTake; (repeat' split) <;> simp
@[simp] theorem State.rxDrain_sp (n p : Nat) (s : State) : (State.rxDrain n p s).sp = s.sp := by
  induction n generalizing s with
  | zero => rfl
  | succ n ih =>
    unfold State.rxDrain; split
    · rfl
    · split
      · rfl
      · simp [ih]
@[simp] theorem State.rxEnter_sp (s : State) (p : Nat) (x : EthRx × Nat) : (State.rxEnter s p x).sp = s.sp := by
  simp [State.rxEnter]
@[simp] theorem State.paused_sp (s : State) (p q : Nat) : (State.paused s p q).sp = s.sp := by simp [State.paused]
@[simp] theorem State.ethRx_sp (s : State) (p : Nat) (f : EthRx) : (State.ethRx s p f).sp = s.sp := by simp [State.ethRx]
@[simp] theorem execEthFrameRx_sp (p : Fin 8) (f : EthRx) (s : State) :
    spKept s (execEthFrameRx p f s) := by simp [execEthFrameRx]
@[simp] theorem State.ethTx_sp (s : State) (p : Nat) (ns : Nat) : (State.ethTx s p ns).sp = s.sp := by
  unfold State.ethTx; simp only []; split <;> simp
@[simp] theorem execEthFrameTx_sp (p : Fin 8) (sfdNs : Nat) (s : State) :
    spKept s (execEthFrameTx p sfdNs s) := by simp [execEthFrameTx]
@[simp] theorem execEthLinkChange_sp (p : Fin 8) (up : Bool) (s : State) :
    spKept s (execEthLinkChange p up s) := by simp [execEthLinkChange]
@[simp] theorem execPauseExpire_sp (p : Fin 8) (s : State) : spKept s (execPauseExpire p s) := by simp [execPauseExpire]
@[simp] theorem State.ethEnWrite_sp (s : State) (p v : Nat) : (State.ethEnWrite s p v).sp = s.sp := by simp [State.ethEnWrite]
@[simp] theorem State.readyFollow_sp (s : State) : (State.readyFollow s).sp = s.sp := by simp [State.readyFollow]
@[simp] theorem State.pullStart_sp (s : State) : (State.pullStart s).sp = s.sp := by simp [State.pullStart]
@[simp] theorem State.dropCur_sp (s : State) : (State.dropCur s).sp = s.sp := by simp [State.dropCur]
@[simp] theorem execFaultWrite_sp (f : Bool) (s : State) : spKept s (execFaultWrite f s) := by simp [execFaultWrite]
@[simp] theorem State.serveStep_sp (s : State) : (State.serveStep s).sp = s.sp := by
  unfold State.serveStep; (repeat' split) <;> simp
@[simp] theorem State.serveFill_sp (s : State) : (State.serveFill s).sp = s.sp := by simp [State.serveFill]
@[simp] theorem State.dxEnable_sp (s : State) : (State.dxEnable s).sp = s.sp := by simp [State.dxEnable]
@[simp] theorem execDxEnable_sp (s : State) : spKept s (execDxEnable s) := by simp [execDxEnable]
theorem State.laneRxDexgor_sp (s : State) (l : Nat) (f : RxFrame) : ∀ t, State.laneRxDexgor s l f = some t → t.sp = s.sp := by
  unfold State.laneRxDexgor; (repeat' split) <;> simp
@[simp] theorem State.setRole_sp (s : State) (m : Nat) : (State.setRole s m).sp = s.sp := (rfl)
@[simp] theorem State.roleNow_sp (s : State) (m : Nat) : (State.roleNow s m).sp = s.sp := (rfl)
@[simp] theorem State.exchange_sp (s : State) : (State.exchange s).sp = s.sp := by simp [State.exchange]
@[simp] theorem State.frameTickDexgor_sp (s : State) (l : Nat) (bits : Nat) : (State.frameTickDexgor s l bits).sp = s.sp := by
  unfold State.frameTickDexgor; dsimp only; (repeat' split) <;> simp
@[simp] theorem execFrameTick_sp (l : LaneId) (bits : Nat) (s : State) : spKept s (execFrameTick l bits s) := by
  unfold execFrameTick; (repeat' split) <;> simp
@[simp] theorem State.hbSums_sp (s : State) : (State.hbSums s).sp = s.sp := by simp [State.hbSums]
@[simp] theorem State.hbDecide_sp (s : State) (old : Nat) : (State.hbDecide s old).sp = s.sp := by simp [State.hbDecide]
@[simp] theorem State.hbTwin_sp (s : State) (old : Nat) : (State.hbTwin s old).sp = s.sp := by simp [State.hbTwin]
@[simp] theorem State.hbBack_sp (s : State) : (State.hbBack s).sp = s.sp := by simp [State.hbBack]
@[simp] theorem State.hbLag_sp (s : State) (lag : Nat) : (State.hbLag s lag).sp = s.sp := by simp [State.hbLag]
@[simp] theorem State.hbTake_sp (s : State) (l : Nat) (lo : List Byte) (lag : Nat) :
    (State.hbTake s l lo lag).sp = s.sp := by simp [State.hbTake]
@[simp] theorem execHeartbeatRx_sp (l : Fin 2) (lo : List Byte) (lag : Nat) (s : State) :
    spKept s (execHeartbeatRx l lo lag s) := by simp [execHeartbeatRx]
@[simp] theorem State.hbLose_sp (s : State) : (State.hbLose s).sp = s.sp := by simp [State.hbLose]
@[simp] theorem execHbFrameMissed_sp (s : State) : spKept s (execHbFrameMissed s) := by simp [execHbFrameMissed]
@[simp] theorem State.recCheck_sp (s : State) (l : Nat) (r : List Byte) : (State.recCheck s l r).1.sp = s.sp := by
  unfold State.recCheck; (repeat' split) <;> simp
@[simp] theorem State.recCome_sp (s₀ s : State) (type l : Nat) (r : List Byte) (f : State → State) (h₀ : s.sp = s₀.sp)
    (h : ∀ s, (f s).sp = s.sp) : spKept s₀ (s.recCome type l r f) := by
  unfold State.recCome; dsimp only; split
  · simp
  · split <;> simp [h, h₀]
@[simp] theorem State.recTake_sp (s₀ s : State) (type l : Nat) (r : List Byte) (f : State → State) (h₀ : s.sp = s₀.sp)
    (h : ∀ s, (f s).sp = s.sp) : spKept s₀ (s.recTake type l r f) := by
  unfold State.recTake
  exact State.recCome_sp _ _ _ _ _ _ h₀ (fun s => by split <;> simp [h])
@[simp] theorem State.recHold_sp (s : State) (r : List Byte) (k : HeldKind) :
    (State.recHold s r k).sp = s.sp := by simp [State.recHold]
@[simp] theorem execMirReq_sp (l : Fin 2) (r : List Byte) (s : State) : spKept s (execMirReq l r s) :=
  State.recTake_sp _ _ _ _ _ _ (by simp) (fun s => by simp)
@[simp] theorem execMirCommit_sp (l : Fin 2) (r : List Byte) (s : State) : spKept s (execMirCommit l r s) :=
  State.recTake_sp _ _ _ _ _ _ (by simp) (fun s => by simp)
@[simp] theorem State.heldTake_sp (s : State) (h : Held) : (State.heldTake s h).sp = s.sp := by
  unfold State.heldTake; simp only []; split <;> simp
@[simp] theorem execMirRelease_sp (s : State) : spKept s (execMirRelease s) := by
  unfold execMirRelease; simp only []; split <;> simp
@[simp] theorem State.recDue_sp (s : State) (r : List Byte) : (State.recDue s r).sp = s.sp := by simp [State.recDue]
@[simp] theorem execMirSel_sp (l : Fin 2) (r : List Byte) (s : State) : spKept s (execMirSel l r s) :=
  State.recTake_sp _ _ _ _ _ _ (by simp) (fun s => by simp)
@[simp] theorem execMirGrp_sp (l : Fin 2) (r : List Byte) (s : State) : spKept s (execMirGrp l r s) :=
  State.recTake_sp _ _ _ _ _ _ (by simp) (fun s => by simp)
@[simp] theorem execMirEqcfg_sp (l : Fin 2) (r : List Byte) (s : State) : spKept s (execMirEqcfg l r s) :=
  State.recTake_sp _ _ _ _ _ _ (by simp) (fun s => by simp)
@[simp] theorem execMirPwcfg_sp (l : Fin 2) (r : List Byte) (s : State) : spKept s (execMirPwcfg l r s) :=
  State.recTake_sp _ _ _ _ _ _ (by simp) (fun s => by simp)
@[simp] theorem execMirPwctx_sp (l : Fin 2) (r : List Byte) (s : State) : spKept s (execMirPwctx l r s) :=
  State.recTake_sp _ _ _ _ _ _ (by simp) (fun s => by simp)
@[simp] theorem execMirTiming_sp (l : Fin 2) (r : List Byte) (s : State) : spKept s (execMirTiming l r s) :=
  State.recTake_sp _ _ _ _ _ _ (by simp) (fun s => by simp)
@[simp] theorem execMirTime_sp (l : Fin 2) (r : List Byte) (s : State) : spKept s (execMirTime l r s) :=
  State.recTake_sp _ _ _ _ _ _ (by simp) (fun s => by simp)
@[simp] theorem State.pullWord_sp (s : State) (b : Nat) : (State.pullWord s b).sp = s.sp := by simp [State.pullWord]
@[simp] theorem execMirPull_sp (l : Fin 2) (r : List Byte) (s : State) : spKept s (execMirPull l r s) :=
  State.recTake_sp _ _ _ _ _ _ (by simp) (fun s => by simp)
@[simp] theorem State.pullEnd_sp (s : State) (no : Nat) : (State.pullEnd s no).sp = s.sp := by simp [State.pullEnd]
@[simp] theorem execMirPullEnd_sp (l : Fin 2) (r : List Byte) (s : State) : spKept s (execMirPullEnd l r s) :=
  State.recCome_sp _ _ _ _ _ _ (by simp) (fun s => by simp)
@[simp] theorem State.applySel_sp (s : State) (b : Nat) : (State.applySel s b).sp = s.sp := by simp [State.applySel]
@[simp] theorem State.applyGrp_sp (s : State) (b : Nat) : (State.applyGrp s b).sp = s.sp := by simp [State.applyGrp]
@[simp] theorem State.applyEqcfg_sp (s : State) (b : Nat) : (State.applyEqcfg s b).sp = s.sp := by simp [State.applyEqcfg]
@[simp] theorem State.applyPwcfg_sp (s : State) (b : Nat) : (State.applyPwcfg s b).sp = s.sp := by
  unfold State.applyPwcfg; dsimp only; (repeat' split) <;> simp
@[simp] theorem State.applyPwctx_sp (s : State) (b : Nat) : (State.applyPwctx s b).sp = s.sp := by simp [State.applyPwctx]
@[simp] theorem State.applyTiming_sp (s : State) (b : Nat) : (State.applyTiming s b).sp = s.sp := by simp [State.applyTiming]
@[simp] theorem State.applyTime_sp (s : State) (b : Nat) : (State.applyTime s b).sp = s.sp := by simp [State.applyTime]
@[simp] theorem State.applyRec_sp (s : State) (r : List Byte) : (State.applyRec s r).sp = s.sp := by
  unfold State.applyRec; simp only []; split <;> simp
@[simp] theorem State.applyDue_sp (s : State) : (State.applyDue s).sp = s.sp := by simp [State.applyDue]
@[simp] theorem State.mirrorFrame_sp (s : State) : (State.mirrorFrame s).sp = s.sp := by simp [State.mirrorFrame]
@[simp] theorem State.swapAsk_sp (s : State) : (State.swapAsk s).sp = s.sp := by simp [State.swapAsk]
@[simp] theorem execSwap_sp (s : State) : spKept s (execSwap s) := by simp [execSwap]
@[simp] theorem State.claimFollow_sp (s : State) : (State.claimFollow s).sp = s.sp := by simp [State.claimFollow]
@[simp] theorem State.gaspSeen_sp (s : State) : (State.gaspSeen s).sp = s.sp := by simp [State.gaspSeen]
@[simp] theorem execGaspIn_sp (s : State) : spKept s (execGaspIn s) := by simp [execGaspIn]
@[simp] theorem execGaspInRelease_sp (s : State) : spKept s (execGaspInRelease s) := by simp [execGaspInRelease]
@[simp] theorem State.claimSeen_sp (s : State) (asserted : Bool) : (State.claimSeen s asserted).sp = s.sp := by
  simp [State.claimSeen]
@[simp] theorem execClaimMateChange_sp (asserted : Bool) (s : State) :
    spKept s (execClaimMateChange asserted s) := by simp [execClaimMateChange]
@[simp] theorem State.mateStart_sp (s : State) : (State.mateStart s).sp = s.sp := by simp [State.mateStart]
@[simp] theorem State.quorum_sp (s : State) : (State.quorum s).sp = s.sp := by simp [State.quorum]
@[simp] theorem State.mateSettle_sp (s : State) : (State.mateSettle s).sp = s.sp := by simp [State.mateSettle]
@[simp] theorem State.lossRule_sp (s : State) (v : MateSeen) : (State.lossRule s v).sp = s.sp := by simp [State.lossRule]
@[simp] theorem State.twinRule_sp (s : State) (v : MateSeen) : (State.twinRule s v).sp = s.sp := by simp [State.twinRule]
@[simp] theorem State.gaspRule_sp (s : State) : (State.gaspRule s).sp = s.sp := by
  unfold State.gaspRule; simp only []; split <;> simp
@[simp] theorem State.dxStop_sp (s : State) (l : Nat) : (State.dxStop s l).sp = s.sp := by simp [State.dxStop]
@[simp] theorem State.hbHinge_sp (s : State) : (State.hbHinge s).sp = s.sp := by simp [State.hbHinge]
@[simp] theorem State.mateHinge_sp (s : State) : (State.mateHinge s).sp = s.sp := by simp [State.mateHinge]
@[simp] theorem State.takeTiming_sp (s : State) : (State.takeTiming s).sp = s.sp := by
  unfold State.takeTiming; simp only []; split <;> simp
@[simp] theorem State.roleChanged_sp (s : State) (old : Nat) : (State.roleChanged s old).sp = s.sp := by simp [State.roleChanged]
@[simp] theorem State.rtsFail_sp (s : State) : (State.rtsFail s).sp = s.sp := by simp [State.rtsFail]
@[simp] theorem execRtsFail_sp (s : State) : spKept s (execRtsFail s) := by simp [execRtsFail]
@[simp] theorem State.joinAsk_sp (s : State) : (State.joinAsk s).sp = s.sp := by simp [State.joinAsk]
@[simp] theorem execJoin_sp (s : State) : spKept s (execJoin s) := by simp [execJoin]
@[simp] theorem State.pullAsk_sp (s : State) : (State.pullAsk s).sp = s.sp := by simp [State.pullAsk]
@[simp] theorem execMatePull_sp (s : State) : spKept s (execMatePull s) := by simp [execMatePull]
@[simp] theorem execRtsAlignDone_sp (s : State) : spKept s (execRtsAlignDone s) := by simp [execRtsAlignDone]
@[simp] theorem execRtsVerifyDone_sp (actD actS editD editS : W32) (s : State) :
    spKept s (execRtsVerifyDone actD actS editD editS s) := by
  unfold execRtsVerifyDone; simp only []; split <;> simp
@[simp] theorem State.stNext_sp (s : State) : (State.stNext s).sp = s.sp := by simp [State.stNext]
@[simp] theorem State.stFail_sp (s : State) (base : Nat) (march : List Nat) : (State.stFail s base march).sp = s.sp := by
  unfold State.stFail; simp only []; split <;> simp
@[simp] theorem State.stRestore_sp (s : State) (base : Nat) (bad : List Nat) : (State.stRestore s base bad).sp = s.sp := by
  unfold State.stRestore; simp only []; split <;> simp
@[simp] theorem execStLineTest_sp (r : LineResult) (s : State) : spKept s (execStLineTest r s) := by simp [execStLineTest]
@[simp] theorem execStStall_sp (s : State) : spKept s (execStStall s) := by simp [execStStall]
@[simp] theorem State.collide_sp (s : State) (word : Nat) : (State.collide s word).sp = s.sp := by simp [State.collide]
@[simp] theorem State.drawersStop_sp (s : State) (n : Nat) : (State.drawersStop s n).sp = s.sp := by simp [State.drawersStop]
@[simp] theorem State.laneStop_sp (s : State) (n : Nat) : (State.laneStop s n).sp = s.sp := by simp [State.laneStop]
@[simp] theorem State.laneStart_sp (s : State) (n : Nat) : (State.laneStart s n).sp = s.sp := by simp [State.laneStart]
@[simp] theorem State.laneRate_sp (s : State) (n : Nat) : (State.laneRate s n).sp = s.sp := by simp [State.laneRate]
@[simp] theorem State.laneLoop_sp (s : State) (n : Nat) : (State.laneLoop s n).sp = s.sp := by simp [State.laneLoop]
@[simp] theorem State.laneSet_sp (s : State) (n : Nat) : (State.laneSet s n).sp = s.sp := by simp [State.laneSet]
@[simp] theorem State.laneDefects_sp (s : State) (n : Nat) : (State.laneDefects s n).sp = s.sp := by simp [State.laneDefects]
@[simp] theorem State.laneLatch_sp (s : State) (n : Nat) : (State.laneLatch s n).sp = s.sp := by simp [State.laneLatch]
@[simp] theorem State.drawersTurn_sp (s : State) : (State.drawersTurn s).sp = s.sp := by simp [State.drawersTurn]
@[simp] theorem State.lanesHinge_sp (s : State) : (State.lanesHinge s).sp = s.sp := by simp [State.lanesHinge]
@[simp] theorem State.pagesLost_sp (s : State) (d : Nat) : (State.pagesLost s d).sp = s.sp := by simp [State.pagesLost]
@[simp] theorem State.mgmtLost_sp (s : State) : (State.mgmtLost s).sp = s.sp := by simp [State.mgmtLost]
@[simp] theorem State.storesLost_sp (s : State) (d : Nat) : (State.storesLost s d).sp = s.sp := by simp [State.storesLost]
@[simp] theorem State.quadStops_sp (s : State) (d : Nat) : (State.quadStops s d).sp = s.sp := by simp [State.quadStops]
@[simp] theorem State.domainOff_sp (s : State) (d : Nat) : (State.domainOff s d).sp = s.sp := by simp [State.domainOff]
@[simp] theorem State.domainsOff_sp (s : State) (ds : List Nat) : (State.domainsOff s ds).sp = s.sp := by simp [State.domainsOff]
@[simp] theorem State.setMode_sp (s : State) (m : Nat) : (State.setMode s m).sp = s.sp := by simp [State.setMode]
@[simp] theorem State.wakeEnd_sp (s : State) : (State.wakeEnd s).sp = s.sp := by
  unfold State.wakeEnd; simp only []; split <;> simp
@[simp] theorem State.wakeMgmt_sp (s : State) : (State.wakeMgmt s).sp = s.sp := by
  unfold State.wakeMgmt; (repeat' split) <;> simp
@[simp] theorem State.pagesStart_sp (s : State) (d : Nat) : (State.pagesStart s d).sp = s.sp := by simp [State.pagesStart]
@[simp] theorem State.domainStart_sp (s : State) (d : Nat) : (State.domainStart s d).sp = s.sp := by simp [State.domainStart]
@[simp] theorem State.domainUp_sp (s : State) (d : Nat) : (State.domainUp s d).sp = s.sp := by simp [State.domainUp]
@[simp] theorem execDomainUsable_sp (d : Fin 56) (s : State) : spKept s (execDomainUsable d s) := by simp [execDomainUsable]
@[simp] theorem State.domEnWrite_sp (s : State) (hi : Bool) (v : Nat) :
    (State.domEnWrite s hi v).sp = s.sp := by simp [State.domEnWrite]
@[simp] theorem execDomEnWrite_sp (hi : Bool) (v : W32) (s : State) : spKept s (execDomEnWrite hi v s) := by simp [execDomEnWrite]
@[simp] theorem State.powerHinge_sp (s : State) : (State.powerHinge s).sp = s.sp := by simp [State.powerHinge]
@[simp] theorem execVinFail_sp (s : State) : spKept s (execVinFail s) := by simp [execVinFail]
@[simp] theorem State.shedAct_sp (s : State) (st : Nat) : (State.shedAct s st).sp = s.sp := by simp [State.shedAct]
@[simp] theorem execShed_sp (st : Fin 8) (run : Nat) (s : State) : spKept s (execShed st run s) := by simp [execShed]
@[simp] theorem execVinBack_sp (held : Nat) (s : State) : spKept s (execVinBack held s) := by simp [execVinBack]
@[simp] theorem execHoldup_sp (b : Bool) (s : State) : spKept s (execHoldup b s) := by simp [execHoldup]
@[simp] theorem execXtal_sp (b : Bool) (s : State) : spKept s (execXtal b s) := by simp [execXtal]
@[simp] theorem State.wake_sp (s : State) (cause : Nat) : (State.wake s cause).sp = s.sp := by simp [State.wake]
@[simp] theorem execWakeNEdge_sp (s : State) : spKept s (execWakeNEdge s) := by simp [execWakeNEdge]
@[simp] theorem execWakeTimerExpire_sp (run : Nat) (s : State) :
    spKept s (execWakeTimerExpire run s) := by simp [execWakeTimerExpire]
@[simp] theorem State.modeRequest_sp (s : State) (m : Nat) : (State.modeRequest s m).sp = s.sp := by simp [State.modeRequest]
@[simp] theorem execModeRequest_sp (req : BitVec 3) (s : State) : spKept s (execModeRequest req s) := by simp [execModeRequest]
@[simp] theorem State.mapsLost_sp (s : State) : (State.mapsLost s).sp = s.sp := by simp [State.mapsLost]
@[simp] theorem State.enterMode_sp (s : State) (m : Nat) : (State.enterMode s m).sp = s.sp := by simp [State.enterMode]
@[simp] theorem State.modeHinge_sp (s : State) : (State.modeHinge s).sp = s.sp := by
  unfold State.modeHinge; dsimp only; (repeat' split) <;> simp
@[simp] theorem State.abortOne_sp (s : State) (t : Nat) (f : Inflight) :
    (State.abortOne s t f).sp = s.sp := by simp [State.abortOne]
@[simp] theorem State.resetMasters_sp (s : State) (ms : List Nat) :
    (State.resetMasters s ms).sp = s.sp := by simp [State.resetMasters]
@[simp] theorem State.strap_sp (s : State) (st : Straps) : (State.strap s st).sp = s.sp := by simp [State.strap]
@[simp] theorem State.wipePending_sp (s : State) : (State.wipePending s).sp = s.sp := by
  unfold State.wipePending; (repeat' split) <;> simp
@[simp] theorem State.heldInReset_sp (s : State) : (State.heldInReset s).sp = s.sp := by simp [State.heldInReset]
@[simp] theorem execResetNAssert_sp (s : State) : spKept s (execResetNAssert s) := by simp [execResetNAssert]
@[simp] theorem execResetNRelease_sp (st : Straps) (s : State) : spKept s (execResetNRelease st s) := by simp [execResetNRelease]
@[simp] theorem State.softMapc_sp (s : State) : (State.softMapc s).sp = s.sp := by simp [State.softMapc]
@[simp] theorem State.softLane_sp (s : State) (n : Nat) : (State.softLane s n).sp = s.sp := by simp [State.softLane]
@[simp] theorem State.softDrop_sp (s : State) : (State.softDrop s).sp = s.sp := by simp [State.softDrop]
@[simp] theorem State.holdPins_sp (s : State) : (State.holdPins s).sp = s.sp := rfl
@[simp] theorem State.softBegin_sp (s : State) : (State.softBegin s).sp = s.sp := by simp [State.softBegin]
@[simp] theorem State.softReset_sp (s : State) (key : Nat) : (State.softReset s key).sp = s.sp := by simp [State.softReset]
@[simp] theorem execSoftReset_sp (key : W32) (s : State) : spKept s (execSoftReset key s) := by simp [execSoftReset]
@[simp] theorem State.softEnd_sp (s : State) : (State.softEnd s).sp = s.sp := by simp [State.softEnd]
@[simp] theorem execSoftResetEnd_sp (s : State) : spKept s (execSoftResetEnd s) := by simp [execSoftResetEnd]
@[simp] theorem State.writeField_sp (s : State) (x : FSpec) (v i j : Nat) : (State.writeField s x v i j).sp = s.sp := by
  unfold State.writeField; simp only []; split <;> simp
@[simp] theorem State.writeFields_sp (s : State) (fs : List FSpec) (v i j : Nat) :
    (State.writeFields s fs v i j).sp = s.sp := by simp [State.writeFields]
@[simp] theorem State.writeFlags_sp (s : State) (fs : List FSpec) (v i j : Nat) :
    (State.writeFlags s fs v i j).sp = s.sp := by simp [State.writeFlags]
@[simp] theorem State.writeHdr_sp (s : State) (p : Page) (i : Nat) (r : RSpec) (j v : Nat) :
    (State.writeHdr s p i r j v).sp = s.sp := by
  unfold State.writeHdr; (repeat' split) <;> simp
@[simp] theorem State.writeGlobal_sp (s : State) (r : RSpec) (v : Nat) : (State.writeGlobal s r v).sp = s.sp := by
  unfold State.writeGlobal; (repeat' split) <;> simp
@[simp] theorem State.writePower_sp (s : State) (r : RSpec) (j v : Nat) : (State.writePower s r j v).sp = s.sp := by
  unfold State.writePower; (repeat' split) <;> simp
@[simp] theorem State.wmWrite_sp (s : State) (w v : Nat) : (State.wmWrite s w v).sp = s.sp := by simp [State.wmWrite]
@[simp] theorem State.writeEvent_sp (s : State) (r : RSpec) (j v : Nat) : (State.writeEvent s r j v).sp = s.sp := by
  unfold State.writeEvent; (repeat' split) <;> simp
@[simp] theorem State.writePerf_sp (s : State) (r : RSpec) (j v : Nat) : (State.writePerf s r j v).sp = s.sp := by
  unfold State.writePerf; simp only []; split <;> simp
@[simp] theorem State.threshWrite_sp (s : State) (r : RSpec) (v : Nat) :
    (State.threshWrite s r v).sp = s.sp := by simp [State.threshWrite]
@[simp] theorem State.writeTiming_sp (s : State) (r : RSpec) (j v : Nat) : (State.writeTiming s r j v).sp = s.sp := by
  unfold State.writeTiming; (repeat' split) <;> simp
@[simp] theorem State.actWrite_sp (s : State) (r : RSpec) (j v : Nat) :
    (State.actWrite s r j v).sp = s.sp := by simp [State.actWrite]
@[simp] theorem State.stepWrite_sp (s : State) (r : RSpec) (v : Nat) :
    (State.stepWrite s r v).sp = s.sp := by simp [State.stepWrite]
@[simp] theorem State.writeNtime_sp (s : State) (r : RSpec) (j v : Nat) : (State.writeNtime s r j v).sp = s.sp := by
  unfold State.writeNtime; (repeat' split) <;> simp
@[simp] theorem State.mateCtlWrite_sp (s : State) (r : RSpec) (v : Nat) :
    (State.mateCtlWrite s r v).sp = s.sp := by simp [State.mateCtlWrite]
@[simp] theorem State.writeMate_sp (s : State) (r : RSpec) (j v : Nat) : (State.writeMate s r j v).sp = s.sp := by
  unfold State.writeMate; (repeat' split) <;> simp
@[simp] theorem State.kick_sp (s : State) : (State.kick s).sp = s.sp := by simp [State.kick]
@[simp] theorem State.writeSeq_sp (s : State) (m : Nat) (r : RSpec) (v : Nat) : (State.writeSeq s m r v).sp = s.sp := by
  unfold State.writeSeq; simp only []; split <;> simp
@[simp] theorem State.writeSecure_sp (s : State) (r : RSpec) (j v : Nat) : (State.writeSecure s r j v).sp = s.sp := by
  unfold State.writeSecure; simp only []; split <;> simp
@[simp] theorem State.writeDramc_sp (s : State) (c : Nat) (r : RSpec) (j v : Nat) : (State.writeDramc s c r j v).sp = s.sp := by
  unfold State.writeDramc; (repeat' split) <;> simp
@[simp] theorem State.writeBench_sp (s : State) (r : RSpec) (v : Nat) : (State.writeBench s r v).sp = s.sp := by
  unfold State.writeBench; (repeat' split) <;> simp
@[simp] theorem State.laneCtlWrite_sp (s : State) (n v : Nat) :
    (State.laneCtlWrite s n v).sp = s.sp := by simp [State.laneCtlWrite]
@[simp] theorem State.eyeWrite_sp (s : State) (n : Nat) (r : RSpec) (v : Nat) :
    (State.eyeWrite s n r v).sp = s.sp := by simp [State.eyeWrite]
@[simp] theorem State.writeLanep_sp (s : State) (n : Nat) (r : RSpec) (j v : Nat) : (State.writeLanep s n r j v).sp = s.sp := by
  unfold State.writeLanep; (repeat' split) <;> simp
@[simp] theorem State.ptrWrite_sp (s : State) (n v : Nat) : (State.ptrWrite s n v).sp = s.sp := by simp [State.ptrWrite]
@[simp] theorem State.writeLanef_sp (s : State) (n : Nat) (r : RSpec) (j v : Nat) :
    (State.writeLanef s n r j v).sp = s.sp := by
  unfold State.writeLanef; simp only []; split <;> simp
@[simp] theorem State.listWrite_sp (s : State) (v : Nat) : (State.listWrite s v).sp = s.sp := by simp [State.listWrite]
@[simp] theorem State.writeMapc_sp (s : State) (r : RSpec) (j v : Nat) : (State.writeMapc s r j v).sp = s.sp := by
  unfold State.writeMapc; (repeat' split) <;> simp
@[simp] theorem State.writeProt_sp (s : State) (r : RSpec) (j v : Nat) : (State.writeProt s r j v).sp = s.sp := by
  unfold State.writeProt; simp only []; split <;> simp
@[simp] theorem State.writePort_sp (s : State) (p : Page) (r : RSpec) (j v : Nat) : (State.writePort s p r j v).sp = s.sp := by
  unfold State.writePort; simp only []; split <;> simp
@[simp] theorem State.writeEth_sp (s : State) (n : Nat) (r : RSpec) (j v : Nat) : (State.writeEth s n r j v).sp = s.sp := by
  unfold State.writeEth; (repeat' split) <;> simp
@[simp] theorem State.regSet_sp (s : State) (m : Nat) (p : Page) (i : Nat) (r : RSpec) (j v : Nat) :
    (State.regSet s m p i r j v).sp = s.sp := by
  unfold State.regSet; (repeat' split) <;> simp
@[simp] theorem State.regWrite_sp (s : State) (m a v : Nat) : (State.regWrite s m a v).1.sp = s.sp := by
  unfold State.regWrite; (repeat' split) <;> simp
@[simp] theorem State.clearRead_sp (s : State) (fs : List FSpec) (i j : Nat) :
    (State.clearRead s fs i j).sp = s.sp := by simp [State.clearRead]
@[simp] theorem State.regGet_sp (s : State) (user : Bool) (p : Page) (i : Nat) (r : RSpec) (j : Nat) :
    (State.regGet s user p i r j).1.sp = s.sp := by
  unfold State.regGet; (repeat' split) <;> simp
@[simp] theorem State.regRead_sp (s : State) (user : Bool) (a : Nat) : (State.regRead s user a).1.sp = s.sp := by
  unfold State.regRead; (repeat' split) <;> simp
@[simp] theorem State.hostWriteReg_sp (s : State) (a v : Nat) :
    (State.hostWriteReg s a v).sp = s.sp := by simp [State.hostWriteReg]
@[simp] theorem State.hostReadReg_sp (s : State) (user : Bool) (a : Nat) :
    (State.hostReadReg s user a).sp = s.sp := by simp [State.hostReadReg]
@[simp] theorem execRegWrite_sp (addr v : W32) (s : State) : spKept s (execRegWrite addr v s) := by simp [execRegWrite]
@[simp] theorem execRcRead_sp (user : Bool) (addr : W32) (s : State) : spKept s (execRcRead user addr s) := by simp [execRcRead]
@[simp] theorem execWord64LowerRead_sp (addr : W32) (s : State) :
    spKept s (execWord64LowerRead addr s) := by simp [execWord64LowerRead]
@[simp] theorem execWord64LowerWrite_sp (addr v : W32) (s : State) :
    spKept s (execWord64LowerWrite addr v s) := by simp [execWord64LowerWrite]
@[simp] theorem execWord64UpperWrite_sp (addr v : W32) (s : State) :
    spKept s (execWord64UpperWrite addr v s) := by simp [execWord64UpperWrite]
@[simp] theorem State.hwBit_sp (s : State) (p : Page) (i : Nat) (r : RSpec) (j : Nat) (x : FSpec) (b : Nat) :
    (State.hwBit s p i r j x b).sp = s.sp := by simp [State.hwBit]
@[simp] theorem State.hwSet_sp (s : State) (a set : Nat) : (State.hwSet s a set).sp = s.sp := by
  unfold State.hwSet; (repeat' split) <;> simp
@[simp] theorem execW1cWrite_sp (addr v set : W32) (s : State) : spKept s (execW1cWrite addr v set s) := by simp [execW1cWrite]
@[simp] theorem execPageLock_sp (p : Page) (i : Nat) (s : State) : spKept s (execPageLock p i s) := by simp [execPageLock]
@[simp] theorem State.portDone_sp (s : State) (p : Port) (c : PortCmd) : (State.portDone s p c).sp = s.sp := by
  unfold State.portDone; (repeat' split) <;> simp
@[simp] theorem execIndirectCommandDone_sp (p : Port) (s : State) : spKept s (execIndirectCommandDone p s) := by
  unfold execIndirectCommandDone; simp only []; split <;> simp
@[simp] theorem State.portAbandon_sp (s : State) (p : Port) : (State.portAbandon s p).sp = s.sp := by
  unfold State.portAbandon; simp only []; split <;> simp
@[simp] theorem execIndirectPortTimeout_sp (p : Port) (s : State) :
    spKept s (execIndirectPortTimeout p s) := by
  unfold execIndirectPortTimeout; simp only []; split <;> simp
@[simp] theorem State.bridgeRead_sp (user : Bool) (n a : Nat) (s : State) : (State.bridgeRead user n a s).s.sp = s.sp := by
  induction n generalizing a s with
  | zero => rfl
  | succ n ih => unfold State.bridgeRead; dsimp only; split <;> simp [ih]
@[simp] theorem State.bridgeWrite_sp (m n a : Nat) (bs : List Byte) (s : State) : (State.bridgeWrite m n a bs s).s.sp = s.sp := by
  induction n generalizing a bs s with
  | zero => rfl
  | succ n ih => unfold State.bridgeWrite; dsimp only; split <;> simp [ih]
@[simp] theorem State.bridge_sp (s : State) (r : BusReq) : (State.bridge s r).s.sp = s.sp := by
  unfold State.bridge; (repeat' split) <;> simp
@[simp] theorem Resp.readZero_sp (t : Resp) (r : BusReq) : (t.readZero r).s.sp = t.s.sp := by
  unfold Resp.readZero; split <;> simp
@[simp] theorem State.noteErr_sp (s : State) (r : BusReq) (cause : Nat) :
    (State.noteErr s r cause).sp = s.sp := by simp [State.noteErr]
@[simp] theorem State.forgetTag_sp (s : State) (tag : Nat) : (State.forgetTag s tag).sp = s.sp := (rfl)
@[simp] theorem State.complete_sp (s : State) (tag status : Nat) (data : List Byte) :
    (State.complete s tag status data).sp = s.sp := by simp [State.complete]
@[simp] theorem State.answer_sp (s : State) (r : BusReq) (data : List Byte) (cause : Nat) :
    (State.answer s r data cause).sp = s.sp := by
  unfold State.answer; simp only []; split <;> simp
@[simp] theorem State.forward_sp (s : State) (side : ChainSide) (f : BitVec 96) :
    (State.forward s side f).sp = s.sp := by simp [State.forward]
@[simp] theorem State.chainRespond_sp (s : State) (side : ChainSide) (f : BitVec 96) (op data : Nat) :
    (State.chainRespond s side f op data).sp = s.sp := by simp [State.chainRespond]
@[simp] theorem State.chainEnqueue_sp (s : State) (side : ChainSide) (f : BitVec 96) :
    (State.chainEnqueue s side f).sp = s.sp := by simp [State.chainEnqueue]
@[simp] theorem State.chainCommand_sp (s : State) (side : ChainSide) (f : BitVec 96) :
    (State.chainCommand s side f).sp = s.sp := by simp [State.chainCommand]
@[simp] theorem State.chainBroadcast_sp (s : State) (side : ChainSide) (f : BitVec 96) :
    (State.chainBroadcast s side f).sp = s.sp := by simp [State.chainBroadcast]
@[simp] theorem State.acted_sp (s : State) (f : BitVec 96) : (State.acted s f).sp = s.sp := by simp [State.acted]
@[simp] theorem State.chainWakeIn_sp (s : State) (side : ChainSide) (f : BitVec 96) (own : Bool) :
    (State.chainWakeIn s side f own).sp = s.sp := by simp [State.chainWakeIn]
@[simp] theorem State.chainOwnFrame_sp (s : State) (side : ChainSide) (f : BitVec 96) :
    (State.chainOwnFrame s side f).sp = s.sp := by simp [State.chainOwnFrame]
@[simp] theorem State.chainBroadcastFrame_sp (s : State) (side : ChainSide) (f : BitVec 96) :
    (State.chainBroadcastFrame s side f).sp = s.sp := by simp [State.chainBroadcastFrame]
@[simp] theorem State.enumerate_sp (s : State) (f : BitVec 96) : (State.enumerate s f).1.sp = s.sp := by
  unfold State.enumerate; simp only []; split <;> simp
@[simp] theorem State.ringFrame_sp (s : State) (side : ChainSide) (f : BitVec 96) :
    (State.ringFrame s side f).sp = s.sp := by simp [State.ringFrame]
@[simp] theorem State.armFrame_sp (s : State) (side : ChainSide) (f : BitVec 96) :
    (State.armFrame s side f).sp = s.sp := by simp [State.armFrame]
@[simp] theorem State.chainIn_sp (s : State) (side : ChainSide) (f : BitVec 96) :
    (State.chainIn s side f).sp = s.sp := by simp [State.chainIn]
@[simp] theorem State.chainRow_sp (s : State) (op : Nat) (side : ChainSide) (f : BitVec 96) :
    (State.chainRow s op side f).sp = s.sp := by simp [State.chainRow]
@[simp] theorem execChainEnum_sp (f : BitVec 96) (s : State) : spKept s (execChainEnum f s) := by simp [execChainEnum]
@[simp] theorem execChainRd_sp (side : ChainSide) (f : BitVec 96) (s : State) :
    spKept s (execChainRd side f s) := by simp [execChainRd]
@[simp] theorem execChainWr_sp (side : ChainSide) (f : BitVec 96) (s : State) :
    spKept s (execChainWr side f s) := by simp [execChainWr]
@[simp] theorem execChainResetAddr_sp (side : ChainSide) (f : BitVec 96) (s : State) :
    spKept s (execChainResetAddr side f s) := by simp [execChainResetAddr]
@[simp] theorem execChainWake_sp (side : ChainSide) (f : BitVec 96) (s : State) :
    spKept s (execChainWake side f s) := by simp [execChainWake]
@[simp] theorem execChainForward_sp (side : ChainSide) (f : BitVec 96) (s : State) :
    spKept s (execChainForward side f s) := by simp [execChainForward]
@[simp] theorem State.chMismatch_sp (s : State) : (State.chMismatch s).sp = s.sp := by simp [State.chMismatch]
@[simp] theorem State.chainPop_sp (s : State) : (State.chainPop s).sp = s.sp := by simp [State.chainPop]
@[simp] theorem State.chainAnswer_sp (s : State) (side : ChainSide) (f : BitVec 96) (t : Resp) :
    (State.chainAnswer s side f t).sp = s.sp := by simp [State.chainAnswer]
@[simp] theorem execNotifyRepeat_sp (s : State) : spKept s (execNotifyRepeat s) := by
  unfold execNotifyRepeat; dsimp only; (repeat' split) <;> simp
@[simp] theorem execArmModeReturn_sp (s : State) : spKept s (execArmModeReturn s) := by simp [execArmModeReturn]
@[simp] theorem execTokInChange_sp (on : Bool) (s : State) : spKept s (execTokInChange on s) := by simp [execTokInChange]
@[simp] theorem execChainClockLoss_sp (g : ClockGap) (s : State) :
    spKept s (execChainClockLoss g s) := by simp [execChainClockLoss]
@[simp] theorem State.lockBy_sp (s : State) (r : BusReq) : (State.lockBy s r).sp = s.sp := by simp [State.lockBy]
@[simp] theorem State.lockFree_sp (s : State) (r : BusReq) : (State.lockFree s r).sp = s.sp := by simp [State.lockFree]
@[simp] theorem State.endFlight_sp (s : State) (t : Nat) (x : Inflight) (cause : Nat) :
    (State.endFlight s t x cause).sp = s.sp := by simp [State.endFlight]
@[simp] theorem execMatrixResponse_sp (t : Target) (s : State) : spKept s (execMatrixResponse t s) := by
  unfold execMatrixResponse; simp only []; split <;> simp
@[simp] theorem State.matrixTimeout_sp (s : State) (t : Nat) : (State.matrixTimeout s t).sp = s.sp := by
  unfold State.matrixTimeout; simp only []; split <;> simp
@[simp] theorem execMatrixTimeout_sp (t : Target) (s : State) : spKept s (execMatrixTimeout t s) := by simp [execMatrixTimeout]
@[simp] theorem State.bridgeTmo_sp (s : State) : (State.bridgeTmo s).sp = s.sp := by
  unfold State.bridgeTmo; (repeat' split) <;> simp
@[simp] theorem execBridgeTmo_sp (s : State) : spKept s (execBridgeTmo s) := by simp [execBridgeTmo]
@[simp] theorem State.lockBrk_sp (s : State) (t : Nat) : (State.lockBrk s t).sp = s.sp := by
  unfold State.lockBrk; simp only []; split <;> simp
@[simp] theorem execLockBrk_sp (t : Target) (s : State) : spKept s (execLockBrk t s) := by simp [execLockBrk]
@[simp] theorem execWdKick_sp (key : W32) (s : State) : spKept s (execWdKick key s) := by simp [execWdKick]
@[simp] theorem State.wdFire_sp (s : State) : (State.wdFire s).sp = s.sp := by simp [State.wdFire]
@[simp] theorem execWdFired_sp (run : Nat) (s : State) : spKept s (execWdFired run s) := by simp [execWdFired]
@[simp] theorem execRemapWrite_sp (m : Master) (remap : Bool) (s : State) :
    spKept s (execRemapWrite m remap s) := by simp [execRemapWrite]
@[simp] theorem State.msixFlush_sp (s : State) : (State.msixFlush s).sp = s.sp := by simp [State.msixFlush]
@[simp] theorem State.tableWrite_sp (s : State) (o : Nat) (bs : List Byte) :
    (State.tableWrite s o bs).sp = s.sp := by simp [State.tableWrite]
@[simp] theorem State.pcieCfg_sp (s : State) (c : PcieCfg) : (State.pcieCfg s c).sp = s.sp := by
  unfold State.pcieCfg; simp only []; split <;> simp
@[simp] theorem execPcieConfigRequest_sp (c : PcieCfg) (s : State) :
    spKept s (execPcieConfigRequest c s) := by simp [execPcieConfigRequest]
@[simp] theorem State.endpointReset_sp (s : State) (released : Bool) :
    (State.endpointReset s released).sp = s.sp := by simp [State.endpointReset]
@[simp] theorem execPerstN_sp (e : PerstEvent) (s : State) : spKept s (execPerstN e s) := by
  unfold execPerstN; simp only []; split <;> simp
@[simp] theorem State.userError_sp (s : State) (r : PcieReq) (a : Nat) :
    (State.userError s r a).sp = s.sp := by simp [State.userError]
@[simp] theorem execPcieCompletionTimeout_sp (tag : Nat) (s : State) :
    spKept s (execPcieCompletionTimeout tag s) := by simp [execPcieCompletionTimeout]
@[simp] theorem State.chainFlush_sp (limit n : Nat) (s : State) : (State.chainFlush limit n s).sp = s.sp := by
  induction n generalizing s with
  | zero => rfl
  | succ n ih => unfold State.chainFlush; dsimp only; split <;> simp [ih]
@[simp] theorem State.notifyTurn_sp (s : State) : (State.notifyTurn s).sp = s.sp := by simp [State.notifyTurn]
@[simp] theorem State.levelCount_sp (s : State) (p : Page) (i k n : Nat) : (s.levelCount p i k n).sp = s.sp := by
  unfold State.levelCount; dsimp only; (repeat' split) <;> simp
@[simp] theorem State.pageLevels_sp (s : State) (n : Nat) (x : Page × Nat) : (State.pageLevels s n x).sp = s.sp := by
  unfold State.pageLevels; (repeat' split) <;> simp
@[simp] theorem State.holdCount_sp (s : State) (n : Nat) : (State.holdCount s n).sp = s.sp := by simp [State.holdCount]
@[simp] theorem State.elapse_sp (s : State) (n : Nat) : (State.elapse s n).sp = s.sp := by simp [State.elapse]
@[simp] theorem State.cycleTurn_sp (s : State) : (State.cycleTurn s).sp = s.sp := by simp [State.cycleTurn]
@[simp] theorem State.tick_sp (s : State) : (State.tick s).sp = s.sp := by simp [State.tick]
@[simp] theorem State.laneCounts_sp (s : State) (u : LaneCols) : (State.laneCounts s u).sp = s.sp := by simp [State.laneCounts]
@[simp] theorem State.eqFrames_sp (s : State) (i : HingeIn) (u : Inputs) (groom : Bool) :
    (State.eqFrames s i u groom).1.sp = s.sp := by
  unfold State.eqFrames
  rw [foldl_fst_sp]
  intro t e; dsimp only; split
  · rfl
  · exact State.eqFrame_sp ..
@[simp] theorem State.legTurn_sp (s : State) (e : SlotEnv) (k : Nat) (at' : State) (x : Nat × Nat) :
    (State.legTurn s e k at' x).sp = s.sp := by simp [State.legTurn]
@[simp] theorem State.legsTurn_sp (s : State) (e : SlotEnv) (k : Nat) :
    (State.legsTurn s e k).sp = s.sp := by simp [State.legsTurn]
@[simp] theorem State.groomReport_sp (s : State) (old new : Nat) (moved : Bool) :
    (State.groomReport s old new moved).sp = s.sp := by simp [State.groomReport]
@[simp] theorem State.groomTake_sp (s : State) (k g : Nat) (b : List Byte) (par : Byte) :
    (State.groomTake s k g b par).sp = s.sp := by simp [State.groomTake]
@[simp] theorem State.groomDefault_sp (s : State) (k q : Nat) :
    (State.groomDefault s k q).sp = s.sp := by simp [State.groomDefault]
@[simp] theorem State.pwTake_sp (s : State) (k : Nat) (out : Nat → Col) :
    (State.pwTake s k out).sp = s.sp := by simp [State.pwTake]
@[simp] theorem State.benchTake_sp (s : State) (out : Nat → Col) : (State.benchTake s out).sp = s.sp := by simp [State.benchTake]
@[simp] theorem State.detReport_sp (s : State) (w : WordRef) : (State.detReport s w).sp = s.sp := by
  unfold State.detReport; dsimp only; (repeat' split) <;> simp
@[simp] theorem State.parReport_sp (s : State) (e : Fin 75 × Fin 36 × BitVec 13) :
    (State.parReport s e).sp = s.sp := by simp [State.parReport]
@[simp] theorem State.slotParReport_sp (s : State) (a : Nat) :
    (State.slotParReport s a).sp = s.sp := by simp [State.slotParReport]
@[simp] theorem State.detections_sp (s : State) (i : HingeIn) : (State.detections s i).sp = s.sp := by simp [State.detections]
@[simp] theorem State.sendOutputs_sp (s : State) (i : HingeIn) (u : Inputs) :
    (State.sendOutputs s i u).sp = s.sp := (rfl)
@[simp] theorem State.groomsTake_sp (s : State) (k : Nat) (keys : List Nat) (sent : SMap Col) (out : Nat → Col) :
    (State.groomsTake s k keys sent out).sp = s.sp := by simp [State.groomsTake]
@[simp] theorem State.fabricFrame_sp (s : State) (i : HingeIn) : (State.fabricFrame s i).sp = s.sp := by
  simp [State.fabricFrame]
@[simp] theorem State.nextFrameBegins_sp (s : State) : (State.nextFrameBegins s).sp = s.sp := by simp [State.nextFrameBegins]
@[simp] theorem State.moves_sp (old s : State) : (State.moves old s).sp = s.sp := by simp [State.moves]
@[simp] theorem State.eqTurns_sp (old s : State) : (State.eqTurns old s).1.sp = s.sp := by simp [State.eqTurns]
@[simp] theorem State.benchTurns_sp (s : State) : (State.benchTurns s).sp = s.sp := by simp [State.benchTurns]
@[simp] theorem State.decisions_sp (old s : State) : (State.decisions old s).sp = s.sp := by simp [State.decisions]
@[simp] theorem State.sourceChanges_sp (old s : State) (more : List Nat) :
    (State.sourceChanges old s more).sp = s.sp := by simp [State.sourceChanges]
@[simp] theorem State.mirrorSelTurn_sp (old s : State) (e : Nat × Sel) : (State.mirrorSelTurn old s e).sp = s.sp := by
  unfold State.mirrorSelTurn; split <;> simp
@[simp] theorem State.mirrorGrpTurn_sp (old s : State) (e : Nat × Sel) : (State.mirrorGrpTurn old s e).sp = s.sp := by
  unfold State.mirrorGrpTurn; split <;> simp
@[simp] theorem State.mirrorSels_sp (old s : State) : (State.mirrorSels old s).sp = s.sp :=
  foldl_sp (State.mirrorSelTurn old) _ _ (State.mirrorSelTurn_sp old)
@[simp] theorem State.mirrorGrps_sp (old s : State) : (State.mirrorGrps old s).sp = s.sp :=
  foldl_sp (State.mirrorGrpTurn old) _ _ (State.mirrorGrpTurn_sp old)
@[simp] theorem State.mirrorTurn_sp (old s : State) : (State.mirrorTurn old s).sp = s.sp :=
  (State.mirrorFrame_sp _).trans ((State.mirrorGrps_sp _ _).trans (State.mirrorSels_sp _ _))
@[simp] theorem State.trafficHinge_sp (old s : State) : (State.trafficHinge old s).sp = s.sp := by simp [State.trafficHinge]
@[simp] theorem State.clockTurn_sp (s : State) : (State.clockTurn s).sp = s.sp := by simp [State.clockTurn]
@[simp] theorem State.fillChecks_sp (s : State) (i : HingeIn) : (State.fillChecks s i).sp = s.sp := by simp [State.fillChecks]
@[simp] theorem State.changes_sp (old s : State) : (State.changes old s).sp = s.sp := by simp [State.changes]
@[simp] theorem State.hingeTurn_sp (s : State) (i : HingeIn) : (State.hingeTurn s i).sp = s.sp := by simp [State.hingeTurn]
@[simp] theorem execHinge_sp (i : HingeIn) (s : State) : spKept s (execHinge i s) := by simp [execHinge]
@[simp] theorem execMapInitDone_sp (s : State) : spKept s (execMapInitDone s) := by simp [execMapInitDone]

end Sys2Proof.Machine
end

