-- ==== Sys2Proof/Laws/Memory.lean ====
section
/-! SUPPORT. The canonical form of the scratchpad: reset has it, and every operation and meaning that writes the scratchpad keeps it;
all the others leave the scratchpad alone (Laws/Scratch.lean). A burst written to DRAM keeps the bursts in rising order. -/
namespace Sys2Proof.Machine

theorem reset_memWf : Memory.wf State.reset.sp = true := by decide

@[simp] theorem memWf_nil : Memory.wf [] = true := by decide

/-! Reading the scratchpad after a write. -/

/-- A write leaves every byte outside the written ones alone. -/
theorem State.spByte_spWrite_out (s : State) (o o' : Nat) (bs : List Byte) (h : o' < o ∨ o + bs.length ≤ o') :
    (s.spWrite o bs).spByte o' = s.spByte o' := by
  induction bs generalizing s o with
  | nil => rfl
  | cons b r ih =>
    simp only [List.length_cons] at h
    exact (ih (s.spPut o b) (o + 1) (by omega)).trans (State.spByte_spPut_ne s b (by omega))

/-- A read of a written byte gives what was written. -/
theorem State.spByte_spWrite_in (s : State) (o i : Nat) (bs : List Byte) (h : i < bs.length) :
    (s.spWrite o bs).spByte (o + i) = bs[i] := by
  induction bs generalizing s o i with
  | nil => simp at h
  | cons b r ih =>
    cases i with
    | zero => exact (State.spByte_spWrite_out (s.spPut o b) (o + 1) o r (by omega)).trans (State.spByte_spPut_same _ _ _)
    | succ i =>
      have e := ih (s.spPut o b) (o + 1) i (by simpa using h)
      have q : o + 1 + i = o + (i + 1) := by omega
      rw [q] at e
      exact e

/-- Reading the bytes just written gives them. -/
theorem State.spBytes_spWrite_same (s : State) (o : Nat) (bs : List Byte) : (s.spWrite o bs).spBytes o bs.length = bs := by
  refine List.ext_getElem (by simp [State.spBytes]) (fun i h1 h2 => ?_)
  simp only [State.spBytes, List.getElem_map, List.getElem_range]
  exact State.spByte_spWrite_in s o i bs h2

/-- Reading bytes none of which was written gives what was there. -/
theorem State.spBytes_spWrite_out (s : State) (o o' n : Nat) (bs : List Byte) (h : o' + n ≤ o ∨ o + bs.length ≤ o') :
    (s.spWrite o bs).spBytes o' n = s.spBytes o' n := by
  unfold State.spBytes
  refine List.map_congr_left (fun i hi => ?_)
  have := List.mem_range.1 hi
  exact State.spByte_spWrite_out s o (o' + i) bs (by omega)

theorem leBytes_length (n v : Nat) : (leBytes n v).length = n := by
  induction n generalizing v with
  | zero => rfl
  | succ n ih => simp [leBytes, ih]

/-- The little-endian bytes of a number give it back, cut to their count. -/
theorem ofLe_leBytes (n v : Nat) : ofLe (leBytes n v) = v % 256 ^ n := by
  induction n generalizing v with
  | zero => simp [leBytes, ofLe, Nat.mod_one]
  | succ n ih =>
    have e : ofLe (leBytes (n + 1) v) = v % 256 + 256 * (v / 256 % 256 ^ n) := by
      show (BitVec.ofNat 8 v).toNat + 256 * ofLe (leBytes n (v / 256)) = _
      rw [ih]; simp
    rw [e, Nat.pow_succ, Nat.mul_comm (256 ^ n) 256, Nat.mod_mul]

/-- Every next state of `o` has a scratchpad in canonical form. -/
def wfKept (o : Host.Outcome State Fault Refusal) : Prop := ∀ t, o = .next t → Memory.wf t.sp = true
@[simp] theorem wfKept_next (t : State) : wfKept (.next t) ↔ Memory.wf t.sp = true := ⟨fun h => h t rfl, fun h u e => by cases e; exact h⟩
@[simp] theorem wfKept_ok (t : State) : wfKept (ok t) ↔ Memory.wf t.sp = true := wfKept_next t
@[simp] theorem wfKept_fault (f : Fault) : wfKept (.fault f) := fun _ h => nomatch h

/-- A meaning that keeps the scratchpad keeps its form. -/
theorem wfKept_of_spKept {s : State} {o : Host.Outcome State Fault Refusal} (h : spKept s o) (hs : Memory.wf s.sp = true) : wfKept o :=
  fun t e => by rw [h t e]; exact hs

variable {s : State}

@[simp] theorem State.spPut_memWf (o : Nat) (b : Byte) (h : Memory.wf s.sp = true) : Memory.wf (s.spPut o b).sp = true :=
  mapWf_mapSet o b h

@[simp] theorem State.spWrite_memWf (o : Nat) (bs : List Byte) (h : Memory.wf s.sp = true) : Memory.wf (s.spWrite o bs).sp = true := by
  induction bs generalizing s o with
  | nil => exact h
  | cons b r ih => exact ih (o + 1) (State.spPut_memWf o b h)

/-- Folding an operation that keeps the form keeps it. -/
theorem foldl_memWf {α : Type} (g : State → α → State) (l : List α) (h : Memory.wf s.sp = true)
    (hg : ∀ s x, Memory.wf s.sp = true → Memory.wf (g s x).sp = true) : Memory.wf (l.foldl g s).sp = true := by
  induction l generalizing s with
  | nil => exact h
  | cons x l ih => exact ih (hg s x h)

@[simp] theorem State.portBAccess_memWf (b : PortBAccess) (a : Option (Nat × List Byte)) (h : Memory.wf s.sp = true) :
    Memory.wf (s.portBAccess b a).sp = true := by
  unfold State.portBAccess
  dsimp only
  (repeat' split) <;> first
    | simp [h]
    | exact foldl_memWf _ _ h (fun _ _ hs => State.spPut_memWf _ _ hs)

@[simp] theorem State.checkBip_memWf (n : Nat) (lo : List Byte) (bip : Nat) (h : Memory.wf s.sp = true) :
    Memory.wf (s.checkBip n lo bip).sp = true := by
  unfold State.checkBip
  dsimp only
  (repeat' split) <;> simp [h]

@[simp] theorem State.spWriteBus_memWf (a : Nat) (bs : List Byte) (h : Memory.wf s.sp = true) :
    Memory.wf (s.spWriteBus a bs).s.sp = true := State.spWrite_memWf _ _ h

@[simp] theorem State.m5Write_memWf (a : Nat) (bs : List Byte) (h : Memory.wf s.sp = true) : Memory.wf (s.m5Write a bs).s.sp = true := by
  unfold State.m5Write; split <;> simp [h]

@[simp] theorem State.drain_memWf (h : Memory.wf s.sp = true) : Memory.wf s.drain.sp = true := by
  unfold State.drain
  split
  · exact h
  · dsimp only; (repeat' split) <;> simp [h]

@[simp] theorem State.atTarget_memWf (r : BusReq) (h : Memory.wf s.sp = true) : Memory.wf (s.atTarget r).s.sp = true := by
  unfold State.atTarget; (repeat' split) <;> simp [h]

@[simp] theorem State.transact_memWf (r : BusReq) (h : Memory.wf s.sp = true) : Memory.wf (s.transact r).s.sp = true := by
  simp only [State.transact, State.noteErr_sp, Resp.readZero_sp]
  exact State.atTarget_memWf r (by split <;> simp [h])

@[simp] theorem State.grantReq_memWf (r : BusReq) (h : Memory.wf s.sp = true) : Memory.wf (s.grantReq r).sp = true := by
  unfold State.grantReq
  dsimp only
  split
  · simp [h]
  · rw [Resp.readZero_sp]; exact State.atTarget_memWf r (by simp [h])

@[simp] theorem State.chainExecute_memWf (h : Memory.wf s.sp = true) : Memory.wf s.chainExecute.sp = true := by
  unfold State.chainExecute
  split
  · exact h
  · dsimp only
    split
    · exact h
    · rw [State.count_sp, State.chainAnswer_sp]; exact State.transact_memWf _ (by simp [h])

@[simp] theorem State.serveReq_memWf (r : BusReq) (h : Memory.wf s.sp = true) : Memory.wf (s.serveReq r).sp = true := by
  unfold State.serveReq; (repeat' split) <;> simp [h]

@[simp] theorem State.grant_memWf (t : Nat) (r : BusReq) (h : Memory.wf s.sp = true) : Memory.wf (s.grant t r).sp = true := by
  unfold State.grant; exact State.serveReq_memWf r h

@[simp] theorem State.arbitrate_memWf (t : Nat) (b : Option PortBAccess) (h : Memory.wf s.sp = true) :
    Memory.wf (s.arbitrate t b).sp = true := by
  unfold State.arbitrate; dsimp only; (repeat' split) <;> simp [h]

@[simp] theorem State.enter_memWf (r : BusReq) (h : Memory.wf s.sp = true) : Memory.wf (s.enter r).sp = true := by
  unfold State.enter; dsimp only; split
  · rw [State.answer_sp]; exact State.transact_memWf r h
  · exact h

@[simp] theorem State.enterAll_memWf (rs : List MasterReq) (h : Memory.wf s.sp = true) : Memory.wf (s.enterAll rs).sp = true :=
  foldl_memWf _ _ h (fun s x hs => by dsimp only; split <;> simp [hs])

@[simp] theorem State.serveNext_memWf (m : Nat) (r : BusReq) (h : Memory.wf s.sp = true) : Memory.wf (s.serveNext m r).sp = true := by
  unfold State.serveNext; (repeat' split) <;> simp [h]

@[simp] theorem State.windowTake_memWf (r : BusReq) (h : Memory.wf s.sp = true) : Memory.wf (s.windowTake r).sp = true := by
  unfold State.windowTake; dsimp only; rw [State.noteErr_sp]; exact State.atTarget_memWf r (by simpa using h)

@[simp] theorem State.windowAsk_memWf (r : BusReq) (h : Memory.wf s.sp = true) : Memory.wf (s.windowAsk r).sp = true := by
  unfold State.windowAsk; dsimp only; (repeat' split) <;> simp [h]

@[simp] theorem State.enterPieces_memWf (r : PcieReq) (user : Bool) (runs : List (Nat × Nat)) (pad : Nat) (h : Memory.wf s.sp = true) :
    Memory.wf (s.enterPieces r user runs pad).sp = true :=
  foldl_memWf _ _ h (fun _ _ hs => State.enter_memWf _ hs)

@[simp] theorem State.pcieServe_memWf (r : PcieReq) (h : Memory.wf s.sp = true) : Memory.wf (s.pcieServe r).sp = true := by
  unfold State.pcieServe; dsimp only; (repeat' split) <;> simp [h]

@[simp] theorem State.rxDeliver_memWf (n : Nat) (f : LineFrame) (skew : Nat) (h : Memory.wf s.sp = true) :
    Memory.wf (s.rxDeliver n f skew).sp = true := by
  simp [State.rxDeliver, h]

theorem State.rxFrame_memWf (n : Nat) (bs : List Bool) (skew : Nat) (h : Memory.wf s.sp = true) :
    ∀ t, State.rxFrame s n bs skew = some t → Memory.wf t.sp = true := by
  intro t e; unfold State.rxFrame at e
  split at e
  · cases e
  · rw [← Option.some.inj e]; simp [h]

theorem State.laneRxHorale_memWf (n : Nat) (f : RxFrame) (h : Memory.wf s.sp = true) :
    ∀ t, State.laneRxHorale s n f = some t → Memory.wf t.sp = true := by
  intro t e; unfold State.laneRxHorale at e
  split at e
  · rw [← Option.some.inj e]; exact h
  · split at e
    · split at e
      · rw [← Option.some.inj e]; exact h
      · exact State.rxFrame_memWf _ _ _ h _ e
    · exact State.rxFrame_memWf _ _ _ h _ e

/-! The meanings that write the scratchpad. -/

theorem execLaneFrameRx_memWf (l : LaneId) (f : RxFrame) (h : Memory.wf s.sp = true) : wfKept (execLaneFrameRx l f s) := by
  unfold execLaneFrameRx; rw [wfKept_ok]
  cases e : s.start.laneRx l f with
  | none => exact h
  | some t =>
    cases l with
    | horale n => exact State.laneRxHorale_memWf (s := s.start) _ _ (by simpa using h) t e
    | dexgor l => have k := State.laneRxDexgor_sp _ _ _ t e; simpa [k] using h

theorem execEyePointDone_memWf (n : Fin 64) (c : Nat) (h : Memory.wf s.sp = true) : wfKept (execEyePointDone n c s) := by
  unfold execEyePointDone; dsimp only; (repeat' split) <;> simp [h]

theorem execSpInitDone_memWf (h : Memory.wf s.sp = true) : wfKept (execSpInitDone s) := by
  unfold execSpInitDone; dsimp only; split <;> simp [h]

theorem execTraceDrainWrite_memWf (h : Memory.wf s.sp = true) : wfKept (execTraceDrainWrite s) := by
  unfold execTraceDrainWrite; dsimp only; (repeat' split) <;> simp [h]

theorem execChainCmdExecute_memWf (h : Memory.wf s.sp = true) : wfKept (execChainCmdExecute s) := by
  unfold execChainCmdExecute; dsimp only; split <;> simp [h]

theorem execWindowWrite_memWf (m : Master) (addr : W32) (data : List Byte) (h : Memory.wf s.sp = true) :
    wfKept (execWindowWrite m addr data s) := by
  unfold execWindowWrite; dsimp only; (repeat' split) <;> simp [h]

theorem execMatrixGrant_memWf (t : Target) (rs : List MasterReq) (b : Option PortBAccess) (h : Memory.wf s.sp = true) :
    wfKept (execMatrixGrant t rs b s) := by
  unfold execMatrixGrant; dsimp only; split <;> simp [h]

theorem execPcieRequest_memWf (r : PcieReq) (h : Memory.wf s.sp = true) : wfKept (execPcieRequest r s) := by
  unfold execPcieRequest; dsimp only; (repeat' split) <;> simp [h]

theorem execHoldupExhausted_memWf (h : Memory.wf s.sp = true) : wfKept (execHoldupExhausted s) := by
  unfold execHoldupExhausted; dsimp only; split <;> simp [h, State.bare]

theorem execPowerOn_memWf (st : Straps) : wfKept (execPowerOn st s) := by
  simp [execPowerOn, State.bare]

/-! DRAM: a burst write keeps the bursts in rising order. -/

@[simp] theorem ite_dram (c : Prop) [Decidable c] (a b : State) : (if c then a else b).dram = if c then a.dram else b.dram := by split <;> rfl
@[simp] theorem foldl_dram {α : Type} (g : State → α → State) (l : List α) (s : State) (h : ∀ s x, (g s x).dram = s.dram) :
    (l.foldl g s).dram = s.dram := by
  induction l generalizing s with
  | nil => rfl
  | cons x l ih => simp [List.foldl, ih, h]
@[simp] theorem State.wrB_dram (s : State) (f : Fld) (b : Bool) (i : Nat) (j : Nat) : (State.wrB s f b i j).dram = s.dram := by simp [State.wrB]
@[simp] theorem State.bump_dram (s : State) (f : Fld) (n : Nat) (i : Nat) (j : Nat) : (State.bump s f n i j).dram = s.dram := by simp [State.bump]
@[simp] theorem State.bumpWrap_dram (s : State) (f : Fld) (n : Nat) (i : Nat) (j : Nat) : (State.bumpWrap s f n i j).dram = s.dram := by simp [State.bumpWrap]
@[simp] theorem State.cntAdd_dram (s : State) (p : Page) (i k n : Nat) : (State.cntAdd s p i k n).dram = s.dram := by simp [State.cntAdd]
@[simp] theorem State.count1_dram (s : State) (p : Page) (i code n k : Nat) : (State.count1 s p i code n k).dram = s.dram := by
  unfold State.count1; (repeat' split) <;> simp
@[simp] theorem State.count_dram (s : State) (p : Page) (i code : Nat) (n : Nat) : (State.count s p i code n).dram = s.dram := by simp [State.count]
theorem wmCheck_dram (r : Page → Nat → Nat → State → State) (h : ∀ p i b s, (r p i b s).dram = s.dram) (w level : Nat) (s : State) :
    (wmCheck r w level s).dram = s.dram := by
  unfold wmCheck; dsimp only; split <;> simp [h]
theorem queueItem_dram (r : Page → Nat → Nat → State → State) (h : ∀ p i b s, (r p i b s).dram = s.dram) (x : W64) (s : State) :
    (queueItem r x s).dram = s.dram := by
  unfold queueItem; split <;> simp [h, wmCheck_dram r h]
@[simp] theorem State.msixFire_dram (s : State) (v : Nat) : (State.msixFire s v).dram = s.dram := by simp [State.msixFire]
@[simp] theorem State.chainSend_dram (s : State) (side : ChainSide) (f : BitVec 96) (fwd : Bool) (at' : Nat) : (State.chainSend s side f fwd at').dram = s.dram := by simp [State.chainSend]
@[simp] theorem State.chainPump_dram (s : State) (upTo : Nat) : (State.chainPump s upTo).dram = s.dram := by
  unfold State.chainPump; (repeat' split) <;> simp
@[simp] theorem State.chainOwn_dram (s : State) (side : ChainSide) (f : BitVec 96) : (State.chainOwn s side f).dram = s.dram := by simp [State.chainOwn]
@[simp] theorem State.notify_dram (s : State) : (State.notify s).dram = s.dram := by simp [State.notify]
theorem becomePending_dram (r : Page → Nat → Nat → State → State) (h : ∀ p i b s, (r p i b s).dram = s.dram) (p : Page) (i b : Nat)
    (w : Bool) (s : State) : (becomePending r p i b w s).dram = s.dram := by
  unfold becomePending; simp [queueItem_dram r h]
@[simp] theorem raiseN_dram (n : Nat) (p : Page) (i b : Nat) (s : State) : (raiseN n p i b s).dram = s.dram := by
  induction n generalizing p i b s with
  | zero => rfl
  | succ n ih => unfold raiseN; simp only [ite_dram]; (repeat' split) <;> simp [becomePending_dram _ ih]
@[simp] theorem wmCheck_raiseN_dram (n w l : Nat) (s : State) : (wmCheck (raiseN n) w l s).dram = s.dram :=
  wmCheck_dram _ (fun p i b s => raiseN_dram n p i b s) w l s
@[simp] theorem queueItem_raiseN_dram (n : Nat) (x : W64) (s : State) : (queueItem (raiseN n) x s).dram = s.dram :=
  queueItem_dram _ (fun p i b s => raiseN_dram n p i b s) x s
@[simp] theorem becomePending_raiseN_dram (n : Nat) (p : Page) (i b : Nat) (w : Bool) (s : State) :
    (becomePending (raiseN n) p i b w s).dram = s.dram := becomePending_dram _ (fun p i b s => raiseN_dram n p i b s) p i b w s
@[simp] theorem State.raise_dram (s : State) (p : Page) (i b : Nat) : (State.raise s p i b).dram = s.dram := by simp [State.raise]
@[simp] theorem State.burstDet_dram (s : State) (burst cause region : Nat) : (State.burstDet s burst cause region).dram = s.dram := by simp [State.burstDet]

/-- A burst that is read leaves what DRAM holds. -/
@[simp] theorem State.burstGet_dram (s : State) (region wtag burst : Nat) : (State.burstGet s region wtag burst).1.dram = s.dram := by
  unfold State.burstGet; dsimp only; split <;> simp

/-- A burst that is put keeps the bursts of DRAM in rising order. -/
theorem State.burstPut_rises (region wtag burst : Nat) (data : List Byte) (h : keysRise none s.dram = true) :
    keysRise none (s.burstPut region wtag burst data).dram = true := by
  unfold State.burstPut; simpa using keysRise_mput h

/-- A burst write keeps them so. -/
theorem State.burstWrite_rises (burst o : Nat) (bs : List Byte) (h : keysRise none s.dram = true) :
    keysRise none (s.burstWrite burst o bs).1.dram = true := by
  unfold State.burstWrite
  split
  · exact State.burstPut_rises _ _ _ _ h
  · have e := State.burstGet_dram s rgHost 0 burst
    split
    · rename_i e'; rw [e'] at e; exact State.burstPut_rises _ _ _ _ (e.symm ▸ h)
    · rename_i e'; rw [e'] at e; exact e.symm ▸ h

/-- So does a write of any length. -/
theorem State.deviceWrite_rises (n d : Nat) (bs : List Byte) (h : keysRise none s.dram = true) :
    keysRise none (State.deviceWrite n d bs s).1.dram = true := by
  induction n generalizing d bs s with
  | zero => exact h
  | succ n ih =>
    unfold State.deviceWrite; dsimp only
    split
    · exact h
    · split
      · exact ih _ _ (State.burstWrite_rises _ _ _ h)
      · exact State.burstWrite_rises _ _ _ h

end Sys2Proof.Machine
end

