-- ==== Sys2Proof/Laws/Queue.lean ====
section
/-! SUPPORT. What each operation and each meaning keeps of the queue of waiting commands: no operation and no meaning changes it. -/
namespace Sys2Proof.Machine

/-- Every next state of `o` has the `pending` of `s`. -/
def pendingKept (s : State) (o : Host.Outcome State Fault Refusal) : Prop := ∀ t, o = .next t → t.pending = s.pending
@[simp] theorem pendingKept_next (s t : State) :
    pendingKept s (.next t) ↔ t.pending = s.pending := ⟨fun h => h t rfl, fun h u e => by cases e; exact h⟩
@[simp] theorem pendingKept_ok (s t : State) : pendingKept s (ok t) ↔ t.pending = s.pending := pendingKept_next s t
@[simp] theorem pendingKept_fault (s : State) (f : Fault) : pendingKept s (.fault f) := fun _ h => nomatch h
@[simp] theorem pendingKept_ite (s : State) (c : Prop) [Decidable c] (a b : Host.Outcome State Fault Refusal) (ha : pendingKept s a)
    (hb : pendingKept s b) : pendingKept s (if c then a else b) := by split <;> assumption
@[simp] theorem ite_pending (c : Prop) [Decidable c] (a b : State) :
    (if c then a else b).pending = if c then a.pending else b.pending := by split <;> rfl
@[simp] theorem foldl_pending {α : Type} (g : State → α → State) (l : List α) (s : State) (h : ∀ s x, (g s x).pending = s.pending) :
    (l.foldl g s).pending = s.pending := by
  induction l generalizing s with
  | nil => rfl
  | cons x l ih => simp [List.foldl, ih, h]
@[simp] theorem foldl_fst_pending {α β : Type} (g : State × β → α → State × β) (l : List α) (s : State × β)
    (h : ∀ s x, (g s x).1.pending = s.1.pending) : (l.foldl g s).1.pending = s.1.pending := by
  induction l generalizing s with
  | nil => rfl
  | cons x l ih => simp [List.foldl, ih, h]
@[simp] theorem State.wrB_pending (s : State) (f : Fld) (b : Bool) (i : Nat) (j : Nat) :
    (State.wrB s f b i j).pending = s.pending := by simp [State.wrB]
@[simp] theorem State.bump_pending (s : State) (f : Fld) (n : Nat) (i : Nat) (j : Nat) :
    (State.bump s f n i j).pending = s.pending := by simp [State.bump]
@[simp] theorem State.bumpWrap_pending (s : State) (f : Fld) (n : Nat) (i : Nat) (j : Nat) :
    (State.bumpWrap s f n i j).pending = s.pending := by simp [State.bumpWrap]
@[simp] theorem State.cntAdd_pending (s : State) (p : Page) (i k n : Nat) :
    (State.cntAdd s p i k n).pending = s.pending := by simp [State.cntAdd]
@[simp] theorem State.count1_pending (s : State) (p : Page) (i code n k : Nat) :
    (State.count1 s p i code n k).pending = s.pending := by
  unfold State.count1; (repeat' split) <;> simp
@[simp] theorem State.count_pending (s : State) (p : Page) (i code : Nat) (n : Nat) :
    (State.count s p i code n).pending = s.pending := by simp [State.count]
theorem wmCheck_pending (r : Page → Nat → Nat → State → State) (h : ∀ p i b s, (r p i b s).pending = s.pending) (w level : Nat) (s : State) :
    (wmCheck r w level s).pending = s.pending := by
  unfold wmCheck; dsimp only; split <;> simp [h]
theorem queueItem_pending (r : Page → Nat → Nat → State → State) (h : ∀ p i b s, (r p i b s).pending = s.pending) (x : W64) (s : State) :
    (queueItem r x s).pending = s.pending := by
  unfold queueItem; split <;> simp [h, wmCheck_pending r h]
@[simp] theorem State.msixFire_pending (s : State) (v : Nat) :
    (State.msixFire s v).pending = s.pending := by simp [State.msixFire]
@[simp] theorem State.chainSend_pending (s : State) (side : ChainSide) (f : BitVec 96) (fwd : Bool) (at' : Nat) :
    (State.chainSend s side f fwd at').pending = s.pending := by simp [State.chainSend]
@[simp] theorem State.chainPump_pending (s : State) (upTo : Nat) : (State.chainPump s upTo).pending = s.pending := by
  unfold State.chainPump; (repeat' split) <;> simp
@[simp] theorem State.chainOwn_pending (s : State) (side : ChainSide) (f : BitVec 96) :
    (State.chainOwn s side f).pending = s.pending := by simp [State.chainOwn]
@[simp] theorem State.notify_pending (s : State) : (State.notify s).pending = s.pending := by simp [State.notify]
theorem becomePending_pending (r : Page → Nat → Nat → State → State) (h : ∀ p i b s, (r p i b s).pending = s.pending) (p : Page) (i b : Nat)
    (w : Bool) (s : State) : (becomePending r p i b w s).pending = s.pending := by
  unfold becomePending; simp [queueItem_pending r h]
@[simp] theorem raiseN_pending (n : Nat) (p : Page) (i b : Nat) (s : State) : (raiseN n p i b s).pending = s.pending := by
  induction n generalizing p i b s with
  | zero => rfl
  | succ n ih => unfold raiseN; simp only [ite_pending]; (repeat' split) <;> simp [becomePending_pending _ ih]
@[simp] theorem wmCheck_raiseN_pending (n w l : Nat) (s : State) : (wmCheck (raiseN n) w l s).pending = s.pending :=
  wmCheck_pending _ (fun p i b s => raiseN_pending n p i b s) w l s
@[simp] theorem queueItem_raiseN_pending (n : Nat) (x : W64) (s : State) : (queueItem (raiseN n) x s).pending = s.pending :=
  queueItem_pending _ (fun p i b s => raiseN_pending n p i b s) x s
@[simp] theorem becomePending_raiseN_pending (n : Nat) (p : Page) (i b : Nat) (w : Bool) (s : State) :
    (becomePending (raiseN n) p i b w s).pending = s.pending := becomePending_pending _ (fun p i b s => raiseN_pending n p i b s) p i b w s
@[simp] theorem State.raise_pending (s : State) (p : Page) (i b : Nat) :
    (State.raise s p i b).pending = s.pending := by simp [State.raise]
@[simp] theorem State.setRaw_pending (s : State) (p : Page) (i b : Nat) (v : Bool) :
    (State.setRaw s p i b v).pending = s.pending := by simp [State.setRaw]
@[simp] theorem State.watermark_pending (s : State) (w level : Nat) :
    (State.watermark s w level).pending = s.pending := by simp [State.watermark]
@[simp] theorem State.lostItem_pending (s : State) (slotFabric edit : Bool) (offset : Nat) :
    (State.lostItem s slotFabric edit offset).pending = s.pending := by simp [State.lostItem]
@[simp] theorem State.recordRecovery_pending (s : State) (cause wh : Nat) :
    (State.recordRecovery s cause wh).pending = s.pending := by simp [State.recordRecovery]
@[simp] theorem State.recover_pending (s : State) (cause wh : Nat) :
    (State.recover s cause wh).pending = s.pending := by simp [State.recover]
@[simp] theorem ok_pending (s : State) : pendingKept s (ok s) := by simp [ok]
@[simp] theorem State.onPage_pending (s : State) (p : Page) (i : Nat) (f : State → State) (h : ∀ s, (f s).pending = s.pending) :
    pendingKept s (s.onPage p i f) := by
  unfold State.onPage; split <;> simp [h]
@[simp] theorem State.readyChk_pending (s : State) : (State.readyChk s).pending = s.pending := by simp [State.readyChk]
@[simp] theorem State.spPut_pending (s : State) (o : Nat) (b : Byte) :
    (State.spPut s o b).pending = s.pending := by simp [State.spPut]
@[simp] theorem State.spWrite_pending (s : State) (o : Nat) (bs : List Byte) : (s.spWrite o bs).pending = s.pending := by
  induction bs generalizing s o with
  | nil => rfl
  | cons b r ih => simp [State.spWrite, ih]
@[simp] theorem State.spDet_pending (s : State) (o : Nat) (b : Bool) :
    (State.spDet s o b).pending = s.pending := by simp [State.spDet]
@[simp] theorem State.portLatch_pending (s : State) (p : Port) (c : PortCmd) :
    (State.portLatch s p c).pending = s.pending := by simp [State.portLatch]
@[simp] theorem State.portFree_pending (s : State) (p : Port) :
    (State.portFree s p).pending = s.pending := by simp [State.portFree]
@[simp] theorem State.updLane_pending (s : State) (n : Nat) (f : Lane → Lane) :
    (State.updLane s n f).pending = s.pending := by simp [State.updLane]
@[simp] theorem State.setDef_pending (s : State) (n b : Nat) (v : Bool) :
    (State.setDef s n b v).pending = s.pending := by simp [State.setDef]
@[simp] theorem State.integStart_pending (s : State) (n b : Nat) (v : Bool) :
    (State.integStart s n b v).pending = s.pending := by simp [State.integStart]
@[simp] theorem State.setRawDef_pending (s : State) (n b : Nat) (v : Bool) :
    (State.setRawDef s n b v).pending = s.pending := by simp [State.setRawDef]
@[simp] theorem State.showCands_pending (s : State) (n : Nat) :
    (State.showCands s n).pending = s.pending := by simp [State.showCands]
@[simp] theorem State.cellDropped_pending (s : State) (n : Nat) :
    (State.cellDropped s n).pending = s.pending := by simp [State.cellDropped]
@[simp] theorem State.enterSearch_pending (s : State) (n : Nat) :
    (State.enterSearch s n).pending = s.pending := by simp [State.enterSearch]
@[simp] theorem State.enterSync_pending (s : State) (n : Nat) :
    (State.enterSync s n).pending = s.pending := by simp [State.enterSync]
@[simp] theorem State.eyeStop_pending (s : State) (n : Nat) : (State.eyeStop s n).pending = s.pending := by simp [State.eyeStop]
@[simp] theorem State.judgeLol_pending (s : State) (n : Nat) :
    (State.judgeLol s n).pending = s.pending := by simp [State.judgeLol]
@[simp] theorem State.judgeLos_pending (s : State) (n : Nat) :
    (State.judgeLos s n).pending = s.pending := by unfold State.judgeLos; split <;> simp
@[simp] theorem State.setDxRx_pending (s : State) (l : Nat) (r : DxRx) :
    (State.setDxRx s l r).pending = s.pending := by simp [State.setDxRx]
@[simp] theorem State.dxJudge_pending (s : State) (l : Nat) : (State.dxJudge s l).pending = s.pending := by
  simp [State.dxJudge]
@[simp] theorem State.sigDet_pending (s : State) (l : LaneId) (present : Bool) :
    (State.sigDet s l present).pending = s.pending := by
  unfold State.sigDet; simp only []; split <;> simp
@[simp] theorem execSigDetChange_pending (l : LaneId) (present : Bool) (s : State) :
    pendingKept s (execSigDetChange l present s) := by simp [execSigDetChange]
@[simp] theorem State.cdrLock_pending (s : State) (l : LaneId) (locked : Bool) :
    (State.cdrLock s l locked).pending = s.pending := by
  unfold State.cdrLock; simp only []; split <;> simp
@[simp] theorem execCdrLockChange_pending (l : LaneId) (locked : Bool) (s : State) :
    pendingKept s (execCdrLockChange l locked s) := by simp [execCdrLockChange]
@[simp] theorem State.refRangeLane_pending (s : State) (n : Nat) :
    (State.refRangeLane s n).pending = s.pending := by simp [State.refRangeLane]
@[simp] theorem State.pllLane_pending (locked : Bool) (s : State) (n : Nat) :
    (State.pllLane locked s n).pending = s.pending := by simp [State.pllLane]
@[simp] theorem State.refOffsetLane_pending (off : Int) (s : State) (n : Nat) :
    (State.refOffsetLane off s n).pending = s.pending := by simp [State.refOffsetLane]
@[simp] theorem State.refRangeClearLane_pending (s : State) (n : Nat) :
    (State.refRangeClearLane s n).pending = s.pending := by simp [State.refRangeClearLane]
@[simp] theorem execQuadPllLockChange_pending (q : RefClk) (locked : Bool) (s : State) :
    pendingKept s (execQuadPllLockChange q locked s) := by
  unfold execQuadPllLockChange; simp only []; split <;> simp
@[simp] theorem execRefOffsetUpdate_pending (q : RefClk) (off : Int) (s : State) :
    pendingKept s (execRefOffsetUpdate q off s) := by
  unfold execRefOffsetUpdate; simp only []; split <;> simp
@[simp] theorem execRefRangeClear_pending (q : RefClk) (s : State) : pendingKept s (execRefRangeClear q s) := by
  unfold execRefRangeClear; simp only []; split <;> simp
@[simp] theorem State.integJudge_pending (s : State) (n b : Nat) :
    (State.integJudge s n b).pending = s.pending := by simp [State.integJudge]
@[simp] theorem execLaneDefectDeclare_pending (n : Fin 64) (d : LaneDefect) (run : Nat) (s : State) :
    pendingKept s (execLaneDefectDeclare n d run s) := by simp [execLaneDefectDeclare]
@[simp] theorem execLaneDefectClear_pending (n : Fin 64) (d : LaneDefect) (run : Nat) (s : State) :
    pendingKept s (execLaneDefectClear n d run s) := by simp [execLaneDefectClear]
@[simp] theorem execFillerBerCheck_pending (n : Fin 64) (s : State) :
    pendingKept s (execFillerBerCheck n s) := by simp [execFillerBerCheck]
@[simp] theorem State.integJudgeDrw_pending (s : State) (n c b : Nat) :
    (State.integJudgeDrw s n c b).pending = s.pending := by simp [State.integJudgeDrw]
@[simp] theorem execDrawerDefectDeclare_pending (n : Fin 64) (c : BitVec 13) (d : DrawerDefect) (run : Nat) (s : State) :
    pendingKept s (execDrawerDefectDeclare n c d run s) := by simp [execDrawerDefectDeclare]
@[simp] theorem execDrawerDefectClear_pending (n : Fin 64) (c : BitVec 13) (d : DrawerDefect) (run : Nat) (s : State) :
    pendingKept s (execDrawerDefectClear n c d run s) := by simp [execDrawerDefectClear]
@[simp] theorem State.integWrite_pending (s : State) (n : Nat) (r : IntegReg) (set clr : Nat) :
    (State.integWrite s n r set clr).pending = s.pending := by
  unfold State.integWrite; simp only []; split <;> simp
@[simp] theorem execIntegWrite_pending (n : Fin 64) (r : IntegReg) (set clear : Byte) (s : State) :
    pendingKept s (execIntegWrite n r set clear s) := by simp [execIntegWrite]
@[simp] theorem State.eqShowRec_pending (s : State) (n : Nat) (r : List Byte) :
    (State.eqShowRec s n r).pending = s.pending := by simp [State.eqShowRec]
@[simp] theorem State.eqShow_pending (s : State) (n : Nat) : (State.eqShow s n).pending = s.pending := by simp [State.eqShow]
@[simp] theorem State.eqFail_pending (s : State) (n : Nat) (f : Fld) :
    (State.eqFail s n f).pending = s.pending := by simp [State.eqFail]
@[simp] theorem State.eqTake_pending (s : State) (n : Nat) (rs : List (List Byte)) :
    (State.eqTake s n rs).pending = s.pending := by simp [State.eqTake]
@[simp] theorem State.eqLoad_pending (s : State) (n : Nat) : (State.eqLoad s n).pending = s.pending := by simp [State.eqLoad]
@[simp] theorem execEqLoad_pending (n : Fin 64) (s : State) : pendingKept s (execEqLoad n s) := by simp [execEqLoad]
@[simp] theorem execEqLoadDone_pending (n : Fin 64) (s : State) : pendingKept s (execEqLoadDone n s) := by
  unfold execEqLoadDone; dsimp only; (repeat' split) <;> simp
@[simp] theorem State.laneEnSet_pending (s : State) (n : Nat) :
    (State.laneEnSet s n).pending = s.pending := by simp [State.laneEnSet]
@[simp] theorem execLaneEnSet_pending (n : Fin 64) (s : State) : pendingKept s (execLaneEnSet n s) := by simp [execLaneEnSet]
@[simp] theorem State.laneEnClear_pending (s : State) (n : Nat) :
    (State.laneEnClear s n).pending = s.pending := by simp [State.laneEnClear]
@[simp] theorem execLaneEnClear_pending (n : Fin 64) (s : State) :
    pendingKept s (execLaneEnClear n s) := by simp [execLaneEnClear]
@[simp] theorem State.rateWrite_pending (s : State) (n rate : Nat) :
    (State.rateWrite s n rate).pending = s.pending := by simp [State.rateWrite]
@[simp] theorem execRateWrite_pending (n : Fin 64) (rate : BitVec 2) (s : State) :
    pendingKept s (execRateWrite n rate s) := by simp [execRateWrite]
@[simp] theorem State.loopWrite_pending (s : State) (n loop : Nat) :
    (State.loopWrite s n loop).pending = s.pending := by simp [State.loopWrite]
@[simp] theorem execLoopWrite_pending (n : Fin 64) (loop : BitVec 2) (s : State) :
    pendingKept s (execLoopWrite n loop s) := by simp [execLoopWrite]
@[simp] theorem State.eyeStart_pending (s : State) (n : Nat) :
    (State.eyeStart s n).pending = s.pending := by simp [State.eyeStart]
@[simp] theorem execEyeStart_pending (n : Fin 64) (s : State) : pendingKept s (execEyeStart n s) := by simp [execEyeStart]
@[simp] theorem execEyeAbort_pending (n : Fin 64) (s : State) : pendingKept s (execEyeAbort n s) := by simp [execEyeAbort]
@[simp] theorem execEyePointDone_pending (n : Fin 64) (count : Nat) (s : State) :
    pendingKept s (execEyePointDone n count s) := by simp [execEyePointDone]
@[simp] theorem State.candOpen_pending (s : State) (l : LaneId) (p : Nat) :
    (State.candOpen s l p).pending = s.pending := by
  unfold State.candOpen; simp only []; split <;> simp
@[simp] theorem execFasCandidateOpen_pending (l : LaneId) (p : Nat) (s : State) :
    pendingKept s (execFasCandidateOpen l p s) := by simp [execFasCandidateOpen]
@[simp] theorem State.candConfirm_pending (s : State) (l : LaneId) (p q stuff diff : Nat) :
    (State.candConfirm s l p q stuff diff).pending = s.pending := by
  unfold State.candConfirm; dsimp only; (repeat' split) <;> simp
@[simp] theorem execFasCandidateConfirm_pending (l : LaneId) (p q stuff diff : Nat) (s : State) :
    pendingKept s (execFasCandidateConfirm l p q stuff diff s) := by simp [execFasCandidateConfirm]
@[simp] theorem State.candDrop_pending (s : State) (l : LaneId) (p : Nat) :
    (State.candDrop s l p).pending = s.pending := by
  unfold State.candDrop; simp only []; split <;> simp
@[simp] theorem execFasCandidateDrop_pending (l : LaneId) (p : Nat) (s : State) :
    pendingKept s (execFasCandidateDrop l p s) := by simp [execFasCandidateDrop]
@[simp] theorem State.acceptOh_pending (s : State) (n : Nat) (lo : List Byte) : (State.acceptOh s n lo).pending = s.pending := by
  unfold State.acceptOh; dsimp only; (repeat' split) <;> simp
@[simp] theorem State.acceptLabel_pending (s : State) (n : Nat) (lo : List Byte) :
    (State.acceptLabel s n lo).pending = s.pending := by
  unfold State.acceptLabel; simp only []; split <;> simp
@[simp] theorem State.acceptAlarms_pending (s : State) (n : Nat) (lo : List Byte) :
    (State.acceptAlarms s n lo).pending = s.pending := by simp [State.acceptAlarms]
@[simp] theorem State.wrTrace_pending (s : State) (f : Fld) (n : Nat) (m : List Byte) :
    (State.wrTrace s f n m).pending = s.pending := by simp [State.wrTrace]
@[simp] theorem State.acceptTrace_pending (s : State) (n : Nat) (b : Byte) : (State.acceptTrace s n b).pending = s.pending := by
  unfold State.acceptTrace; simp only []; split <;> simp
@[simp] theorem State.checkBip_pending (s : State) (n : Nat) (lo : List Byte) (bip : Nat) :
    (State.checkBip s n lo bip).pending = s.pending := by
  unfold State.checkBip; simp only []; split <;> simp
@[simp] theorem State.frameLength_pending (s : State) (n : Nat) (lo : List Byte) (removed fill : Nat) :
    (State.frameLength s n lo removed fill).pending = s.pending := by simp [State.frameLength]
@[simp] theorem State.deliver_pending (s : State) (n : Nat) (skew : Nat) (payload : List Byte) :
    (State.deliver s n skew payload).pending = s.pending := by simp [State.deliver]
@[simp] theorem State.loopTake_pending (s : State) (n : Nat) (payload : List Byte) :
    (State.loopTake s n payload).pending = s.pending := by simp [State.loopTake]
@[simp] theorem State.rxDeliver_pending (s : State) (n : Nat) (f : LineFrame) (skew : Nat) :
    (State.rxDeliver s n f skew).pending = s.pending := by simp [State.rxDeliver]
@[simp] theorem State.rxFas_pending (s : State) (n : Nat) (errored : Bool) :
    (State.rxFas s n errored).pending = s.pending := by simp [State.rxFas]
theorem State.rxFrame_pending (s : State) (n : Nat) (bs : List Bool) (skew : Nat) :
    ∀ t, State.rxFrame s n bs skew = some t → t.pending = s.pending := by
  intro t h; unfold State.rxFrame at h
  split at h
  · cases h
  · rw [← Option.some.inj h]; simp
theorem State.laneRxHorale_pending (s : State) (n : Nat) (f : RxFrame) :
    ∀ t, State.laneRxHorale s n f = some t → t.pending = s.pending := by
  intro t h; unfold State.laneRxHorale at h
  split at h
  · rw [← Option.some.inj h]
  · split at h
    · split at h
      · rw [← Option.some.inj h]
      · exact State.rxFrame_pending _ _ _ _ _ h
    · exact State.rxFrame_pending _ _ _ _ _ h
@[simp] theorem State.takeCell_pending (s : State) (n : Nat) : (State.takeCell s n).1.pending = s.pending := by
  unfold State.takeCell; dsimp only; (repeat' split) <;> simp
@[simp] theorem State.loopSent_pending (s : State) (n : Nat) :
    (State.loopSent s n).pending = s.pending := by simp [State.loopSent]
@[simp] theorem State.txClose_pending (s : State) (n : Nat) (bits : Nat) : (State.txClose s n bits).pending = s.pending := by
  unfold State.txClose; simp only []; split <;> simp
@[simp] theorem State.txStart_pending (s : State) (n : Nat) : (State.txStart s n).pending = s.pending := by simp [State.txStart]
@[simp] theorem State.frameTickHorale_pending (s : State) (n : Nat) (bits : Nat) :
    (State.frameTickHorale s n bits).pending = s.pending := by
  unfold State.frameTickHorale; (repeat' split) <;> simp
@[simp] theorem execRxFramerTimeout_pending (n : Fin 64) (s : State) :
    pendingKept s (execRxFramerTimeout n s) := by simp [execRxFramerTimeout]
@[simp] theorem execTxFramerTimeout_pending (n : Fin 64) (s : State) :
    pendingKept s (execTxFramerTimeout n s) := by simp [execTxFramerTimeout]
@[simp] theorem State.drwCmd_pending (s : State) (n op : Nat) :
    (State.drwCmd s n op).pending = s.pending := by simp [State.drwCmd]
@[simp] theorem execDrwRead_pending (n : Fin 64) (s : State) : pendingKept s (execDrwRead n s) := by simp [execDrwRead]
@[simp] theorem execDrwReadClear_pending (n : Fin 64) (s : State) :
    pendingKept s (execDrwReadClear n s) := by simp [execDrwReadClear]
@[simp] theorem execDrwWrite_pending (n : Fin 64) (s : State) : pendingKept s (execDrwWrite n s) := by simp [execDrwWrite]
@[simp] theorem State.wrDrwCfg_pending (s : State) (n w : Nat) :
    (State.wrDrwCfg s n w).pending = s.pending := by simp [State.wrDrwCfg]
@[simp] theorem State.drwCapture_pending (s : State) (n : Nat) (d : Drawer) :
    (State.drwCapture s n d).pending = s.pending := by simp [State.drwCapture]
@[simp] theorem State.drwDone_pending (s : State) (n : Nat) (c : PortCmd) :
    (State.drwDone s n c).pending = s.pending := by simp [State.drwDone]
@[simp] theorem State.busErr_pending (s : State) (m t addr cause : Nat) :
    (State.busErr s m t addr cause).pending = s.pending := by simp [State.busErr]
@[simp] theorem State.dramJudge_pending (s : State) : (State.dramJudge s).pending = s.pending := (rfl)
@[simp] theorem State.dramBringUp_pending (s : State) (c : Nat) :
    (State.dramBringUp s c).pending = s.pending := by simp [State.dramBringUp]
@[simp] theorem State.dramCfgWrite_pending (s : State) (c v : Nat) :
    (State.dramCfgWrite s c v).pending = s.pending := by simp [State.dramCfgWrite]
@[simp] theorem execDramCfgWrite_pending (c : Fin 2) (v : W32) (s : State) :
    pendingKept s (execDramCfgWrite c v s) := by simp [execDramCfgWrite]
@[simp] theorem State.dramLost_pending (s : State) (c : Nat) :
    (State.dramLost s c).pending = s.pending := by simp [State.dramLost]
@[simp] theorem execDramTrainDone_pending (c : Fin 2) (s : State) :
    pendingKept s (execDramTrainDone c s) := by simp [execDramTrainDone]
@[simp] theorem State.trainFail_pending (s : State) (c step : Nat) :
    (State.trainFail s c step).pending = s.pending := by simp [State.trainFail]
@[simp] theorem execDramTrainFail_pending (c : Fin 2) (step : BitVec 4) (s : State) :
    pendingKept s (execDramTrainFail c step s) := by simp [execDramTrainFail]
@[simp] theorem execDramTrainTimeout_pending (c : Fin 2) (s : State) :
    pendingKept s (execDramTrainTimeout c s) := by simp [execDramTrainTimeout]
@[simp] theorem execDqsRetune_pending (x0 : Fin 2) (s : State) : pendingKept s (execDqsRetune x0 s) := by simp [execDqsRetune]
@[simp] theorem execDramHotChange_pending (c : Fin 2) (hot : Bool) (s : State) :
    pendingKept s (execDramHotChange c hot s) := by simp [execDramHotChange]
@[simp] theorem execDramQueueTimeout_pending (c : Fin 2) (sub : Bool) (s : State) :
    pendingKept s (execDramQueueTimeout c sub s) := by simp [execDramQueueTimeout]
@[simp] theorem State.burstDet_pending (s : State) (burst cause region : Nat) :
    (State.burstDet s burst cause region).pending = s.pending := by simp [State.burstDet]
@[simp] theorem State.burstPut_pending (s : State) (region wtag burst : Nat) (data : List Byte) :
    (State.burstPut s region wtag burst data).pending = s.pending := by simp [State.burstPut]
@[simp] theorem State.burstGet_pending (s : State) (region wtag burst : Nat) :
    (State.burstGet s region wtag burst).1.pending = s.pending := by
  unfold State.burstGet; simp only []; split <;> simp
@[simp] theorem State.upset_pending (s : State) (us : List (Nat × List Byte)) :
    (State.upset s us).pending = s.pending := (rfl)
@[simp] theorem State.spUpset_pending (s : State) (os : List (BitVec 19)) : (State.spUpset s os).pending = s.pending := rfl
@[simp] theorem State.winWrite_pending (s : State) (w v : Nat) :
    (State.winWrite s w v).pending = s.pending := by simp [State.winWrite]
@[simp] theorem execWinEnable_pending (w : Fin 8) (v : W32) (s : State) :
    pendingKept s (execWinEnable w v s) := by simp [execWinEnable]
@[simp] theorem State.burstWrite_pending (s : State) (burst o : Nat) (bs : List Byte) : (State.burstWrite s burst o bs).1.pending = s.pending := by
  unfold State.burstWrite; split
  · simp
  · have h := State.burstGet_pending s rgHost 0 burst
    split <;> (rename_i e; rw [e] at h; simpa using h)
@[simp] theorem State.deviceWrite_pending (n d : Nat) (bs : List Byte) (s : State) :
    (State.deviceWrite n d bs s).1.pending = s.pending := by
  induction n generalizing d bs s with
  | zero => rfl
  | succ n ih => unfold State.deviceWrite; dsimp only; (repeat' split) <;> simp [ih]
@[simp] theorem State.deviceRead_pending (n d len : Nat) (s : State) : (State.deviceRead n d len s).1.pending = s.pending := by
  induction n generalizing d len s with
  | zero => rfl
  | succ n ih =>
    unfold State.deviceRead; dsimp only; split
    · rfl
    · have h := State.burstGet_pending s rgHost 0 (d / 64)
      split
      · rename_i e; rw [e] at h; exact h
      · rename_i e; rw [e] at h; exact (ih ..).trans h
@[simp] theorem State.winRead_pending (n a len : Nat) (s : State) : (State.winRead n a len s).s.pending = s.pending := by
  induction n generalizing a len s with
  | zero => rfl
  | succ n ih =>
    unfold State.winRead; dsimp only; split
    · rfl
    · split
      · rfl
      · rename_i d _
        have h := State.deviceRead_pending (min len (windowLeft a) / 64 + 2) d.1 (min len (windowLeft a)) s
        split
        · rename_i e; rw [e] at h; exact h
        · rename_i e; rw [e] at h
          split <;> exact (ih ..).trans h
@[simp] theorem State.winStore_pending (n a : Nat) (bs : List Byte) (s : State) : (State.winStore n a bs s).s.pending = s.pending := by
  induction n generalizing a bs s with
  | zero => rfl
  | succ n ih => unfold State.winStore; dsimp only; (repeat' split) <;> simp [ih]
@[simp] theorem State.winReadBus_pending (s : State) (a len : Nat) :
    (State.winReadBus s a len).s.pending = s.pending := by simp [State.winReadBus]
@[simp] theorem State.winWriteBus_pending (s : State) (a : Nat) (bs : List Byte) :
    (State.winWriteBus s a bs).s.pending = s.pending := by
  simp [State.winWriteBus]
@[simp] theorem State.spReadBus_pending (s : State) (a len : Nat) : (State.spReadBus s a len).s.pending = s.pending := by
  unfold State.spReadBus; simp only []; split <;> simp
@[simp] theorem State.spWriteBus_pending (s : State) (a : Nat) (bs : List Byte) :
    (State.spWriteBus s a bs).s.pending = s.pending := by simp [State.spWriteBus]
@[simp] theorem Resp.note_pending (r : Resp) (m t addr : Nat) : (r.note m t addr).s.pending = r.s.pending := by
  unfold Resp.note; split <;> simp
@[simp] theorem State.setBank_pending (s : State) (edit : Bool) (b : Bank) :
    (State.setBank s edit b).pending = s.pending := by simp [State.setBank]
@[simp] theorem State.setEdit_pending (s : State) (b : Bank) : (State.setEdit s b).pending = s.pending := by simp [State.setEdit]
@[simp] theorem State.sumStale_pending (s : State) (edit : Bool) :
    (State.sumStale s edit).pending = s.pending := by simp [State.sumStale]
@[simp] theorem State.loseWord_pending (s : State) (edit : Bool) (k : Nat) :
    (State.loseWord s edit k).pending = s.pending := by simp [State.loseWord]
@[simp] theorem State.routeWrite_pending (s : State) (edit : Bool) (x : Nat) :
    (State.routeWrite s edit x).pending = s.pending := by simp [State.routeWrite]
@[simp] theorem State.routeRead_pending (s : State) (edit : Bool) (k : Nat) : (State.routeRead s edit k).1.pending = s.pending := by
  unfold State.routeRead; dsimp only; split
  · rfl
  · have h := State.burstGet_pending s rgRoute 0 (routeBurst (s.imageOf edit) (burstKey k))
    split <;> (rename_i e; rw [e] at h; exact h)
@[simp] theorem State.rebuild_pending (s : State) (edit : Bool) (k : Nat) : (State.rebuild s edit k).pending = s.pending := by
  unfold State.rebuild; dsimp only
  have h := State.routeRead_pending s edit k
  split
  · rename_i e; rw [e] at h; simpa using h
  · rename_i e; rw [e] at h; split <;> simpa using h
@[simp] theorem execWordRecompute_pending (w : WordRef) (altered : List (Nat × List Byte)) (s : State) : pendingKept s (execWordRecompute w altered s) := by
  simp [execWordRecompute]
@[simp] theorem State.sweepSlot_pending (s : State) (edit : Bool) (t : Nat) :
    (State.sweepSlot s edit t).pending = s.pending := by simp [State.sweepSlot]
@[simp] theorem execCentreLossSweep_pending (s : State) : pendingKept s (execCentreLossSweep s) := by
  unfold execCentreLossSweep; simp only []; split <;> simp
@[simp] theorem execRouteBurstWrite_pending (f : Fabric) (edit : Bool) (burst : Nat) (s : State) :
    pendingKept s (execRouteBurstWrite f edit burst s) := by simp [execRouteBurstWrite]
@[simp] theorem State.cmReadBus_pending (s : State) (slotFabric : Bool) (a len : Nat) :
    (State.cmReadBus s slotFabric a len).s.pending = s.pending := by simp [State.cmReadBus]
@[simp] theorem State.cmPut_pending (slotFabric : Bool) (x : Nat) (v : Byte) (s : State) :
    (State.cmPut slotFabric x v s).pending = s.pending := by simp [State.cmPut]
@[simp] theorem State.cmWriteBus_pending (s : State) (slotFabric : Bool) (a : Nat) (bs : List Byte) :
    (State.cmWriteBus s slotFabric a bs).s.pending = s.pending := by simp [State.cmWriteBus]
@[simp] theorem State.listRead_pending (s : State) (a len : Nat) : (s.listRead a len).s.pending = s.pending := by
  unfold State.listRead; (repeat' split) <;> simp
@[simp] theorem State.queueMark_pending (s : State) : (State.queueMark s).pending = s.pending := by simp [State.queueMark]
@[simp] theorem State.mapRefused_pending (s : State) : (State.mapRefused s).pending = s.pending := by simp [State.mapRefused]
@[simp] theorem State.enqueue_pending (s : State) (r : Req) : (State.enqueue s r).pending = s.pending := by simp [State.enqueue]
@[simp] theorem State.listEnd_pending (s : State) : (State.listEnd s).pending = s.pending := by simp [State.listEnd]
@[simp] theorem State.listCheck_pending (s : State) : (State.listCheck s).pending = s.pending := by simp [State.listCheck]
@[simp] theorem State.dequeue_pending (s : State) (r : Req) : (State.dequeue s r).pending = s.pending := by simp [State.dequeue]
@[simp] theorem State.reject_pending (s : State) (word reason : Nat) :
    (State.reject s word reason).pending = s.pending := by simp [State.reject]
@[simp] theorem State.accept_pending (s : State) (b : Bank) (placed released : Nat) :
    (State.accept s b placed released).pending = s.pending := by simp [State.accept]
@[simp] theorem State.takeRequest_pending (s : State) (op : Nat) (f : Nat → Effect) :
    (State.takeRequest s op f).pending = s.pending := by
  unfold State.takeRequest; dsimp only; (repeat' split) <;> simp
@[simp] theorem execMapConnect_pending (s : State) : pendingKept s (execMapConnect s) := by simp [execMapConnect]
@[simp] theorem execMapUneq_pending (s : State) : pendingKept s (execMapUneq s) := by simp [execMapUneq]
@[simp] theorem execMapAis_pending (s : State) : pendingKept s (execMapAis s) := by simp [execMapAis]
@[simp] theorem execSlot_pending (s : State) : pendingKept s (execSlot s) := by simp [execSlot]
@[simp] theorem execConst_pending (s : State) : pendingKept s (execConst s) := by simp [execConst]
@[simp] theorem execParty_pending (s : State) : pendingKept s (execParty s) := by simp [execParty]
@[simp] theorem execHear_pending (s : State) : pendingKept s (execHear s) := by simp [execHear]
@[simp] theorem State.replaceRoute_pending (allowed : Nat) (s : State) (c : Nat × Nat × Nat × Nat) :
    (State.replaceRoute allowed s c).pending = s.pending := by
  unfold State.replaceRoute; simp only []; split <;> simp
@[simp] theorem State.replaceGroups_pending (s : State) (gone : Nat) :
    (State.replaceGroups s gone).pending = s.pending := by simp [State.replaceGroups]
@[simp] theorem State.planeEnWrite_pending (s : State) (v : Nat) :
    (State.planeEnWrite s v).pending = s.pending := by simp [State.planeEnWrite]
@[simp] theorem execPlaneEnWrite_pending (v : BitVec 8) (s : State) :
    pendingKept s (execPlaneEnWrite v s) := by simp [execPlaneEnWrite]
@[simp] theorem State.purge_pending (s : State) (n : Nat) : (State.purge s n).pending = s.pending := by simp [State.purge]
@[simp] theorem State.mapInit_pending (s : State) : (State.mapInit s).pending = s.pending := by simp [State.mapInit]
@[simp] theorem State.clearWords_pending (s : State) (f : Fld) (n : Nat) :
    (State.clearWords s f n).pending = s.pending := by simp [State.clearWords]
@[simp] theorem State.checkTag_pending (s : State) (hdr body tag : List Byte) :
    (State.checkTag s hdr body tag).1.pending = s.pending := by
  unfold State.checkTag; (repeat' split) <;> simp
@[simp] theorem State.commitTag_pending (s : State) (a : Ask) : (State.commitTag s a).1.pending = s.pending := by
  unfold State.commitTag; (repeat' split) <;> simp
@[simp] theorem State.newAuthSeq_pending (s : State) : (State.newAuthSeq s).pending = s.pending := by simp [State.newAuthSeq]
@[simp] theorem State.wipeKeys_pending (s : State) : (State.wipeKeys s).pending = s.pending := by simp [State.wipeKeys]
@[simp] theorem State.lcUsed_pending (s : State) : (State.lcUsed s).pending = s.pending := by simp [State.lcUsed]
@[simp] theorem State.lcGo_pending (s : State) (target : Nat) : (State.lcGo s target).pending = s.pending := by
  unfold State.lcGo; simp only []; split <;> simp
@[simp] theorem execLcGo_pending (target : BitVec 2) (s : State) : pendingKept s (execLcGo target s) := by simp [execLcGo]
@[simp] theorem State.lcEnd_pending (s : State) (target : Nat) :
    (State.lcEnd s target).pending = s.pending := by simp [State.lcEnd]
@[simp] theorem execLcDone_pending (s : State) : pendingKept s (execLcDone s) := by
  unfold execLcDone; simp only []; split <;> simp
@[simp] theorem State.loadIdKey_pending (s : State) : (State.loadIdKey s).pending = s.pending := by simp [State.loadIdKey]
@[simp] theorem State.loadAuthKey_pending (s : State) : (State.loadAuthKey s).pending = s.pending := by simp [State.loadAuthKey]
@[simp] theorem State.keyCmd_pending (s : State) (v : Nat) : (State.keyCmd s v).pending = s.pending := by simp [State.keyCmd]
@[simp] theorem execLoadId_pending (s : State) : pendingKept s (execLoadId s) := by simp [execLoadId]
@[simp] theorem execLoadAuth_pending (s : State) : pendingKept s (execLoadAuth s) := by simp [execLoadAuth]
@[simp] theorem State.enforceWrite_pending (s : State) (on : Bool) :
    (State.enforceWrite s on).pending = s.pending := by simp [State.enforceWrite]
@[simp] theorem execEnforceWrite_pending (on : Bool) (s : State) :
    pendingKept s (execEnforceWrite on s) := by simp [execEnforceWrite]
@[simp] theorem execTamper_pending (s : State) : pendingKept s (execTamper s) := by simp [execTamper]
@[simp] theorem execTamperNRelease_pending (s : State) : pendingKept s (execTamperNRelease s) := by simp [execTamperNRelease]
@[simp] theorem State.respond_pending (s : State) : (State.respond s).pending = s.pending := by simp [State.respond]
@[simp] theorem execRespond_pending (s : State) : pendingKept s (execRespond s) := by simp [execRespond]
@[simp] theorem execIdResponseReady_pending (s : State) : pendingKept s (execIdResponseReady s) := by
  unfold execIdResponseReady; dsimp only; (repeat' split) <;> simp
@[simp] theorem State.mirrorSend_pending (s : State) (type row : Nat) (body : List Byte) :
    (State.mirrorSend s type row body).pending = s.pending := by simp [State.mirrorSend]
@[simp] theorem State.submit_pending (s : State) (w : W64) (auth list : Bool) :
    (State.submit s w auth list).pending = s.pending := by simp [State.submit]
@[simp] theorem State.reqPush_pending (s : State) (hi : Nat) : (State.reqPush s hi).pending = s.pending := by simp [State.reqPush]
@[simp] theorem execReqPush_pending (hi : W32) (s : State) : pendingKept s (execReqPush hi s) := by simp [execReqPush]
@[simp] theorem State.listStart_pending (s : State) : (State.listStart s).pending = s.pending := by simp [State.listStart]
@[simp] theorem execListStart_pending (s : State) : pendingKept s (execListStart s) := by simp [execListStart]
@[simp] theorem State.listAbort_pending (s : State) : (State.listAbort s).pending = s.pending := by simp [State.listAbort]
@[simp] theorem execListAbort_pending (s : State) : pendingKept s (execListAbort s) := by simp [execListAbort]
@[simp] theorem State.rejectAll_pending (ws : List Nat) (reason : Nat) (s : State) :
    (State.rejectAll ws reason s).pending = s.pending := by simp [State.rejectAll]
@[simp] theorem execListRequestFetch_pending (s : State) : pendingKept s (execListRequestFetch s) := by
  unfold execListRequestFetch; dsimp only; (repeat' split) <;> simp
@[simp] theorem State.commitRefused_pending (s : State) :
    (State.commitRefused s).pending = s.pending := by simp [State.commitRefused]
@[simp] theorem State.commitGone_pending (s : State) : (State.commitGone s).pending = s.pending := by simp [State.commitGone]
@[simp] theorem State.commitPend_pending (s : State) (kind : CommitKind) (held : Bool) :
    (State.commitPend s kind held).pending = s.pending := by simp [State.commitPend]
@[simp] theorem State.commitCancel_pending (s : State) : (State.commitCancel s).pending = s.pending := by
  unfold State.commitCancel; (repeat' split) <;> simp
@[simp] theorem State.commitHold_pending (s : State) (now arm drop cancel : Bool) (epoch : Nat) :
    (State.commitHold s now arm drop cancel epoch).pending = s.pending := by simp [State.commitHold]
@[simp] theorem State.commitNew_pending (s : State) (a : Ask) : (State.commitNew s a).pending = s.pending := by
  simp [State.commitNew]
@[simp] theorem State.cancelAsk_pending (s : State) : (State.cancelAsk s).pending = s.pending := by simp [State.cancelAsk]
@[simp] theorem State.commitAsk_pending (s : State) (a : Ask) : (State.commitAsk s a).pending = s.pending := by
  simp [State.commitAsk]
@[simp] theorem State.listChecked_pending (s : State) : (State.listChecked s).pending = s.pending := by
  simp [State.listChecked]
@[simp] theorem execListTagCheckDone_pending (s : State) : pendingKept s (execListTagCheckDone s) := by
  simp [execListTagCheckDone]
@[simp] theorem State.sumAsk_pending (s : State) (act edit : Bool) :
    (State.sumAsk s act edit).pending = s.pending := by simp [State.sumAsk]
@[simp] theorem execSumAct_pending (s : State) : pendingKept s (execSumAct s) := by simp [execSumAct]
@[simp] theorem execSumEdit_pending (s : State) : pendingKept s (execSumEdit s) := by simp [execSumEdit]
@[simp] theorem State.rebuildBad_pending (s : State) (edit : Bool) :
    (State.rebuildBad s edit).pending = s.pending := by simp [State.rebuildBad]
@[simp] theorem State.sumActive_pending (s : State) : (State.sumActive s).pending = s.pending := by simp [State.sumActive]
@[simp] theorem State.sumEditing_pending (s : State) : (State.sumEditing s).pending = s.pending := by simp [State.sumEditing]
@[simp] theorem execSumDone_pending (s : State) : pendingKept s (execSumDone s) := by simp [execSumDone]
@[simp] theorem State.commitWrite_pending (s : State) (v : Nat) : (State.commitWrite s v).pending = s.pending := by
  simp [State.commitWrite]
@[simp] theorem State.commitCtlWrite_pending (s : State) (v : Nat) :
    (State.commitCtlWrite s v).pending = s.pending := by simp [State.commitCtlWrite]
@[simp] theorem execCommitNow_pending (s : State) : pendingKept s (execCommitNow s) := by simp [execCommitNow]
@[simp] theorem execCommitArm_pending (dropLate : Bool) (s : State) :
    pendingKept s (execCommitArm dropLate s) := by simp [execCommitArm]
@[simp] theorem execCommitCancel_pending (s : State) : pendingKept s (execCommitCancel s) := by simp [execCommitCancel]
@[simp] theorem State.lateDrop_pending (s : State) : (State.lateDrop s).pending = s.pending := by simp [State.lateDrop]
@[simp] theorem State.commitTake_pending (s : State) : (State.commitTake s).pending = s.pending := by
  unfold State.commitTake; (repeat' split) <;> simp
@[simp] theorem execCommitTake_pending (s : State) : pendingKept s (execCommitTake s) := by simp [execCommitTake]
@[simp] theorem execCommitCut_pending (s : State) : pendingKept s (execCommitCut s) := by
  unfold execCommitCut; simp only []; split <;> simp
@[simp] theorem State.swapLocks_pending (s : State) : (State.swapLocks s).pending = s.pending := by
  unfold State.swapLocks; simp
@[simp] theorem State.swapUnlock_pending (s : State) : (State.swapUnlock s).pending = s.pending := by
  simp [State.swapUnlock]
@[simp] theorem State.commitSwap_pending (s : State) (c : Commit) (e : Nat) :
    (State.commitSwap s c e).pending = s.pending := by simp [State.commitSwap]
@[simp] theorem State.commitHinge_pending (s : State) (k e : Nat) : (State.commitHinge s k e).pending = s.pending := by
  unfold State.commitHinge; (repeat' split) <;> simp
@[simp] theorem State.sweepActive_pending (s : State) : (State.sweepActive s).pending = s.pending := by
  simp [State.sweepActive]
@[simp] theorem State.catchupDone_pending (s : State) : (State.catchupDone s).pending = s.pending := by simp [State.catchupDone]
@[simp] theorem execCatchupDone_pending (s : State) : pendingKept s (execCatchupDone s) := by simp [execCatchupDone]
@[simp] theorem State.legSat_pending (s : State) (b : Nat) : (State.legSat s b).pending = s.pending := by simp [State.legSat]
@[simp] theorem State.gCmd_pending (s : State) (op : Nat) : (State.gCmd s op).pending = s.pending := by simp [State.gCmd]
@[simp] theorem State.confCmd_pending (s : State) (op : Nat) : (State.confCmd s op).pending = s.pending := by simp [State.confCmd]
@[simp] theorem execGRead_pending (s : State) : pendingKept s (execGRead s) := by simp [execGRead]
@[simp] theorem execGReadClear_pending (s : State) : pendingKept s (execGReadClear s) := by simp [execGReadClear]
@[simp] theorem execConfRead_pending (s : State) : pendingKept s (execConfRead s) := by simp [execConfRead]
@[simp] theorem execConfReadClear_pending (s : State) : pendingKept s (execConfReadClear s) := by simp [execConfReadClear]
@[simp] theorem State.gDone_pending (s : State) (c : PortCmd) : (State.gDone s c).pending = s.pending := by simp [State.gDone]
@[simp] theorem State.confDone_pending (s : State) (c : PortCmd) :
    (State.confDone s c).pending = s.pending := by simp [State.confDone]
@[simp] theorem State.benchCmd_pending (s : State) (op : Nat) :
    (State.benchCmd s op).pending = s.pending := by simp [State.benchCmd]
@[simp] theorem execBenchRead_pending (s : State) : pendingKept s (execBenchRead s) := by simp [execBenchRead]
@[simp] theorem execBenchReadClear_pending (s : State) : pendingKept s (execBenchReadClear s) := by simp [execBenchReadClear]
@[simp] theorem execBenchWrite_pending (s : State) : pendingKept s (execBenchWrite s) := by simp [execBenchWrite]
@[simp] theorem State.benchDone_pending (s : State) (c : PortCmd) :
    (State.benchDone s c).pending = s.pending := by simp [State.benchDone]
@[simp] theorem State.mirrorSel_pending (s : State) (a : Nat) :
    (State.mirrorSel s a).pending = s.pending := by simp [State.mirrorSel]
@[simp] theorem State.mirrorGrp_pending (s : State) (g : Nat) :
    (State.mirrorGrp s g).pending = s.pending := by simp [State.mirrorGrp]
@[simp] theorem State.selMoved_pending (s : State) (a : Nat) (prot : Bool) :
    (State.selMoved s a prot).pending = s.pending := by simp [State.selMoved]
@[simp] theorem State.selCfg_pending (s : State) (a : Nat) : (State.selCfg s a).pending = s.pending := by
  unfold State.selCfg; simp only []; split <;> simp
@[simp] theorem State.selMove_pending (s : State) (a : Nat) (changed : Bool) :
    (State.selMove s a changed).pending = s.pending := by
  unfold State.selMove; simp only []; split <;> simp
@[simp] theorem State.selTurn_pending (s : State) (a : Nat) (changed : Bool) :
    (State.selTurn s a changed).pending = s.pending := by simp [State.selTurn]
@[simp] theorem State.selDecide_pending (s : State) (a cw cp : Nat) (nw np : Bool) :
    (State.selDecide s a cw cp nw np).pending = s.pending := by simp [State.selDecide]
@[simp] theorem State.showGrp_pending (s : State) (g : Nat) : (State.showGrp s g).pending = s.pending := by simp [State.showGrp]
@[simp] theorem State.sendAps_pending (s : State) (cfg v : Nat) :
    (State.sendAps s cfg v).pending = s.pending := by simp [State.sendAps]
@[simp] theorem State.grpCfg_pending (s : State) (g : Nat) : (State.grpCfg s g).pending = s.pending := by simp [State.grpCfg]
@[simp] theorem State.grpMove_pending (s : State) (g : Nat) : (State.grpMove s g).pending = s.pending := by
  unfold State.grpMove; simp only []; split <;> simp
@[simp] theorem State.grpTurn_pending (s : State) (g : Nat) : (State.grpTurn s g).pending = s.pending := by simp [State.grpTurn]
@[simp] theorem State.grpDecide_pending (s : State) (g : Nat) :
    (State.grpDecide s g).pending = s.pending := by simp [State.grpDecide]
@[simp] theorem State.gCfgWrite_pending (s : State) (g v : Nat) :
    (State.gCfgWrite s g v).pending = s.pending := by simp [State.gCfgWrite]
@[simp] theorem execGCfgWrite_pending (g : Fin 32) (v : W32) (s : State) :
    pendingKept s (execGCfgWrite g v s) := by simp [execGCfgWrite]
@[simp] theorem State.grpCommand_pending (s : State) (g c : Nat) :
    (State.grpCommand s g c).pending = s.pending := by simp [State.grpCommand]
@[simp] theorem execGrpLo_pending (g : Fin 32) (s : State) : pendingKept s (execGrpLo g s) := by simp [execGrpLo]
@[simp] theorem execGrpFs_pending (g : Fin 32) (s : State) : pendingKept s (execGrpFs g s) := by simp [execGrpFs]
@[simp] theorem execGrpMsP_pending (g : Fin 32) (s : State) : pendingKept s (execGrpMsP g s) := by simp [execGrpMsP]
@[simp] theorem execGrpMsW_pending (g : Fin 32) (s : State) : pendingKept s (execGrpMsW g s) := by simp [execGrpMsW]
@[simp] theorem execGrpClear_pending (g : Fin 32) (s : State) : pendingKept s (execGrpClear g s) := by simp [execGrpClear]
@[simp] theorem State.sCmd_pending (s : State) (v : Nat) : (State.sCmd s v).pending = s.pending := by simp [State.sCmd]
@[simp] theorem execSelLo_pending (s : State) : pendingKept s (execSelLo s) := by simp [execSelLo]
@[simp] theorem execSelFs_pending (s : State) : pendingKept s (execSelFs s) := by simp [execSelFs]
@[simp] theorem execSelMsP_pending (s : State) : pendingKept s (execSelMsP s) := by simp [execSelMsP]
@[simp] theorem execSelMsW_pending (s : State) : pendingKept s (execSelMsW s) := by simp [execSelMsW]
@[simp] theorem execSelClear_pending (s : State) : pendingKept s (execSelClear s) := by simp [execSelClear]
@[simp] theorem execSRead_pending (s : State) : pendingKept s (execSRead s) := by simp [execSRead]
@[simp] theorem execSReadClear_pending (s : State) : pendingKept s (execSReadClear s) := by simp [execSReadClear]
@[simp] theorem execSWrite_pending (s : State) : pendingKept s (execSWrite s) := by simp [execSWrite]
@[simp] theorem State.sErr_pending (s : State) : (State.sErr s).pending = s.pending := by simp [State.sErr]
@[simp] theorem State.sRefused_pending (s : State) : (State.sRefused s).pending = s.pending := by simp [State.sRefused]
@[simp] theorem State.selCommand_pending (s : State) (a c : Nat) :
    (State.selCommand s a c).pending = s.pending := by simp [State.selCommand]
@[simp] theorem State.selWrite_pending (s : State) (a w : Nat) :
    (State.selWrite s a w).pending = s.pending := by simp [State.selWrite]
@[simp] theorem State.selCapture_pending (s : State) (a : Nat) (clr : Bool) :
    (State.selCapture s a clr).pending = s.pending := by simp [State.selCapture]
@[simp] theorem State.sDone_pending (s : State) (c : PortCmd) : (State.sDone s c).pending = s.pending := by simp [State.sDone]
@[simp] theorem execHoldoffExpire_pending (t : SelRef) (side : Side) (run : Nat) (s : State) :
    pendingKept s (execHoldoffExpire t side run s) := by
  unfold execHoldoffExpire; (repeat' split) <;> simp
@[simp] theorem execWtrExpire_pending (t : SelRef) (run : Nat) (s : State) : pendingKept s (execWtrExpire t run s) := by
  unfold execWtrExpire; (repeat' split) <;> simp
@[simp] theorem State.apsMm_pending (s : State) (g : Nat) (v : Bool) :
    (State.apsMm s g v).pending = s.pending := by simp [State.apsMm]
@[simp] theorem execApsMmDeclare_pending (g : Fin 32) (s : State) :
    pendingKept s (execApsMmDeclare g s) := by simp [execApsMmDeclare]
@[simp] theorem execApsMmClear_pending (g : Fin 32) (s : State) : pendingKept s (execApsMmClear g s) := by simp [execApsMmClear]
@[simp] theorem execEqMultiframe_pending (q : Fin 65536) (side : Side) (tag : BitVec 16) (s : State) : pendingKept s (execEqMultiframe q side tag s) := by
  simp [execEqMultiframe]
@[simp] theorem State.eqLine_pending (s : State) (q : Nat) (r : EqRing) (now tag u : Nat) :
    (State.eqLine s q r now tag u).1.pending = s.pending := by
  unfold State.eqLine; dsimp only; (repeat' split) <;> simp
@[simp] theorem State.eqFetch_pending (s : State) (q : Nat) (r : EqRing) (now n : Nat) :
    (State.eqFetch s q r now n).1.pending = s.pending := by
  unfold State.eqFetch; simp only []; split <;> simp
@[simp] theorem State.eqLost_pending (s : State) (q : Nat) : (State.eqLost s q).pending = s.pending := by
  simp [State.eqLost]
@[simp] theorem State.eqRelease_pending (s : State) (q n : Nat) : (State.eqRelease s q n).pending = s.pending := by
  unfold State.eqRelease; dsimp only; (repeat' split) <;> simp
@[simp] theorem execEqContainerRelease_pending (q : Fin 65536) (tag : BitVec 16) (i : Fin 32)
    (altered : List (Nat × List Byte)) (s : State) :
    pendingKept s (execEqContainerRelease q tag i altered s) := by simp [execEqContainerRelease]
@[simp] theorem State.eqByte_pending (q : Nat) (early : Bool) (acc : State × List Byte) (y : EqByte) :
    (State.eqByte q early acc y).1.pending = acc.1.pending := by
  simp [State.eqByte]
@[simp] theorem State.eqSend_pending (s : State) (q : Nat) (pre : List EqByte) (came : Nat) (restart : Bool) :
    (State.eqSend s q pre came restart).1.pending = s.pending := by
  unfold State.eqSend; dsimp only; split
  · simp
  all_goals (split <;> simp)
@[simp] theorem State.eqStore_pending (q : Nat) (t : State × EqRing) (x : EqByte) :
    (State.eqStore q t x).1.pending = t.1.pending := by
  unfold State.eqStore; dsimp only; (repeat' split) <;> simp
@[simp] theorem State.eqFrame_pending (s : State) (e q : Nat) (col : Bool → Option Col) (ps : List Nat) :
    (State.eqFrame s e q col ps).1.pending = s.pending := by
  unfold State.eqFrame; dsimp only; (repeat' split) <;> simp
@[simp] theorem State.eqTurn_pending (s : State) (q : Nat) (changed : Bool) :
    (State.eqTurn s q changed).1.pending = s.pending := by simp [State.eqTurn]
@[simp] theorem State.qCmd_pending (s : State) (v : Nat) : (State.qCmd s v).pending = s.pending := by simp [State.qCmd]
@[simp] theorem execQRead_pending (s : State) : pendingKept s (execQRead s) := by simp [execQRead]
@[simp] theorem execQReadClear_pending (s : State) : pendingKept s (execQReadClear s) := by simp [execQReadClear]
@[simp] theorem execQWrite_pending (s : State) : pendingKept s (execQWrite s) := by simp [execQWrite]
@[simp] theorem State.eqWrite_pending (s : State) (q w : Nat) :
    (State.eqWrite s q w).pending = s.pending := by simp [State.eqWrite]
@[simp] theorem State.eqCapture_pending (s : State) (q : Nat) (clr : Bool) :
    (State.eqCapture s q clr).pending = s.pending := by simp [State.eqCapture]
@[simp] theorem State.qDone_pending (s : State) (c : PortCmd) : (State.qDone s c).pending = s.pending := by simp [State.qDone]
@[simp] theorem State.setRef_pending (s : State) (r : Nat) (x : Ref) :
    (State.setRef s r x).pending = s.pending := by simp [State.setRef]
@[simp] theorem State.refFollow_pending (s : State) (r : Nat) :
    (State.refFollow s r).pending = s.pending := by simp [State.refFollow]
@[simp] theorem State.refOff_pending (s : State) (r : Nat) : (State.refOff s r).pending = s.pending := by
  simp [State.refOff]
@[simp] theorem State.refShow_pending (s : State) (r : Nat) : (State.refShow s r).pending = s.pending := by simp [State.refShow]
@[simp] theorem State.disqualify_pending (s : State) (r : Nat) :
    (State.disqualify s r).pending = s.pending := by simp [State.disqualify]
@[simp] theorem State.refCycle_pending (s : State) (r : Nat) :
    (State.refCycle s r).pending = s.pending := by simp [State.refCycle]
@[simp] theorem State.refJudge_pending (s : State) (r : Nat) (hit : Bool) :
    (State.refJudge s r hit).pending = s.pending := by simp [State.refJudge]
@[simp] theorem State.hoStop_pending (s : State) : (State.hoStop s).pending = s.pending := by simp [State.hoStop]
@[simp] theorem State.unfollow_pending (s : State) (st : Nat) :
    (State.unfollow s st).pending = s.pending := by simp [State.unfollow]
@[simp] theorem State.enterFreerun_pending (s : State) :
    (State.enterFreerun s).pending = s.pending := by simp [State.enterFreerun]
@[simp] theorem State.enterHoldover_pending (s : State) :
    (State.enterHoldover s).pending = s.pending := by simp [State.enterHoldover]
@[simp] theorem State.transition_pending (s : State) (r : Nat) :
    (State.transition s r).pending = s.pending := by simp [State.transition]
@[simp] theorem State.retargetTo_pending (s : State) (r : Nat) : (State.retargetTo s r).pending = s.pending := (rfl)
@[simp] theorem State.selectRef_pending (s : State) : (State.selectRef s).pending = s.pending := by
  unfold State.selectRef; (repeat' split) <;> simp
@[simp] theorem State.selectAfter_pending (old s : State) :
    (State.selectAfter old s).pending = s.pending := by simp [State.selectAfter]
@[simp] theorem State.refEvent_pending (s : State) (r : Nat) (hit : Bool) :
    (State.refEvent s r hit).pending = s.pending := by simp [State.refEvent]
@[simp] theorem State.refActivity_pending (s : State) (r : Nat) (a : Activity) :
    (State.refActivity s r a).pending = s.pending := by
  unfold State.refActivity; (repeat' split) <;> simp
@[simp] theorem execRefActivityChange_pending (r : Fin 13) (a : Activity) (s : State) :
    pendingKept s (execRefActivityChange r a s) := by simp [execRefActivityChange]
@[simp] theorem execUnstableClear_pending (r : Fin 13) (s : State) :
    pendingKept s (execUnstableClear r s) := by simp [execUnstableClear]
@[simp] theorem execHit_pending (h : PhaseHit) (s : State) :
    pendingKept s (execHit h s) := by simp [execHit]
@[simp] theorem execRefQualify_pending (r : Fin 13) (run : Nat) (s : State) :
    pendingKept s (execRefQualify r run s) := by simp [execRefQualify]
@[simp] theorem execLockoutEnd_pending (r : Fin 13) (s : State) : pendingKept s (execLockoutEnd r s) := by simp [execLockoutEnd]
@[simp] theorem State.freqDisqualify_pending (s : State) (r : Nat) :
    (State.freqDisqualify s r).pending = s.pending := by simp [State.freqDisqualify]
@[simp] theorem execPersistExpire_pending (r : Fin 13) (run : Nat) (s : State) :
    pendingKept s (execPersistExpire r run s) := by simp [execPersistExpire]
@[simp] theorem State.refFreq_pending (old : State) (offs : List (Nat × Int)) (s : State) (r : Nat) (x : Int) :
    (State.refFreq old offs s r x).pending = s.pending := by simp [State.refFreq]
@[simp] theorem State.refNoFreq_pending (s : State) (r : Nat) :
    (State.refNoFreq s r).pending = s.pending := by simp [State.refNoFreq]
@[simp] theorem State.refsUpdate_pending (s : State) (m : TimingMeas) : (s.refsUpdate m).pending = s.pending := by
  unfold State.refsUpdate; dsimp only
  rw [State.wr_pending, State.wrB_pending, foldl_pending _ _ _ (fun s x => by simp), foldl_pending _ _ _ (fun s x => by split <;> simp),
    foldl_pending _ _ _ (fun s x => by simp)]
@[simp] theorem State.dpllMove_pending (s : State) (loop : Int) :
    (State.dpllMove s loop).pending = s.pending := by simp [State.dpllMove]
@[simp] theorem State.lockingTick_pending (s : State) (f phase : Int) :
    (State.lockingTick s f phase).pending = s.pending := by
  unfold State.lockingTick; simp only []; split <;> simp
@[simp] theorem State.hoSpecChk_pending (s : State) : (State.hoSpecChk s).pending = s.pending := by
  simp [State.hoSpecChk]
@[simp] theorem State.holdTick_pending (s : State) : (State.holdTick s).pending = s.pending := by simp [State.holdTick]
@[simp] theorem State.dpllTick_pending (s : State) (phase : Int) (held : Bool) :
    (State.dpllTick s phase held).pending = s.pending := by simp [State.dpllTick]
@[simp] theorem execTimingUpdate_pending (m : TimingMeas) (s : State) : pendingKept s (execTimingUpdate m s) := by
  simp [execTimingUpdate]
@[simp] theorem State.transitionEnd_pending (s : State) :
    (State.transitionEnd s).pending = s.pending := by simp [State.transitionEnd]
@[simp] theorem execTransitionStep_pending (phase : Int) (s : State) : pendingKept s (execTransitionStep phase s) := by
  unfold execTransitionStep; dsimp only; (repeat' split) <;> simp
@[simp] theorem execDpllLocked_pending (s : State) : pendingKept s (execDpllLocked s) := by simp [execDpllLocked]
@[simp] theorem execHoldoverOos_pending (seconds : Nat) (s : State) : pendingKept s (execHoldoverOos seconds s) := by simp [execHoldoverOos]
@[simp] theorem execLoFailDeclare_pending (s : State) : pendingKept s (execLoFailDeclare s) := by simp [execLoFailDeclare]
@[simp] theorem execLoFailClear_pending (s : State) : pendingKept s (execLoFailClear s) := by simp [execLoFailClear]
@[simp] theorem State.evtMaskWrite_pending (s : State) (p : Page) (i v : Nat) : (s.evtMaskWrite p i v).pending = s.pending := by
  unfold State.evtMaskWrite; dsimp only
  rw [foldl_fst_pending]
  · simp
  · intro s x; split <;> simp
@[simp] theorem execEvtMaskWrite_pending (p : Page) (i : Nat) (v : W32) (s : State) :
    pendingKept s (execEvtMaskWrite p i v s) := by simp [execEvtMaskWrite]
@[simp] theorem State.eqPop_pending (s : State) : (State.eqPop s).1.pending = s.pending := by
  unfold State.eqPop; simp only []; split <;> simp
@[simp] theorem execEventQueuePop_pending (s : State) : pendingKept s (execEventQueuePop s) := by simp [execEventQueuePop]
@[simp] theorem State.eqFlush_pending (s : State) : (State.eqFlush s).pending = s.pending := by simp [State.eqFlush]
@[simp] theorem execEventQueueFlush_pending (s : State) : pendingKept s (execEventQueueFlush s) := by simp [execEventQueueFlush]
@[simp] theorem State.eqMismatch_pending (s : State) : (State.eqMismatch s).pending = s.pending := by simp [State.eqMismatch]
@[simp] theorem State.drwChanged_pending (s : State) (n c : Nat) :
    (State.drwChanged s n c).pending = s.pending := by simp [State.drwChanged]
@[simp] theorem State.chgCapture_pending (s : State) (v : Nat) :
    (State.chgCapture s v).pending = s.pending := by simp [State.chgCapture]
@[simp] theorem execChgCapture_pending (v : W32) (s : State) : pendingKept s (execChgCapture v s) := by simp [execChgCapture]
@[simp] theorem execCntPreset_pending (p : Page) (i : Nat) (k : Fin 8) (v : BitVec 48) (s : State) :
    pendingKept s (execCntPreset p i k v s) := by simp [execCntPreset]
@[simp] theorem execCntWrap_pending (p : Page) (i : Nat) (k : Fin 8) (s : State) :
    pendingKept s (execCntWrap p i k s) := by simp [execCntWrap]
@[simp] theorem State.snapTake_pending (s : State) (src : Nat) :
    (State.snapTake s src).pending = s.pending := by simp [State.snapTake]
@[simp] theorem State.snapshot_pending (s : State) (src : Nat) : (State.snapshot s src).pending = s.pending := by simp [State.snapshot]
@[simp] theorem execPerfSnap_pending (s : State) : pendingKept s (execPerfSnap s) := by simp [execPerfSnap]
@[simp] theorem execPerfFreeze_pending (on : Bool) (s : State) : pendingKept s (execPerfFreeze on s) := by simp [execPerfFreeze]
@[simp] theorem execSnapPin_pending (level : Bool) (s : State) : pendingKept s (execSnapPin level s) := by simp [execSnapPin]
@[simp] theorem State.trCtlWrite_pending (s : State) (v : Nat) :
    (State.trCtlWrite s v).pending = s.pending := by simp [State.trCtlWrite]
@[simp] theorem execTraceEnable_pending (v : W32) (s : State) : pendingKept s (execTraceEnable v s) := by simp [execTraceEnable]
@[simp] theorem State.traceWrite_pending (s : State) (tag : BitVec 16) (kind : Nat) (stage : Byte) (id : W32) (info : BitVec 16) :
    (State.traceWrite s tag kind stage id info).pending = s.pending := by simp [State.traceWrite]
@[simp] theorem State.traceCandidate_pending (s : State) (kind id info : Nat) :
    (State.traceCandidate s kind id info).1.pending = s.pending := by simp [State.traceCandidate]
@[simp] theorem execTraceRecord_pending (stage : Byte) (id : W32) (info : BitVec 16) (item : Option (BitVec 16)) (s : State) :
    pendingKept s (execTraceRecord stage id info item s) := by
  unfold execTraceRecord; dsimp only; split
  · simp
  · cases item <;> simp
@[simp] theorem State.tracePop_pending (s : State) : (State.tracePop s).1.pending = s.pending := by
  unfold State.tracePop; (repeat' split) <;> simp
@[simp] theorem execTracePop_pending (s : State) : pendingKept s (execTracePop s) := by simp [execTracePop]
@[simp] theorem State.m5Write_pending (s : State) (a : Nat) (bs : List Byte) :
    (State.m5Write s a bs).s.pending = s.pending := by
  unfold State.m5Write; (repeat' split) <;> simp
@[simp] theorem State.drain_pending (s : State) : (State.drain s).pending = s.pending := by
  unfold State.drain; simp only []; split <;> simp
@[simp] theorem State.traceFlush_pending (s : State) : (State.traceFlush s).pending = s.pending := by simp [State.traceFlush]
@[simp] theorem State.trMismatch_pending (s : State) : (State.trMismatch s).pending = s.pending := by simp [State.trMismatch]
@[simp] theorem State.setRate_pending (s : State) (f sl : Int) :
    (State.setRate s f sl).pending = s.pending := by simp [State.setRate]
@[simp] theorem State.setTime_pending (s : State) (t : Nat) : (State.setTime s t).pending = s.pending := by simp [State.setTime]
@[simp] theorem State.timeRead_pending (s : State) : (State.timeRead s).1.pending = s.pending := by simp [State.timeRead]
@[simp] theorem execTimeRead_pending (s : State) : pendingKept s (execTimeRead s) := by simp [execTimeRead]
@[simp] theorem State.setServo_pending (s : State) (v : Nat) :
    (State.setServo s v).pending = s.pending := by simp [State.setServo]
@[simp] theorem State.slewFollow_pending (s : State) : (State.slewFollow s).pending = s.pending := (rfl)
@[simp] theorem State.servoFree_pending (s : State) : (State.servoFree s).pending = s.pending := by simp [State.servoFree]
@[simp] theorem State.servoCount_pending (s : State) (id : Nat) :
    (State.servoCount s id).pending = s.pending := by simp [State.servoCount]
@[simp] theorem State.servoLoop_pending (s : State) (off : Int) : (State.servoLoop s off).pending = s.pending := (rfl)
@[simp] theorem State.servoSample_pending (s : State) (off : Int) :
    (State.servoSample s off).pending = s.pending := by simp [State.servoSample]
@[simp] theorem State.samplePush_pending (s : State) (hi : Nat) :
    (State.samplePush s hi).pending = s.pending := by simp [State.samplePush]
@[simp] theorem execSamplePush_pending (hi : W32) (s : State) : pendingKept s (execSamplePush hi s) := by simp [execSamplePush]
@[simp] theorem execMasterTimeout_pending (run : Nat) (s : State) :
    pendingKept s (execMasterTimeout run s) := by simp [execMasterTimeout]
@[simp] theorem State.stepGo_pending (s : State) (abs neg : Bool) :
    (State.stepGo s abs neg).pending = s.pending := by simp [State.stepGo]
@[simp] theorem execStepGo_pending (abs neg : Bool) (s : State) : pendingKept s (execStepGo abs neg s) := by simp [execStepGo]
@[simp] theorem State.stepTake_pending (s : State) : (State.stepTake s).pending = s.pending := by
  unfold State.stepTake; simp only []; split <;> simp
@[simp] theorem State.labelHinge_pending (s : State) (mate : Option Nat) :
    (State.labelHinge s mate).pending = s.pending := by simp [State.labelHinge]
@[simp] theorem State.actArm_pending (s : State) (i action : Nat) (drop : Bool) :
    (State.actArm s i action drop).pending = s.pending := by simp [State.actArm]
@[simp] theorem State.actCancel_pending (s : State) (i : Nat) :
    (State.actCancel s i).pending = s.pending := by simp [State.actCancel]
@[simp] theorem execActArm_pending (i : Fin 16) (action : BitVec 4) (dropLate : Bool) (s : State) :
    pendingKept s (execActArm i action dropLate s) := by simp [execActArm]
@[simp] theorem execActCancel_pending (i : Fin 16) (s : State) : pendingKept s (execActCancel i s) := by simp [execActCancel]
@[simp] theorem State.actTurn_pending (s : State) (i : Nat) (snap : Bool) : (State.actTurn s i snap).1.pending = s.pending := by
  unfold State.actTurn; dsimp only; (repeat' split) <;> simp
@[simp] theorem State.actions_pending (s : State) : (State.actions s).pending = s.pending := by simp [State.actions]
@[simp] theorem execPpsOutEdge_pending (s : State) : pendingKept s (execPpsOutEdge s) := by simp [execPpsOutEdge]
@[simp] theorem execPpsWidthEnd_pending (s : State) : pendingKept s (execPpsWidthEnd s) := by simp [execPpsWidthEnd]
@[simp] theorem State.ppsFollow_pending (s : State) : (State.ppsFollow s).pending = s.pending := by
  simp [State.ppsFollow]
@[simp] theorem execPpsIn_pending (s : State) : pendingKept s (execPpsIn s) := by simp [execPpsIn]
@[simp] theorem State.txQfull_pending (s : State) (p : Nat) : (State.txQfull s p).pending = s.pending := by simp [State.txQfull]
@[simp] theorem State.sendPacket_pending (s : State) (n : Nat) (us : List (Nat × Nat × List Byte)) :
    (State.sendPacket s n us).pending = s.pending := by
  unfold State.sendPacket; simp only []; split <;> simp
@[simp] theorem State.visit_pending (s : State) (n : Nat) : (State.visit s n).pending = s.pending := by simp [State.visit]
@[simp] theorem State.mirrorPwctx_pending (s : State) (n : Nat) : (State.mirrorPwctx s n).pending = s.pending := by
  simp [State.mirrorPwctx]
@[simp] theorem State.visitTurn_pending (s : State) (n : Nat) : (State.visitTurn s n).pending = s.pending := by
  simp [State.visitTurn]
@[simp] theorem State.jbRestart_pending (s : State) (n : Nat) :
    (State.jbRestart s n).pending = s.pending := by simp [State.jbRestart]
@[simp] theorem State.pwDiscard_pending (s : State) : (State.pwDiscard s).pending = s.pending := by simp [State.pwDiscard]
@[simp] theorem State.offTime_pending (s : State) (n : Nat) (early : Bool) :
    (State.offTime s n early).pending = s.pending := by simp [State.offTime]
@[simp] theorem State.noteLR_pending (s : State) (n : Nat) (l r : Bool) :
    (State.noteLR s n l r).pending = s.pending := by simp [State.noteLR]
@[simp] theorem State.placePacket_pending (s : State) (n : Nat) (no : Nat) (us : List (List Byte)) (l r : Bool) :
    (State.placePacket s n no us l r).pending = s.pending := by simp [State.placePacket]
@[simp] theorem State.crSet_pending (s : State) (n : Nat) (x : Int) : (State.crSet s n x).pending = s.pending := by
  simp [State.crSet]
@[simp] theorem State.crUpdate_pending (s : State) (n : Nat) :
    (State.crUpdate s n).pending = s.pending := by simp [State.crUpdate]
@[simp] theorem State.crPacket_pending (s : State) (n no ts : Nat) :
    (State.crPacket s n no ts).pending = s.pending := by
  unfold State.crPacket; dsimp only; (repeat' split) <;> simp
@[simp] theorem State.pwReceive_pending (s : State) (n seq ts : Nat) (us : List (List Byte)) (l r : Bool) :
    (State.pwReceive s n seq ts us l r).pending = s.pending := by simp [State.pwReceive]
@[simp] theorem State.concealUnit_pending (s : State) (n : Nat) :
    (State.concealUnit s n).pending = s.pending := by simp [State.concealUnit]
@[simp] theorem State.jbDet_pending (s : State) : (State.jbDet s).pending = s.pending := by simp [State.jbDet]
@[simp] theorem State.unitContent_pending (s : State) (n f : Nat) : (State.unitContent s n f).1.pending = s.pending := by
  unfold State.unitContent; dsimp only; split
  · rfl
  · split
    · rfl
    · have h := State.burstGet_pending s rgJitter (unitTag f) (unitBurst n f)
      split <;> (rename_i e; rw [e] at h; simpa using h)
@[simp] theorem State.playUnit_pending (s : State) (n f : Nat) : (State.playUnit s n f).pending = s.pending := by
  unfold State.playUnit; simp only []; split <;> simp
@[simp] theorem State.playout_pending (s : State) (n : Nat) : (State.playout s n).pending = s.pending := by
  unfold State.playout; dsimp only; (repeat' split) <;> simp
@[simp] theorem execPlayoutUnit_pending (n : Fin 16384) (s : State) :
    pendingKept s (execPlayoutUnit n s) := by simp [execPlayoutUnit]
@[simp] theorem execJbBurstWrite_pending (n : Fin 16384) (f : Nat) (s : State) :
    pendingKept s (execJbBurstWrite n f s) := by simp [execJbBurstWrite]
@[simp] theorem execJbMerge_pending (n : Fin 16384) (f : Nat) (s : State) : pendingKept s (execJbMerge n f s) := by
  unfold execJbMerge; dsimp only; split
  · simp
  · split
    · simp
    · rename_i u _ _
      generalize ht : s.start.setCtx n { s.start.ctx n with late := mdel (s.start.ctx n).late f } = t
      have h₀ : t.pending = s.pending := by rw [← ht]; simp
      have h := State.burstGet_pending t rgJitter (unitTag f) (unitBurst n f)
      split <;> (rename_i e; rw [e] at h; simpa using h.trans h₀)
@[simp] theorem State.cCmd_pending (s : State) (v : Nat) : (State.cCmd s v).pending = s.pending := by simp [State.cCmd]
@[simp] theorem execCtxRead_pending (s : State) : pendingKept s (execCtxRead s) := by simp [execCtxRead]
@[simp] theorem execCtxReadClear_pending (s : State) : pendingKept s (execCtxReadClear s) := by simp [execCtxReadClear]
@[simp] theorem execCtxWrite_pending (s : State) : pendingKept s (execCtxWrite s) := by simp [execCtxWrite]
@[simp] theorem State.ctxSet_pending (s : State) (n : Nat) (c : Ctx) :
    (State.ctxSet s n c).pending = s.pending := by simp [State.ctxSet]
@[simp] theorem State.mirrorPwcfg_pending (s : State) (bodies : List (List Byte)) :
    (State.mirrorPwcfg s bodies).pending = s.pending := by simp [State.mirrorPwcfg]
@[simp] theorem State.cErr_pending (s : State) (code : Nat) : (State.cErr s code).pending = s.pending := by simp [State.cErr]
@[simp] theorem State.ctxWrite_pending (s : State) (n : Nat) (c : Ctx) :
    (State.ctxWrite s n c).pending = s.pending := by simp [State.ctxWrite]
@[simp] theorem State.wrCCfg_pending (s : State) (c : Ctx) : (State.wrCCfg s c).pending = s.pending := by simp [State.wrCCfg]
@[simp] theorem State.ctxCapture_pending (s : State) (n : Nat) (clr : Bool) :
    (State.ctxCapture s n clr).pending = s.pending := by simp [State.ctxCapture]
@[simp] theorem State.ctxDone_pending (s : State) (c : PortCmd) :
    (State.ctxDone s c).pending = s.pending := by simp [State.ctxDone]
@[simp] theorem State.tCmd_pending (s : State) (v : Nat) : (State.tCmd s v).pending = s.pending := by simp [State.tCmd]
@[simp] theorem execTplRead_pending (s : State) : pendingKept s (execTplRead s) := by simp [execTplRead]
@[simp] theorem execTplWrite_pending (s : State) : pendingKept s (execTplWrite s) := by simp [execTplWrite]
@[simp] theorem execTplInval_pending (s : State) : pendingKept s (execTplInval s) := by simp [execTplInval]
@[simp] theorem State.tplCapture_pending (s : State) (i : Nat) : (State.tplCapture s i).pending = s.pending := by
  unfold State.tplCapture; simp only []; split <;> simp
@[simp] theorem State.tplDone_pending (s : State) (c : PortCmd) :
    (State.tplDone s c).pending = s.pending := by simp [State.tplDone]
@[simp] theorem State.hostRead_pending (s : State) (d len : Nat) :
    (State.hostRead s d len).1.pending = s.pending := by simp [State.hostRead]
@[simp] theorem State.hostWrite_pending (s : State) (d : Nat) (bs : List Byte) :
    (State.hostWrite s d bs).pending = s.pending := by simp [State.hostWrite]
@[simp] theorem State.descDone_pending (s : State) (p : Nat) (x : TxItem) (flags : Nat) (stamp : Option Nat) :
    (State.descDone s p x flags stamp).pending = s.pending := by
  unfold State.descDone; (repeat' split) <;> simp
@[simp] theorem State.queueHost_pending (s : State) (p : Nat) (x : TxItem) :
    (State.queueHost s p x).pending = s.pending := by simp [State.queueHost]
@[simp] theorem State.launchLate_pending (s : State) (p : Nat) (x : TxItem) :
    (State.launchLate s p x).pending = s.pending := by simp [State.launchLate]
@[simp] theorem State.hostTxDesc_pending (s : State) (p : Nat) : (s.hostTxDesc p).pending = s.pending := by
  unfold State.hostTxDesc; dsimp only
  split
  · rfl
  · have h := State.hostRead_pending s (descAddr (s.rd R.ETH_HTX_BASE_BASE p) (s.rd R.ETH_HTX_SIZE_SIZE p) (s.eth p).next) 32
    split
    · rename_i e; rw [e] at h; exact h
    · rename_i t b e
      rw [e] at h
      have h' := State.hostRead_pending t (ofLe (sliceBytes b 0 5)) (ofLe (sliceBytes b 5 2))
      split
      all_goals (rename_i e'; rw [e'] at h'; (repeat' split) <;> simpa using h'.trans h)
@[simp] theorem execHostTxDesc_pending (p : Fin 8) (s : State) : pendingKept s (execHostTxDesc p s) := by simp [execHostTxDesc]
@[simp] theorem State.launchHost_pending (sl : Nat) (s : State) (p : Nat) : (State.launchHost sl s p).pending = s.pending := by
  unfold State.launchHost; simp only []; split <;> simp
@[simp] theorem execLaunchSlot_pending (sl : Fin 125) (s : State) :
    pendingKept s (execLaunchSlot sl s) := by simp [execLaunchSlot]
@[simp] theorem State.toHost_pending (s : State) (p : Nat) (f : EthRx) (stamp : Nat) : (s.toHost p f stamp).pending = s.pending := by
  unfold State.toHost; dsimp only
  split
  · simp
  · have h := State.hostRead_pending s (descAddr (s.rd R.ETH_HRX_BASE_BASE p) (s.rd R.ETH_HRX_SIZE_SIZE p) (s.rd R.ETH_HRX_PTR_WR p)) 32
    split <;> (rename_i e; rw [e] at h; simpa using h)
@[simp] theorem State.pwPacket_pending (s : State) (n : Nat) (bs : List Byte) (o stop : Nat) :
    (State.pwPacket s n bs o stop).pending = s.pending := by simp [State.pwPacket]
@[simp] theorem State.rxTake_pending (s : State) (p : Nat) (x : EthRx × Nat) :
    (State.rxTake s p x).pending = s.pending := by
  unfold State.rxTake; (repeat' split) <;> simp
@[simp] theorem State.rxDrain_pending (n p : Nat) (s : State) : (State.rxDrain n p s).pending = s.pending := by
  induction n generalizing s with
  | zero => rfl
  | succ n ih =>
    unfold State.rxDrain; split
    · rfl
    · split
      · rfl
      · simp [ih]
@[simp] theorem State.rxEnter_pending (s : State) (p : Nat) (x : EthRx × Nat) :
    (State.rxEnter s p x).pending = s.pending := by simp [State.rxEnter]
@[simp] theorem State.paused_pending (s : State) (p q : Nat) : (State.paused s p q).pending = s.pending := by simp [State.paused]
@[simp] theorem State.ethRx_pending (s : State) (p : Nat) (f : EthRx) :
    (State.ethRx s p f).pending = s.pending := by simp [State.ethRx]
@[simp] theorem execEthFrameRx_pending (p : Fin 8) (f : EthRx) (s : State) :
    pendingKept s (execEthFrameRx p f s) := by simp [execEthFrameRx]
@[simp] theorem State.ethTx_pending (s : State) (p : Nat) (ns : Nat) : (State.ethTx s p ns).pending = s.pending := by
  unfold State.ethTx; simp only []; split <;> simp
@[simp] theorem execEthFrameTx_pending (p : Fin 8) (sfdNs : Nat) (s : State) :
    pendingKept s (execEthFrameTx p sfdNs s) := by simp [execEthFrameTx]
@[simp] theorem execEthLinkChange_pending (p : Fin 8) (up : Bool) (s : State) :
    pendingKept s (execEthLinkChange p up s) := by simp [execEthLinkChange]
@[simp] theorem execPauseExpire_pending (p : Fin 8) (s : State) : pendingKept s (execPauseExpire p s) := by simp [execPauseExpire]
@[simp] theorem State.ethEnWrite_pending (s : State) (p v : Nat) :
    (State.ethEnWrite s p v).pending = s.pending := by simp [State.ethEnWrite]
@[simp] theorem State.readyFollow_pending (s : State) : (State.readyFollow s).pending = s.pending := by simp [State.readyFollow]
@[simp] theorem State.pullStart_pending (s : State) : (State.pullStart s).pending = s.pending := by simp [State.pullStart]
@[simp] theorem State.dropCur_pending (s : State) : (State.dropCur s).pending = s.pending := by simp [State.dropCur]
@[simp] theorem execFaultWrite_pending (f : Bool) (s : State) : pendingKept s (execFaultWrite f s) := by simp [execFaultWrite]
@[simp] theorem State.serveStep_pending (s : State) : (State.serveStep s).pending = s.pending := by
  unfold State.serveStep; (repeat' split) <;> simp
@[simp] theorem State.serveFill_pending (s : State) : (State.serveFill s).pending = s.pending := by
  simp [State.serveFill]
@[simp] theorem State.dxEnable_pending (s : State) : (State.dxEnable s).pending = s.pending := by simp [State.dxEnable]
@[simp] theorem execDxEnable_pending (s : State) : pendingKept s (execDxEnable s) := by simp [execDxEnable]
theorem State.laneRxDexgor_pending (s : State) (l : Nat) (f : RxFrame) : ∀ t, State.laneRxDexgor s l f = some t → t.pending = s.pending := by
  unfold State.laneRxDexgor; (repeat' split) <;> simp
@[simp] theorem State.setRole_pending (s : State) (m : Nat) : (State.setRole s m).pending = s.pending := (rfl)
@[simp] theorem State.roleNow_pending (s : State) (m : Nat) : (State.roleNow s m).pending = s.pending := (rfl)
@[simp] theorem State.exchange_pending (s : State) : (State.exchange s).pending = s.pending := by simp [State.exchange]
@[simp] theorem State.frameTickDexgor_pending (s : State) (l : Nat) (bits : Nat) :
    (State.frameTickDexgor s l bits).pending = s.pending := by
  unfold State.frameTickDexgor; dsimp only; (repeat' split) <;> simp
@[simp] theorem execFrameTick_pending (l : LaneId) (bits : Nat) (s : State) : pendingKept s (execFrameTick l bits s) := by
  unfold execFrameTick; (repeat' split) <;> simp
theorem State.laneRx_pending (s : State) (l : LaneId) (f : RxFrame) : ((s.laneRx l f).getD s).pending = s.pending := by
  cases h : s.laneRx l f with
  | none => rfl
  | some t =>
    cases l with
    | horale n => exact State.laneRxHorale_pending _ _ _ t h
    | dexgor l => exact State.laneRxDexgor_pending _ _ _ t h
theorem execLaneFrameRx_pending (l : LaneId) (f : RxFrame) (s : State) : pendingKept s (execLaneFrameRx l f s) := by
  unfold execLaneFrameRx; rw [pendingKept_ok, State.laneRx_pending]; rfl
@[simp] theorem State.hbSums_pending (s : State) : (State.hbSums s).pending = s.pending := by simp [State.hbSums]
@[simp] theorem State.hbDecide_pending (s : State) (old : Nat) :
    (State.hbDecide s old).pending = s.pending := by simp [State.hbDecide]
@[simp] theorem State.hbTwin_pending (s : State) (old : Nat) : (State.hbTwin s old).pending = s.pending := by
  simp [State.hbTwin]
@[simp] theorem State.hbBack_pending (s : State) : (State.hbBack s).pending = s.pending := by simp [State.hbBack]
@[simp] theorem State.hbLag_pending (s : State) (lag : Nat) : (State.hbLag s lag).pending = s.pending := by simp [State.hbLag]
@[simp] theorem State.hbTake_pending (s : State) (l : Nat) (lo : List Byte) (lag : Nat) :
    (State.hbTake s l lo lag).pending = s.pending := by simp [State.hbTake]
@[simp] theorem execHeartbeatRx_pending (l : Fin 2) (lo : List Byte) (lag : Nat) (s : State) :
    pendingKept s (execHeartbeatRx l lo lag s) := by simp [execHeartbeatRx]
@[simp] theorem State.hbLose_pending (s : State) : (State.hbLose s).pending = s.pending := by simp [State.hbLose]
@[simp] theorem execHbFrameMissed_pending (s : State) : pendingKept s (execHbFrameMissed s) := by simp [execHbFrameMissed]
@[simp] theorem State.recCheck_pending (s : State) (l : Nat) (r : List Byte) : (State.recCheck s l r).1.pending = s.pending := by
  unfold State.recCheck; (repeat' split) <;> simp
@[simp] theorem State.recCome_pending (s₀ s : State) (type l : Nat) (r : List Byte) (f : State → State) (h₀ : s.pending = s₀.pending)
    (h : ∀ s, (f s).pending = s.pending) : pendingKept s₀ (s.recCome type l r f) := by
  unfold State.recCome; dsimp only; split
  · simp
  · split <;> simp [h, h₀]
@[simp] theorem State.recTake_pending (s₀ s : State) (type l : Nat) (r : List Byte) (f : State → State) (h₀ : s.pending = s₀.pending)
    (h : ∀ s, (f s).pending = s.pending) : pendingKept s₀ (s.recTake type l r f) := by
  unfold State.recTake
  exact State.recCome_pending _ _ _ _ _ _ h₀ (fun s => by split <;> simp [h])
@[simp] theorem State.recHold_pending (s : State) (r : List Byte) (k : HeldKind) :
    (State.recHold s r k).pending = s.pending := by simp [State.recHold]
@[simp] theorem execMirReq_pending (l : Fin 2) (r : List Byte) (s : State) : pendingKept s (execMirReq l r s) :=
  State.recTake_pending _ _ _ _ _ _ (by simp) (fun s => by simp)
@[simp] theorem execMirCommit_pending (l : Fin 2) (r : List Byte) (s : State) : pendingKept s (execMirCommit l r s) :=
  State.recTake_pending _ _ _ _ _ _ (by simp) (fun s => by simp)
@[simp] theorem State.heldTake_pending (s : State) (h : Held) : (State.heldTake s h).pending = s.pending := by
  unfold State.heldTake; simp only []; split <;> simp
@[simp] theorem execMirRelease_pending (s : State) : pendingKept s (execMirRelease s) := by
  unfold execMirRelease; simp only []; split <;> simp
@[simp] theorem State.recDue_pending (s : State) (r : List Byte) :
    (State.recDue s r).pending = s.pending := by simp [State.recDue]
@[simp] theorem execMirSel_pending (l : Fin 2) (r : List Byte) (s : State) : pendingKept s (execMirSel l r s) :=
  State.recTake_pending _ _ _ _ _ _ (by simp) (fun s => by simp)
@[simp] theorem execMirGrp_pending (l : Fin 2) (r : List Byte) (s : State) : pendingKept s (execMirGrp l r s) :=
  State.recTake_pending _ _ _ _ _ _ (by simp) (fun s => by simp)
@[simp] theorem execMirEqcfg_pending (l : Fin 2) (r : List Byte) (s : State) : pendingKept s (execMirEqcfg l r s) :=
  State.recTake_pending _ _ _ _ _ _ (by simp) (fun s => by simp)
@[simp] theorem execMirPwcfg_pending (l : Fin 2) (r : List Byte) (s : State) : pendingKept s (execMirPwcfg l r s) :=
  State.recTake_pending _ _ _ _ _ _ (by simp) (fun s => by simp)
@[simp] theorem execMirPwctx_pending (l : Fin 2) (r : List Byte) (s : State) : pendingKept s (execMirPwctx l r s) :=
  State.recTake_pending _ _ _ _ _ _ (by simp) (fun s => by simp)
@[simp] theorem execMirTiming_pending (l : Fin 2) (r : List Byte) (s : State) : pendingKept s (execMirTiming l r s) :=
  State.recTake_pending _ _ _ _ _ _ (by simp) (fun s => by simp)
@[simp] theorem execMirTime_pending (l : Fin 2) (r : List Byte) (s : State) : pendingKept s (execMirTime l r s) :=
  State.recTake_pending _ _ _ _ _ _ (by simp) (fun s => by simp)
@[simp] theorem State.pullWord_pending (s : State) (b : Nat) :
    (State.pullWord s b).pending = s.pending := by simp [State.pullWord]
@[simp] theorem execMirPull_pending (l : Fin 2) (r : List Byte) (s : State) : pendingKept s (execMirPull l r s) :=
  State.recTake_pending _ _ _ _ _ _ (by simp) (fun s => by simp)
@[simp] theorem State.pullEnd_pending (s : State) (no : Nat) : (State.pullEnd s no).pending = s.pending := by
  simp [State.pullEnd]
@[simp] theorem execMirPullEnd_pending (l : Fin 2) (r : List Byte) (s : State) : pendingKept s (execMirPullEnd l r s) :=
  State.recCome_pending _ _ _ _ _ _ (by simp) (fun s => by simp)
@[simp] theorem State.applySel_pending (s : State) (b : Nat) :
    (State.applySel s b).pending = s.pending := by simp [State.applySel]
@[simp] theorem State.applyGrp_pending (s : State) (b : Nat) :
    (State.applyGrp s b).pending = s.pending := by simp [State.applyGrp]
@[simp] theorem State.applyEqcfg_pending (s : State) (b : Nat) :
    (State.applyEqcfg s b).pending = s.pending := by simp [State.applyEqcfg]
@[simp] theorem State.applyPwcfg_pending (s : State) (b : Nat) : (State.applyPwcfg s b).pending = s.pending := by
  unfold State.applyPwcfg; dsimp only; (repeat' split) <;> simp
@[simp] theorem State.applyPwctx_pending (s : State) (b : Nat) :
    (State.applyPwctx s b).pending = s.pending := by simp [State.applyPwctx]
@[simp] theorem State.applyTiming_pending (s : State) (b : Nat) :
    (State.applyTiming s b).pending = s.pending := by simp [State.applyTiming]
@[simp] theorem State.applyTime_pending (s : State) (b : Nat) :
    (State.applyTime s b).pending = s.pending := by simp [State.applyTime]
@[simp] theorem State.applyRec_pending (s : State) (r : List Byte) : (State.applyRec s r).pending = s.pending := by
  unfold State.applyRec; simp only []; split <;> simp
@[simp] theorem State.applyDue_pending (s : State) : (State.applyDue s).pending = s.pending := by simp [State.applyDue]
@[simp] theorem State.mirrorFrame_pending (s : State) : (State.mirrorFrame s).pending = s.pending := by simp [State.mirrorFrame]
@[simp] theorem State.swapAsk_pending (s : State) : (State.swapAsk s).pending = s.pending := by simp [State.swapAsk]
@[simp] theorem execSwap_pending (s : State) : pendingKept s (execSwap s) := by simp [execSwap]
@[simp] theorem State.claimFollow_pending (s : State) : (State.claimFollow s).pending = s.pending := by simp [State.claimFollow]
@[simp] theorem State.gaspSeen_pending (s : State) : (State.gaspSeen s).pending = s.pending := by simp [State.gaspSeen]
@[simp] theorem execGaspIn_pending (s : State) : pendingKept s (execGaspIn s) := by simp [execGaspIn]
@[simp] theorem execGaspInRelease_pending (s : State) : pendingKept s (execGaspInRelease s) := by simp [execGaspInRelease]
@[simp] theorem State.claimSeen_pending (s : State) (asserted : Bool) :
    (State.claimSeen s asserted).pending = s.pending := by simp [State.claimSeen]
@[simp] theorem execClaimMateChange_pending (asserted : Bool) (s : State) :
    pendingKept s (execClaimMateChange asserted s) := by simp [execClaimMateChange]
@[simp] theorem State.mateStart_pending (s : State) : (State.mateStart s).pending = s.pending := by
  simp [State.mateStart]
@[simp] theorem State.quorum_pending (s : State) : (State.quorum s).pending = s.pending := by simp [State.quorum]
@[simp] theorem State.mateSettle_pending (s : State) : (State.mateSettle s).pending = s.pending := by
  simp [State.mateSettle]
@[simp] theorem State.lossRule_pending (s : State) (v : MateSeen) : (State.lossRule s v).pending = s.pending := by
  simp [State.lossRule]
@[simp] theorem State.twinRule_pending (s : State) (v : MateSeen) : (State.twinRule s v).pending = s.pending := by
  simp [State.twinRule]
@[simp] theorem State.gaspRule_pending (s : State) : (State.gaspRule s).pending = s.pending := by
  unfold State.gaspRule; simp only []; split <;> simp
@[simp] theorem State.dxStop_pending (s : State) (l : Nat) : (State.dxStop s l).pending = s.pending := by
  simp [State.dxStop]
@[simp] theorem State.hbHinge_pending (s : State) : (State.hbHinge s).pending = s.pending := by simp [State.hbHinge]
@[simp] theorem State.mateHinge_pending (s : State) : (State.mateHinge s).pending = s.pending := by
  simp [State.mateHinge]
@[simp] theorem State.takeTiming_pending (s : State) : (State.takeTiming s).pending = s.pending := by
  unfold State.takeTiming; simp only []; split <;> simp
@[simp] theorem State.roleChanged_pending (s : State) (old : Nat) :
    (State.roleChanged s old).pending = s.pending := by simp [State.roleChanged]
@[simp] theorem State.rtsFail_pending (s : State) : (State.rtsFail s).pending = s.pending := by simp [State.rtsFail]
@[simp] theorem execRtsFail_pending (s : State) : pendingKept s (execRtsFail s) := by simp [execRtsFail]
@[simp] theorem State.joinAsk_pending (s : State) : (State.joinAsk s).pending = s.pending := by simp [State.joinAsk]
@[simp] theorem execJoin_pending (s : State) : pendingKept s (execJoin s) := by simp [execJoin]
@[simp] theorem State.pullAsk_pending (s : State) : (State.pullAsk s).pending = s.pending := by simp [State.pullAsk]
@[simp] theorem execMatePull_pending (s : State) : pendingKept s (execMatePull s) := by simp [execMatePull]
@[simp] theorem execRtsAlignDone_pending (s : State) : pendingKept s (execRtsAlignDone s) := by simp [execRtsAlignDone]
@[simp] theorem execRtsVerifyDone_pending (actD actS editD editS : W32) (s : State) :
    pendingKept s (execRtsVerifyDone actD actS editD editS s) := by
  unfold execRtsVerifyDone; simp only []; split <;> simp
@[simp] theorem execSpInitDone_pending (s : State) : pendingKept s (execSpInitDone s) := by simp [execSpInitDone]
@[simp] theorem State.stNext_pending (s : State) : (State.stNext s).pending = s.pending := by simp [State.stNext]
@[simp] theorem State.stFail_pending (s : State) (base : Nat) (march : List Nat) :
    (State.stFail s base march).pending = s.pending := by
  unfold State.stFail; simp only []; split <;> simp
@[simp] theorem State.stRestore_pending (s : State) (base : Nat) (bad : List Nat) :
    (State.stRestore s base bad).pending = s.pending := by
  unfold State.stRestore; simp only []; split <;> simp
@[simp] theorem execStLineTest_pending (r : LineResult) (s : State) :
    pendingKept s (execStLineTest r s) := by simp [execStLineTest]
@[simp] theorem execStStall_pending (s : State) : pendingKept s (execStStall s) := by simp [execStStall]
@[simp] theorem State.collide_pending (s : State) (word : Nat) :
    (State.collide s word).pending = s.pending := by simp [State.collide]
@[simp] theorem State.portBAccess_pending (s : State) (b : PortBAccess) (a : Option (Nat × List Byte)) :
    (State.portBAccess s b a).pending = s.pending := by
  unfold State.portBAccess; dsimp only; (repeat' split) <;> simp
@[simp] theorem State.drawersStop_pending (s : State) (n : Nat) :
    (State.drawersStop s n).pending = s.pending := by simp [State.drawersStop]
@[simp] theorem State.laneStop_pending (s : State) (n : Nat) :
    (State.laneStop s n).pending = s.pending := by simp [State.laneStop]
@[simp] theorem State.laneStart_pending (s : State) (n : Nat) :
    (State.laneStart s n).pending = s.pending := by simp [State.laneStart]
@[simp] theorem State.laneRate_pending (s : State) (n : Nat) :
    (State.laneRate s n).pending = s.pending := by simp [State.laneRate]
@[simp] theorem State.laneLoop_pending (s : State) (n : Nat) :
    (State.laneLoop s n).pending = s.pending := by simp [State.laneLoop]
@[simp] theorem State.laneSet_pending (s : State) (n : Nat) : (State.laneSet s n).pending = s.pending := by simp [State.laneSet]
@[simp] theorem State.laneDefects_pending (s : State) (n : Nat) :
    (State.laneDefects s n).pending = s.pending := by simp [State.laneDefects]
@[simp] theorem State.laneLatch_pending (s : State) (n : Nat) :
    (State.laneLatch s n).pending = s.pending := by simp [State.laneLatch]
@[simp] theorem State.drawersTurn_pending (s : State) : (State.drawersTurn s).pending = s.pending := by simp [State.drawersTurn]
@[simp] theorem State.lanesHinge_pending (s : State) : (State.lanesHinge s).pending = s.pending := by simp [State.lanesHinge]
@[simp] theorem State.pagesLost_pending (s : State) (d : Nat) :
    (State.pagesLost s d).pending = s.pending := by simp [State.pagesLost]
@[simp] theorem State.mgmtLost_pending (s : State) : (State.mgmtLost s).pending = s.pending := by simp [State.mgmtLost]
@[simp] theorem State.storesLost_pending (s : State) (d : Nat) :
    (State.storesLost s d).pending = s.pending := by simp [State.storesLost]
@[simp] theorem State.quadStops_pending (s : State) (d : Nat) :
    (State.quadStops s d).pending = s.pending := by simp [State.quadStops]
@[simp] theorem State.domainOff_pending (s : State) (d : Nat) :
    (State.domainOff s d).pending = s.pending := by simp [State.domainOff]
@[simp] theorem State.domainsOff_pending (s : State) (ds : List Nat) :
    (State.domainsOff s ds).pending = s.pending := by simp [State.domainsOff]
@[simp] theorem State.setMode_pending (s : State) (m : Nat) : (State.setMode s m).pending = s.pending := by simp [State.setMode]
@[simp] theorem State.wakeEnd_pending (s : State) : (State.wakeEnd s).pending = s.pending := by
  unfold State.wakeEnd; simp only []; split <;> simp
@[simp] theorem State.wakeMgmt_pending (s : State) : (State.wakeMgmt s).pending = s.pending := by
  unfold State.wakeMgmt; (repeat' split) <;> simp
@[simp] theorem State.pagesStart_pending (s : State) (d : Nat) :
    (State.pagesStart s d).pending = s.pending := by simp [State.pagesStart]
@[simp] theorem State.domainStart_pending (s : State) (d : Nat) :
    (State.domainStart s d).pending = s.pending := by simp [State.domainStart]
@[simp] theorem State.domainUp_pending (s : State) (d : Nat) :
    (State.domainUp s d).pending = s.pending := by simp [State.domainUp]
@[simp] theorem execDomainUsable_pending (d : Fin 56) (s : State) :
    pendingKept s (execDomainUsable d s) := by simp [execDomainUsable]
@[simp] theorem State.domEnWrite_pending (s : State) (hi : Bool) (v : Nat) :
    (State.domEnWrite s hi v).pending = s.pending := by simp [State.domEnWrite]
@[simp] theorem execDomEnWrite_pending (hi : Bool) (v : W32) (s : State) :
    pendingKept s (execDomEnWrite hi v s) := by simp [execDomEnWrite]
@[simp] theorem State.powerHinge_pending (s : State) : (State.powerHinge s).pending = s.pending := by simp [State.powerHinge]
@[simp] theorem execVinFail_pending (s : State) : pendingKept s (execVinFail s) := by simp [execVinFail]
@[simp] theorem State.shedAct_pending (s : State) (st : Nat) : (State.shedAct s st).pending = s.pending := by simp [State.shedAct]
@[simp] theorem execShed_pending (st : Fin 8) (run : Nat) (s : State) : pendingKept s (execShed st run s) := by simp [execShed]
@[simp] theorem execVinBack_pending (held : Nat) (s : State) : pendingKept s (execVinBack held s) := by simp [execVinBack]
@[simp] theorem State.bare_pending (s : State) : (State.bare s).pending = s.pending := by simp [State.bare]
@[simp] theorem execHoldupExhausted_pending (s : State) : pendingKept s (execHoldupExhausted s) := by simp [execHoldupExhausted]
@[simp] theorem execHoldup_pending (b : Bool) (s : State) : pendingKept s (execHoldup b s) := by simp [execHoldup]
@[simp] theorem execXtal_pending (b : Bool) (s : State) : pendingKept s (execXtal b s) := by simp [execXtal]
@[simp] theorem State.wake_pending (s : State) (cause : Nat) : (State.wake s cause).pending = s.pending := by simp [State.wake]
@[simp] theorem execWakeNEdge_pending (s : State) : pendingKept s (execWakeNEdge s) := by simp [execWakeNEdge]
@[simp] theorem execWakeTimerExpire_pending (run : Nat) (s : State) :
    pendingKept s (execWakeTimerExpire run s) := by simp [execWakeTimerExpire]
@[simp] theorem State.modeRequest_pending (s : State) (m : Nat) :
    (State.modeRequest s m).pending = s.pending := by simp [State.modeRequest]
@[simp] theorem execModeRequest_pending (req : BitVec 3) (s : State) :
    pendingKept s (execModeRequest req s) := by simp [execModeRequest]
@[simp] theorem State.mapsLost_pending (s : State) : (State.mapsLost s).pending = s.pending := by simp [State.mapsLost]
@[simp] theorem State.enterMode_pending (s : State) (m : Nat) :
    (State.enterMode s m).pending = s.pending := by simp [State.enterMode]
@[simp] theorem State.modeHinge_pending (s : State) : (State.modeHinge s).pending = s.pending := by
  unfold State.modeHinge; dsimp only; (repeat' split) <;> simp
@[simp] theorem State.abortOne_pending (s : State) (t : Nat) (f : Inflight) :
    (State.abortOne s t f).pending = s.pending := by simp [State.abortOne]
@[simp] theorem State.resetMasters_pending (s : State) (ms : List Nat) :
    (State.resetMasters s ms).pending = s.pending := by simp [State.resetMasters]
@[simp] theorem State.strap_pending (s : State) (st : Straps) : (State.strap s st).pending = s.pending := by simp [State.strap]
@[simp] theorem State.wipePending_pending (s : State) : (State.wipePending s).pending = s.pending := by
  unfold State.wipePending; (repeat' split) <;> simp
@[simp] theorem execPowerOn_pending (st : Straps) (s : State) : pendingKept s (execPowerOn st s) := by simp [execPowerOn]
@[simp] theorem State.heldInReset_pending (s : State) : (State.heldInReset s).pending = s.pending := by simp [State.heldInReset]
@[simp] theorem execResetNAssert_pending (s : State) : pendingKept s (execResetNAssert s) := by simp [execResetNAssert]
@[simp] theorem execResetNRelease_pending (st : Straps) (s : State) :
    pendingKept s (execResetNRelease st s) := by simp [execResetNRelease]
@[simp] theorem State.softMapc_pending (s : State) : (State.softMapc s).pending = s.pending := by simp [State.softMapc]
@[simp] theorem State.softLane_pending (s : State) (n : Nat) :
    (State.softLane s n).pending = s.pending := by simp [State.softLane]
@[simp] theorem State.softDrop_pending (s : State) : (State.softDrop s).pending = s.pending := by simp [State.softDrop]
@[simp] theorem State.holdPins_pending (s : State) : (State.holdPins s).pending = s.pending := rfl
@[simp] theorem State.softBegin_pending (s : State) : (State.softBegin s).pending = s.pending := by simp [State.softBegin]
@[simp] theorem State.softReset_pending (s : State) (key : Nat) :
    (State.softReset s key).pending = s.pending := by simp [State.softReset]
@[simp] theorem execSoftReset_pending (key : W32) (s : State) : pendingKept s (execSoftReset key s) := by simp [execSoftReset]
@[simp] theorem State.softEnd_pending (s : State) : (State.softEnd s).pending = s.pending := by simp [State.softEnd]
@[simp] theorem execSoftResetEnd_pending (s : State) : pendingKept s (execSoftResetEnd s) := by simp [execSoftResetEnd]
@[simp] theorem State.writeField_pending (s : State) (x : FSpec) (v i j : Nat) :
    (State.writeField s x v i j).pending = s.pending := by
  unfold State.writeField; simp only []; split <;> simp
@[simp] theorem State.writeFields_pending (s : State) (fs : List FSpec) (v i j : Nat) :
    (State.writeFields s fs v i j).pending = s.pending := by simp [State.writeFields]
@[simp] theorem State.writeFlags_pending (s : State) (fs : List FSpec) (v i j : Nat) :
    (State.writeFlags s fs v i j).pending = s.pending := by simp [State.writeFlags]
@[simp] theorem State.writeHdr_pending (s : State) (p : Page) (i : Nat) (r : RSpec) (j v : Nat) :
    (State.writeHdr s p i r j v).pending = s.pending := by
  unfold State.writeHdr; (repeat' split) <;> simp
@[simp] theorem State.writeGlobal_pending (s : State) (r : RSpec) (v : Nat) : (State.writeGlobal s r v).pending = s.pending := by
  unfold State.writeGlobal; (repeat' split) <;> simp
@[simp] theorem State.writePower_pending (s : State) (r : RSpec) (j v : Nat) :
    (State.writePower s r j v).pending = s.pending := by
  unfold State.writePower; (repeat' split) <;> simp
@[simp] theorem State.wmWrite_pending (s : State) (w v : Nat) :
    (State.wmWrite s w v).pending = s.pending := by simp [State.wmWrite]
@[simp] theorem State.writeEvent_pending (s : State) (r : RSpec) (j v : Nat) :
    (State.writeEvent s r j v).pending = s.pending := by
  unfold State.writeEvent; (repeat' split) <;> simp
@[simp] theorem State.writePerf_pending (s : State) (r : RSpec) (j v : Nat) : (State.writePerf s r j v).pending = s.pending := by
  unfold State.writePerf; simp only []; split <;> simp
@[simp] theorem State.threshWrite_pending (s : State) (r : RSpec) (v : Nat) :
    (State.threshWrite s r v).pending = s.pending := by simp [State.threshWrite]
@[simp] theorem State.writeTiming_pending (s : State) (r : RSpec) (j v : Nat) :
    (State.writeTiming s r j v).pending = s.pending := by
  unfold State.writeTiming; (repeat' split) <;> simp
@[simp] theorem State.actWrite_pending (s : State) (r : RSpec) (j v : Nat) :
    (State.actWrite s r j v).pending = s.pending := by simp [State.actWrite]
@[simp] theorem State.stepWrite_pending (s : State) (r : RSpec) (v : Nat) :
    (State.stepWrite s r v).pending = s.pending := by simp [State.stepWrite]
@[simp] theorem State.writeNtime_pending (s : State) (r : RSpec) (j v : Nat) :
    (State.writeNtime s r j v).pending = s.pending := by
  unfold State.writeNtime; (repeat' split) <;> simp
@[simp] theorem State.mateCtlWrite_pending (s : State) (r : RSpec) (v : Nat) :
    (State.mateCtlWrite s r v).pending = s.pending := by simp [State.mateCtlWrite]
@[simp] theorem State.writeMate_pending (s : State) (r : RSpec) (j v : Nat) : (State.writeMate s r j v).pending = s.pending := by
  unfold State.writeMate; (repeat' split) <;> simp
@[simp] theorem State.kick_pending (s : State) : (State.kick s).pending = s.pending := by simp [State.kick]
@[simp] theorem State.writeSeq_pending (s : State) (m : Nat) (r : RSpec) (v : Nat) :
    (State.writeSeq s m r v).pending = s.pending := by
  unfold State.writeSeq; simp only []; split <;> simp
@[simp] theorem State.writeSecure_pending (s : State) (r : RSpec) (j v : Nat) :
    (State.writeSecure s r j v).pending = s.pending := by
  unfold State.writeSecure; simp only []; split <;> simp
@[simp] theorem State.writeDramc_pending (s : State) (c : Nat) (r : RSpec) (j v : Nat) :
    (State.writeDramc s c r j v).pending = s.pending := by
  unfold State.writeDramc; (repeat' split) <;> simp
@[simp] theorem State.writeBench_pending (s : State) (r : RSpec) (v : Nat) : (State.writeBench s r v).pending = s.pending := by
  unfold State.writeBench; (repeat' split) <;> simp
@[simp] theorem State.laneCtlWrite_pending (s : State) (n v : Nat) :
    (State.laneCtlWrite s n v).pending = s.pending := by simp [State.laneCtlWrite]
@[simp] theorem State.eyeWrite_pending (s : State) (n : Nat) (r : RSpec) (v : Nat) :
    (State.eyeWrite s n r v).pending = s.pending := by simp [State.eyeWrite]
@[simp] theorem State.writeLanep_pending (s : State) (n : Nat) (r : RSpec) (j v : Nat) :
    (State.writeLanep s n r j v).pending = s.pending := by
  unfold State.writeLanep; (repeat' split) <;> simp
@[simp] theorem State.ptrWrite_pending (s : State) (n v : Nat) :
    (State.ptrWrite s n v).pending = s.pending := by simp [State.ptrWrite]
@[simp] theorem State.writeLanef_pending (s : State) (n : Nat) (r : RSpec) (j v : Nat) :
    (State.writeLanef s n r j v).pending = s.pending := by
  unfold State.writeLanef; simp only []; split <;> simp
@[simp] theorem State.listWrite_pending (s : State) (v : Nat) :
    (State.listWrite s v).pending = s.pending := by simp [State.listWrite]
@[simp] theorem State.writeMapc_pending (s : State) (r : RSpec) (j v : Nat) : (State.writeMapc s r j v).pending = s.pending := by
  unfold State.writeMapc; (repeat' split) <;> simp
@[simp] theorem State.writeProt_pending (s : State) (r : RSpec) (j v : Nat) : (State.writeProt s r j v).pending = s.pending := by
  unfold State.writeProt; simp only []; split <;> simp
@[simp] theorem State.writePort_pending (s : State) (p : Page) (r : RSpec) (j v : Nat) :
    (State.writePort s p r j v).pending = s.pending := by
  unfold State.writePort; simp only []; split <;> simp
@[simp] theorem State.writeEth_pending (s : State) (n : Nat) (r : RSpec) (j v : Nat) :
    (State.writeEth s n r j v).pending = s.pending := by
  unfold State.writeEth; (repeat' split) <;> simp
@[simp] theorem State.regSet_pending (s : State) (m : Nat) (p : Page) (i : Nat) (r : RSpec) (j v : Nat) :
    (State.regSet s m p i r j v).pending = s.pending := by
  unfold State.regSet; (repeat' split) <;> simp
@[simp] theorem State.regWrite_pending (s : State) (m a v : Nat) : (State.regWrite s m a v).1.pending = s.pending := by
  unfold State.regWrite; (repeat' split) <;> simp
@[simp] theorem State.clearRead_pending (s : State) (fs : List FSpec) (i j : Nat) :
    (State.clearRead s fs i j).pending = s.pending := by simp [State.clearRead]
@[simp] theorem State.regGet_pending (s : State) (user : Bool) (p : Page) (i : Nat) (r : RSpec) (j : Nat) :
    (State.regGet s user p i r j).1.pending = s.pending := by
  unfold State.regGet; (repeat' split) <;> simp
@[simp] theorem State.regRead_pending (s : State) (user : Bool) (a : Nat) : (State.regRead s user a).1.pending = s.pending := by
  unfold State.regRead; (repeat' split) <;> simp
@[simp] theorem State.hostWriteReg_pending (s : State) (a v : Nat) :
    (State.hostWriteReg s a v).pending = s.pending := by simp [State.hostWriteReg]
@[simp] theorem State.hostReadReg_pending (s : State) (user : Bool) (a : Nat) :
    (State.hostReadReg s user a).pending = s.pending := by simp [State.hostReadReg]
@[simp] theorem execRegWrite_pending (addr v : W32) (s : State) : pendingKept s (execRegWrite addr v s) := by simp [execRegWrite]
@[simp] theorem execRcRead_pending (user : Bool) (addr : W32) (s : State) :
    pendingKept s (execRcRead user addr s) := by simp [execRcRead]
@[simp] theorem execWord64LowerRead_pending (addr : W32) (s : State) :
    pendingKept s (execWord64LowerRead addr s) := by simp [execWord64LowerRead]
@[simp] theorem execWord64LowerWrite_pending (addr v : W32) (s : State) :
    pendingKept s (execWord64LowerWrite addr v s) := by simp [execWord64LowerWrite]
@[simp] theorem execWord64UpperWrite_pending (addr v : W32) (s : State) :
    pendingKept s (execWord64UpperWrite addr v s) := by simp [execWord64UpperWrite]
@[simp] theorem State.hwBit_pending (s : State) (p : Page) (i : Nat) (r : RSpec) (j : Nat) (x : FSpec) (b : Nat) :
    (State.hwBit s p i r j x b).pending = s.pending := by simp [State.hwBit]
@[simp] theorem State.hwSet_pending (s : State) (a set : Nat) : (State.hwSet s a set).pending = s.pending := by
  unfold State.hwSet; (repeat' split) <;> simp
@[simp] theorem execW1cWrite_pending (addr v set : W32) (s : State) :
    pendingKept s (execW1cWrite addr v set s) := by simp [execW1cWrite]
@[simp] theorem execPageLock_pending (p : Page) (i : Nat) (s : State) :
    pendingKept s (execPageLock p i s) := by simp [execPageLock]
@[simp] theorem State.portDone_pending (s : State) (p : Port) (c : PortCmd) : (State.portDone s p c).pending = s.pending := by
  unfold State.portDone; (repeat' split) <;> simp
@[simp] theorem execIndirectCommandDone_pending (p : Port) (s : State) : pendingKept s (execIndirectCommandDone p s) := by
  unfold execIndirectCommandDone; simp only []; split <;> simp
@[simp] theorem State.portAbandon_pending (s : State) (p : Port) : (State.portAbandon s p).pending = s.pending := by
  unfold State.portAbandon; simp only []; split <;> simp
@[simp] theorem execIndirectPortTimeout_pending (p : Port) (s : State) :
    pendingKept s (execIndirectPortTimeout p s) := by
  unfold execIndirectPortTimeout; simp only []; split <;> simp
@[simp] theorem State.bridgeRead_pending (user : Bool) (n a : Nat) (s : State) :
    (State.bridgeRead user n a s).s.pending = s.pending := by
  induction n generalizing a s with
  | zero => rfl
  | succ n ih => unfold State.bridgeRead; dsimp only; split <;> simp [ih]
@[simp] theorem State.bridgeWrite_pending (m n a : Nat) (bs : List Byte) (s : State) :
    (State.bridgeWrite m n a bs s).s.pending = s.pending := by
  induction n generalizing a bs s with
  | zero => rfl
  | succ n ih => unfold State.bridgeWrite; dsimp only; split <;> simp [ih]
@[simp] theorem State.bridge_pending (s : State) (r : BusReq) : (State.bridge s r).s.pending = s.pending := by
  unfold State.bridge; (repeat' split) <;> simp
@[simp] theorem State.atTarget_pending (s : State) (r : BusReq) : (State.atTarget s r).s.pending = s.pending := by
  unfold State.atTarget; (repeat' split) <;> simp
@[simp] theorem Resp.readZero_pending (t : Resp) (r : BusReq) : (t.readZero r).s.pending = t.s.pending := by
  unfold Resp.readZero; split <;> simp
@[simp] theorem State.noteErr_pending (s : State) (r : BusReq) (cause : Nat) :
    (State.noteErr s r cause).pending = s.pending := by simp [State.noteErr]
@[simp] theorem State.transact_pending (s : State) (r : BusReq) : (s.transact r).s.pending = s.pending := by
  simp only [State.transact, State.noteErr_pending, Resp.readZero_pending, State.atTarget_pending]; split <;> simp
@[simp] theorem State.forgetTag_pending (s : State) (tag : Nat) : (State.forgetTag s tag).pending = s.pending := (rfl)
@[simp] theorem State.complete_pending (s : State) (tag status : Nat) (data : List Byte) :
    (State.complete s tag status data).pending = s.pending := by simp [State.complete]
@[simp] theorem State.answer_pending (s : State) (r : BusReq) (data : List Byte) (cause : Nat) :
    (State.answer s r data cause).pending = s.pending := by
  unfold State.answer; simp only []; split <;> simp
@[simp] theorem State.enter_pending (s : State) (r : BusReq) : (State.enter s r).pending = s.pending := by simp [State.enter]
@[simp] theorem State.forward_pending (s : State) (side : ChainSide) (f : BitVec 96) :
    (State.forward s side f).pending = s.pending := by simp [State.forward]
@[simp] theorem State.chainRespond_pending (s : State) (side : ChainSide) (f : BitVec 96) (op data : Nat) :
    (State.chainRespond s side f op data).pending = s.pending := by simp [State.chainRespond]
@[simp] theorem State.chainEnqueue_pending (s : State) (side : ChainSide) (f : BitVec 96) :
    (State.chainEnqueue s side f).pending = s.pending := by simp [State.chainEnqueue]
@[simp] theorem State.chainCommand_pending (s : State) (side : ChainSide) (f : BitVec 96) :
    (State.chainCommand s side f).pending = s.pending := by simp [State.chainCommand]
@[simp] theorem State.chainBroadcast_pending (s : State) (side : ChainSide) (f : BitVec 96) :
    (State.chainBroadcast s side f).pending = s.pending := by simp [State.chainBroadcast]
@[simp] theorem State.acted_pending (s : State) (f : BitVec 96) : (State.acted s f).pending = s.pending := by simp [State.acted]
@[simp] theorem State.chainWakeIn_pending (s : State) (side : ChainSide) (f : BitVec 96) (own : Bool) :
    (State.chainWakeIn s side f own).pending = s.pending := by simp [State.chainWakeIn]
@[simp] theorem State.chainOwnFrame_pending (s : State) (side : ChainSide) (f : BitVec 96) :
    (State.chainOwnFrame s side f).pending = s.pending := by simp [State.chainOwnFrame]
@[simp] theorem State.chainBroadcastFrame_pending (s : State) (side : ChainSide) (f : BitVec 96) :
    (State.chainBroadcastFrame s side f).pending = s.pending := by simp [State.chainBroadcastFrame]
@[simp] theorem State.enumerate_pending (s : State) (f : BitVec 96) : (State.enumerate s f).1.pending = s.pending := by
  unfold State.enumerate; simp only []; split <;> simp
@[simp] theorem State.ringFrame_pending (s : State) (side : ChainSide) (f : BitVec 96) :
    (State.ringFrame s side f).pending = s.pending := by simp [State.ringFrame]
@[simp] theorem State.armFrame_pending (s : State) (side : ChainSide) (f : BitVec 96) :
    (State.armFrame s side f).pending = s.pending := by simp [State.armFrame]
@[simp] theorem State.chainIn_pending (s : State) (side : ChainSide) (f : BitVec 96) :
    (State.chainIn s side f).pending = s.pending := by simp [State.chainIn]
@[simp] theorem State.chainRow_pending (s : State) (op : Nat) (side : ChainSide) (f : BitVec 96) :
    (State.chainRow s op side f).pending = s.pending := by simp [State.chainRow]
@[simp] theorem execChainEnum_pending (f : BitVec 96) (s : State) : pendingKept s (execChainEnum f s) := by simp [execChainEnum]
@[simp] theorem execChainRd_pending (side : ChainSide) (f : BitVec 96) (s : State) :
    pendingKept s (execChainRd side f s) := by simp [execChainRd]
@[simp] theorem execChainWr_pending (side : ChainSide) (f : BitVec 96) (s : State) :
    pendingKept s (execChainWr side f s) := by simp [execChainWr]
@[simp] theorem execChainResetAddr_pending (side : ChainSide) (f : BitVec 96) (s : State) :
    pendingKept s (execChainResetAddr side f s) := by simp [execChainResetAddr]
@[simp] theorem execChainWake_pending (side : ChainSide) (f : BitVec 96) (s : State) :
    pendingKept s (execChainWake side f s) := by simp [execChainWake]
@[simp] theorem execChainForward_pending (side : ChainSide) (f : BitVec 96) (s : State) :
    pendingKept s (execChainForward side f s) := by simp [execChainForward]
@[simp] theorem State.chMismatch_pending (s : State) : (State.chMismatch s).pending = s.pending := by
  simp [State.chMismatch]
@[simp] theorem State.chainPop_pending (s : State) : (State.chainPop s).pending = s.pending := by simp [State.chainPop]
@[simp] theorem State.chainAnswer_pending (s : State) (side : ChainSide) (f : BitVec 96) (t : Resp) :
    (State.chainAnswer s side f t).pending = s.pending := by simp [State.chainAnswer]
@[simp] theorem State.chainExecute_pending (s : State) : (State.chainExecute s).pending = s.pending := by
  unfold State.chainExecute; simp only []; split <;> simp
@[simp] theorem execNotifyRepeat_pending (s : State) : pendingKept s (execNotifyRepeat s) := by
  unfold execNotifyRepeat; dsimp only; (repeat' split) <;> simp
@[simp] theorem execArmModeReturn_pending (s : State) : pendingKept s (execArmModeReturn s) := by simp [execArmModeReturn]
@[simp] theorem execTokInChange_pending (on : Bool) (s : State) :
    pendingKept s (execTokInChange on s) := by simp [execTokInChange]
@[simp] theorem execChainClockLoss_pending (g : ClockGap) (s : State) :
    pendingKept s (execChainClockLoss g s) := by simp [execChainClockLoss]
@[simp] theorem State.lockBy_pending (s : State) (r : BusReq) : (State.lockBy s r).pending = s.pending := by simp [State.lockBy]
@[simp] theorem State.lockFree_pending (s : State) (r : BusReq) :
    (State.lockFree s r).pending = s.pending := by simp [State.lockFree]
@[simp] theorem State.grantReq_pending (s : State) (r : BusReq) : (s.grantReq r).pending = s.pending := by
  unfold State.grantReq; dsimp only; split <;> simp
@[simp] theorem State.serveReq_pending (s : State) (r : BusReq) : (State.serveReq s r).pending = s.pending := by
  simp [State.serveReq]
@[simp] theorem State.grant_pending (s : State) (t : Nat) (r : BusReq) :
    (State.grant s t r).pending = s.pending := by simp [State.grant]
@[simp] theorem State.serveNext_pending (s : State) (m : Nat) (r : BusReq) :
    (State.serveNext s m r).pending = s.pending := by
  unfold State.serveNext; (repeat' split) <;> simp
@[simp] theorem execChainCmdExecute_pending (s : State) : pendingKept s (execChainCmdExecute s) := by
  unfold execChainCmdExecute; simp only []; split <;> simp
@[simp] theorem execTraceDrainWrite_pending (s : State) : pendingKept s (execTraceDrainWrite s) := by
  unfold execTraceDrainWrite; simp only []; split <;> simp
@[simp] theorem State.windowTake_pending (s : State) (r : BusReq) :
    (State.windowTake s r).pending = s.pending := by simp [State.windowTake]
@[simp] theorem State.windowAsk_pending (s : State) (r : BusReq) : (State.windowAsk s r).pending = s.pending := by
  simp [State.windowAsk]
@[simp] theorem execWindowWrite_pending (m : Master) (addr : W32) (data : List Byte) (s : State) :
    pendingKept s (execWindowWrite m addr data s) := by
  unfold execWindowWrite; dsimp only; (repeat' split) <;> simp
@[simp] theorem State.arbitrate_pending (s : State) (t : Nat) (b : Option PortBAccess) :
    (State.arbitrate s t b).pending = s.pending := by
  unfold State.arbitrate; dsimp only; (repeat' split) <;> simp
@[simp] theorem State.enterAll_pending (s : State) (rs : List MasterReq) :
    (State.enterAll s rs).pending = s.pending := by simp [State.enterAll]
@[simp] theorem execMatrixGrant_pending (t : Target) (rs : List MasterReq) (b : Option PortBAccess) (s : State) :
    pendingKept s (execMatrixGrant t rs b s) := by simp [execMatrixGrant]
@[simp] theorem State.endFlight_pending (s : State) (t : Nat) (x : Inflight) (cause : Nat) :
    (State.endFlight s t x cause).pending = s.pending := by simp [State.endFlight]
@[simp] theorem execMatrixResponse_pending (t : Target) (s : State) : pendingKept s (execMatrixResponse t s) := by
  unfold execMatrixResponse; simp only []; split <;> simp
@[simp] theorem State.matrixTimeout_pending (s : State) (t : Nat) : (State.matrixTimeout s t).pending = s.pending := by
  unfold State.matrixTimeout; simp only []; split <;> simp
@[simp] theorem execMatrixTimeout_pending (t : Target) (s : State) :
    pendingKept s (execMatrixTimeout t s) := by simp [execMatrixTimeout]
@[simp] theorem State.bridgeTmo_pending (s : State) : (State.bridgeTmo s).pending = s.pending := by
  unfold State.bridgeTmo; (repeat' split) <;> simp
@[simp] theorem execBridgeTmo_pending (s : State) : pendingKept s (execBridgeTmo s) := by simp [execBridgeTmo]
@[simp] theorem State.lockBrk_pending (s : State) (t : Nat) : (State.lockBrk s t).pending = s.pending := by
  unfold State.lockBrk; simp only []; split <;> simp
@[simp] theorem execLockBrk_pending (t : Target) (s : State) : pendingKept s (execLockBrk t s) := by simp [execLockBrk]
@[simp] theorem execWdKick_pending (key : W32) (s : State) : pendingKept s (execWdKick key s) := by simp [execWdKick]
@[simp] theorem State.wdFire_pending (s : State) : (State.wdFire s).pending = s.pending := by simp [State.wdFire]
@[simp] theorem execWdFired_pending (run : Nat) (s : State) : pendingKept s (execWdFired run s) := by simp [execWdFired]
@[simp] theorem execRemapWrite_pending (m : Master) (remap : Bool) (s : State) :
    pendingKept s (execRemapWrite m remap s) := by simp [execRemapWrite]
@[simp] theorem State.msixFlush_pending (s : State) : (State.msixFlush s).pending = s.pending := by simp [State.msixFlush]
@[simp] theorem State.tableWrite_pending (s : State) (o : Nat) (bs : List Byte) :
    (State.tableWrite s o bs).pending = s.pending := by simp [State.tableWrite]
@[simp] theorem State.pcieCfg_pending (s : State) (c : PcieCfg) : (State.pcieCfg s c).pending = s.pending := by
  unfold State.pcieCfg; simp only []; split <;> simp
@[simp] theorem execPcieConfigRequest_pending (c : PcieCfg) (s : State) :
    pendingKept s (execPcieConfigRequest c s) := by simp [execPcieConfigRequest]
@[simp] theorem State.endpointReset_pending (s : State) (released : Bool) :
    (State.endpointReset s released).pending = s.pending := by simp [State.endpointReset]
@[simp] theorem execPerstN_pending (e : PerstEvent) (s : State) : pendingKept s (execPerstN e s) := by
  unfold execPerstN; simp only []; split <;> simp
@[simp] theorem State.enterPieces_pending (s : State) (r : PcieReq) (user : Bool) (runs : List (Nat × Nat)) (pad : Nat) :
    (State.enterPieces s r user runs pad).pending = s.pending := by simp [State.enterPieces]
@[simp] theorem State.userError_pending (s : State) (r : PcieReq) (a : Nat) :
    (State.userError s r a).pending = s.pending := by simp [State.userError]
@[simp] theorem State.pcieServe_pending (s : State) (r : PcieReq) : (State.pcieServe s r).pending = s.pending := by
  unfold State.pcieServe; simp only []; split <;> simp
@[simp] theorem execPcieRequest_pending (r : PcieReq) (s : State) : pendingKept s (execPcieRequest r s) := by
  unfold execPcieRequest; simp only []; split <;> simp
@[simp] theorem execPcieCompletionTimeout_pending (tag : Nat) (s : State) :
    pendingKept s (execPcieCompletionTimeout tag s) := by simp [execPcieCompletionTimeout]
@[simp] theorem State.chainFlush_pending (limit n : Nat) (s : State) : (State.chainFlush limit n s).pending = s.pending := by
  induction n generalizing s with
  | zero => rfl
  | succ n ih => unfold State.chainFlush; dsimp only; split <;> simp [ih]
@[simp] theorem State.notifyTurn_pending (s : State) : (State.notifyTurn s).pending = s.pending := by simp [State.notifyTurn]
@[simp] theorem State.levelCount_pending (s : State) (p : Page) (i k n : Nat) : (s.levelCount p i k n).pending = s.pending := by
  unfold State.levelCount; dsimp only; (repeat' split) <;> simp
@[simp] theorem State.pageLevels_pending (s : State) (n : Nat) (x : Page × Nat) :
    (State.pageLevels s n x).pending = s.pending := by
  unfold State.pageLevels; (repeat' split) <;> simp
@[simp] theorem State.holdCount_pending (s : State) (n : Nat) :
    (State.holdCount s n).pending = s.pending := by simp [State.holdCount]
@[simp] theorem State.elapse_pending (s : State) (n : Nat) : (State.elapse s n).pending = s.pending := by simp [State.elapse]
@[simp] theorem State.cycleTurn_pending (s : State) : (State.cycleTurn s).pending = s.pending := by
  simp [State.cycleTurn]
@[simp] theorem State.tick_pending (s : State) : (State.tick s).pending = s.pending := by simp [State.tick]
@[simp] theorem State.laneCounts_pending (s : State) (u : LaneCols) :
    (State.laneCounts s u).pending = s.pending := by simp [State.laneCounts]
@[simp] theorem State.eqFrames_pending (s : State) (i : HingeIn) (u : Inputs) (groom : Bool) :
    (State.eqFrames s i u groom).1.pending = s.pending := by
  unfold State.eqFrames
  rw [foldl_fst_pending]
  intro t e; dsimp only; split
  · rfl
  · exact State.eqFrame_pending ..
@[simp] theorem State.legTurn_pending (s : State) (e : SlotEnv) (k : Nat) (at' : State) (x : Nat × Nat) :
    (State.legTurn s e k at' x).pending = s.pending := by simp [State.legTurn]
@[simp] theorem State.legsTurn_pending (s : State) (e : SlotEnv) (k : Nat) :
    (State.legsTurn s e k).pending = s.pending := by simp [State.legsTurn]
@[simp] theorem State.groomReport_pending (s : State) (old new : Nat) (moved : Bool) :
    (State.groomReport s old new moved).pending = s.pending := by simp [State.groomReport]
@[simp] theorem State.groomTake_pending (s : State) (k g : Nat) (b : List Byte) (par : Byte) :
    (State.groomTake s k g b par).pending = s.pending := by simp [State.groomTake]
@[simp] theorem State.groomDefault_pending (s : State) (k q : Nat) :
    (State.groomDefault s k q).pending = s.pending := by simp [State.groomDefault]
@[simp] theorem State.pwTake_pending (s : State) (k : Nat) (out : Nat → Col) :
    (State.pwTake s k out).pending = s.pending := by simp [State.pwTake]
@[simp] theorem State.benchTake_pending (s : State) (out : Nat → Col) :
    (State.benchTake s out).pending = s.pending := by simp [State.benchTake]
@[simp] theorem State.detReport_pending (s : State) (w : WordRef) : (State.detReport s w).pending = s.pending := by
  unfold State.detReport; dsimp only; (repeat' split) <;> simp
@[simp] theorem State.parReport_pending (s : State) (e : Fin 75 × Fin 36 × BitVec 13) :
    (State.parReport s e).pending = s.pending := by simp [State.parReport]
@[simp] theorem State.slotParReport_pending (s : State) (a : Nat) :
    (State.slotParReport s a).pending = s.pending := by simp [State.slotParReport]
@[simp] theorem State.detections_pending (s : State) (i : HingeIn) :
    (State.detections s i).pending = s.pending := by simp [State.detections]
@[simp] theorem State.sendOutputs_pending (s : State) (i : HingeIn) (u : Inputs) :
    (State.sendOutputs s i u).pending = s.pending := (rfl)
@[simp] theorem State.groomsTake_pending (s : State) (k : Nat) (keys : List Nat) (sent : SMap Col) (out : Nat → Col) :
    (State.groomsTake s k keys sent out).pending = s.pending := by simp [State.groomsTake]
@[simp] theorem State.fabricFrame_pending (s : State) (i : HingeIn) :
    (State.fabricFrame s i).pending = s.pending := by simp [State.fabricFrame]
@[simp] theorem State.nextFrameBegins_pending (s : State) :
    (State.nextFrameBegins s).pending = s.pending := by simp [State.nextFrameBegins]
@[simp] theorem State.moves_pending (old s : State) : (State.moves old s).pending = s.pending := by simp [State.moves]
@[simp] theorem State.eqTurns_pending (old s : State) : (State.eqTurns old s).1.pending = s.pending := by simp [State.eqTurns]
@[simp] theorem State.benchTurns_pending (s : State) : (State.benchTurns s).pending = s.pending := by simp [State.benchTurns]
@[simp] theorem State.decisions_pending (old s : State) : (State.decisions old s).pending = s.pending := by simp [State.decisions]
@[simp] theorem State.sourceChanges_pending (old s : State) (more : List Nat) :
    (State.sourceChanges old s more).pending = s.pending := by simp [State.sourceChanges]
@[simp] theorem State.mirrorSelTurn_pending (old s : State) (e : Nat × Sel) :
    (State.mirrorSelTurn old s e).pending = s.pending := by
  unfold State.mirrorSelTurn; split <;> simp
@[simp] theorem State.mirrorGrpTurn_pending (old s : State) (e : Nat × Sel) :
    (State.mirrorGrpTurn old s e).pending = s.pending := by
  unfold State.mirrorGrpTurn; split <;> simp
@[simp] theorem State.mirrorSels_pending (old s : State) : (State.mirrorSels old s).pending = s.pending :=
  foldl_pending (State.mirrorSelTurn old) _ _ (State.mirrorSelTurn_pending old)
@[simp] theorem State.mirrorGrps_pending (old s : State) : (State.mirrorGrps old s).pending = s.pending :=
  foldl_pending (State.mirrorGrpTurn old) _ _ (State.mirrorGrpTurn_pending old)
@[simp] theorem State.mirrorTurn_pending (old s : State) : (State.mirrorTurn old s).pending = s.pending :=
  (State.mirrorFrame_pending _).trans ((State.mirrorGrps_pending _ _).trans (State.mirrorSels_pending _ _))
@[simp] theorem State.trafficHinge_pending (old s : State) :
    (State.trafficHinge old s).pending = s.pending := by simp [State.trafficHinge]
@[simp] theorem State.clockTurn_pending (s : State) : (State.clockTurn s).pending = s.pending := by simp [State.clockTurn]
@[simp] theorem State.fillChecks_pending (s : State) (i : HingeIn) :
    (State.fillChecks s i).pending = s.pending := by simp [State.fillChecks]
@[simp] theorem State.changes_pending (old s : State) : (State.changes old s).pending = s.pending := by simp [State.changes]
@[simp] theorem State.hingeTurn_pending (s : State) (i : HingeIn) :
    (State.hingeTurn s i).pending = s.pending := by simp [State.hingeTurn]
@[simp] theorem execHinge_pending (i : HingeIn) (s : State) : pendingKept s (execHinge i s) := by simp [execHinge]
@[simp] theorem execMapInitDone_pending (s : State) : pendingKept s (execMapInitDone s) := by simp [execMapInitDone]

end Sys2Proof.Machine
end

