-- ==== Sys2Proof/Laws/Regs.lean ====
section
/-! SUPPORT. Lemmas about the register map: what a table holds, and all that a write or a read of a register can do. -/
namespace Sys2Proof.Machine

open Sys2Proof

/-- What a search of a table finds is in the table. -/
theorem findReg_mem {rs : List RSpec} {o : Nat} {r : RSpec} {j : Nat} (h : findReg rs o = some (r, j)) : r ∈ rs := by
  induction rs with
  | nil => cases h
  | cons a rs ih =>
    unfold findReg at h; split at h
    · cases h; simp
    · exact List.mem_cons_of_mem _ (ih h)

/-- The fields of a register begin at different bits below 64, and an RWL field stands alone in its register. -/
def tableOk (p : Page) : Bool := (regsHdr p ++ pageRegs p).all (fun r =>
  (r.fields.map (fun x => x.fld.lsb)).Nodup && r.fields.all (fun x => decide (x.fld.lsb < 64) && (x.acc != .rwl || r.fields.length == 1)))

/-- Every page's table is so. -/
theorem tables_ok : ∀ p : Page, tableOk p = true := by intro p; cases p <;> decide +kernel

/-- The fields of a register that an address names begin at different bits below 64; an RWL field stands alone. -/
theorem regOf_ok {p : Page} {i o : Nat} {r : RSpec} {j : Nat} (h : regOf p i o = some (r, j)) :
    (r.fields.map (fun x => x.fld.lsb)).Nodup ∧ ∀ x ∈ r.fields, x.fld.lsb < 64 ∧ (x.acc = .rwl → r.fields.length = 1) := by
  have m : r ∈ regsHdr p ++ pageRegs p := by
    unfold regOf at h; split at h
    · cases h
    · unfold regAt at h; split at h
      · exact List.mem_append_left _ (findReg_mem h)
      · exact List.mem_append_right _ (findReg_mem h)
  have t := tables_ok p
  unfold tableOk at t
  rw [List.all_eq_true] at t
  have := t r m
  simp only [Bool.and_eq_true, decide_eq_true_eq, List.all_eq_true, Bool.or_eq_true, bne_iff_ne, beq_iff_eq] at this
  exact ⟨this.1, fun x hx => ⟨(this.2 x hx).1, fun e => (this.2 x hx).2.resolve_left (fun n => n e)⟩⟩

/-- Fields that begin at different bits have different keys. -/
theorem key_ne {f g : Fld} {i j k l : Nat} (hf : f.lsb < 64) (hg : g.lsb < 64) (h : f.lsb ≠ g.lsb) : f.key i j ≠ g.key k l := by
  unfold Fld.key; omega

/-- Setting bits of a list of fields: other fields keep their value, each listed one gains its bits, nothing else changes. -/
theorem hwSet_fold (set i j : Nat) (l : List FSpec) (s : State) (nd : (l.map (fun x => x.fld.lsb)).Nodup) (hl : ∀ x ∈ l, x.fld.lsb < 64) :
    let t := l.foldl (fun s x => s.wr x.fld (s.rd x.fld i j ||| bits set x.fld.lsb x.fld.width) i j) s
    (∀ g : Fld, g.lsb < 64 → (∀ x ∈ l, x.fld.lsb ≠ g.lsb) → t.rd g i j = s.rd g i j) ∧
    (∀ x ∈ l, t.rd x.fld i j = (s.rd x.fld i j ||| bits set x.fld.lsb x.fld.width) % 2 ^ x.fld.width) ∧ t = { s with regs := t.regs } := by
  induction l generalizing s with
  | nil => exact ⟨fun _ _ _ => rfl, fun x hx => absurd hx (by simp), rfl⟩
  | cons x l ih =>
    intro t
    simp only [List.map_cons, List.nodup_cons, List.mem_map, not_exists, not_and] at nd
    have ih' := ih (s.wr x.fld (s.rd x.fld i j ||| bits set x.fld.lsb x.fld.width) i j) nd.2 (fun y hy => hl y (List.mem_cons_of_mem _ hy))
    refine ⟨fun g hg h => ?_, fun y hy => ?_, ?_⟩
    · refine (ih'.1 g hg (fun y hy => h y (List.mem_cons_of_mem _ hy))).trans ?_
      exact State.rd_wr_ne _ _ (key_ne hg (hl x (by simp)) (fun e => h x (by simp) e.symm))
    · rcases List.mem_cons.1 hy with rfl | hy
      · refine (ih'.1 y.fld (hl y (by simp)) (fun z hz e => nd.1 z hz e)).trans ?_
        exact State.rd_wr_same _ _ _ _ _
      · refine (ih'.2.1 y hy).trans ?_
        rw [State.rd_wr_ne _ _ (key_ne (hl y (List.mem_cons_of_mem _ hy)) (hl x (by simp)) (fun e => nd.1 y hy e))]
    · exact ih'.2.2.trans rfl

/-- A bit of a word is the bit of the field that holds it. -/
theorem bits_testBit (set lsb w b : Nat) (hb : b < w) (h : set.testBit (lsb + b) = true) : (bits set lsb w).testBit b = true := by
  unfold bits; rw [Nat.testBit_mod_two_pow, Nat.testBit_shiftRight, h]; simp [hb]

/-- A register that an address names is in the header table or the page's own. -/
theorem mem_of_regOf {p : Page} {i o : Nat} {r : RSpec} {j : Nat} (h : regOf p i o = some (r, j)) :
    r ∈ regsHdr p ∨ r ∈ pageRegs p := by
  unfold regOf at h; split at h
  · cases h
  · unfold regAt at h; split at h
    · exact .inl (findReg_mem h)
    · exact .inr (findReg_mem h)

/-- A register without a stride has index 0. -/
theorem findReg_j0 {rs : List RSpec} {o : Nat} {r : RSpec} {j : Nat} (h : findReg rs o = some (r, j)) (hs : r.stride = 0) : j = 0 := by
  induction rs with
  | nil => cases h
  | cons a rs ih =>
    unfold findReg at h; split at h
    · rename_i k hk
      cases h
      unfold regIndexAt at hk; rw [if_pos hs] at hk
      revert hk
      by_cases h1 : o < r.off <;> by_cases h2 : o < r.off + (if r.w64 then 8 else 4) <;> simp [h1, h2] <;> intro e <;> simp [*]
    · exact ih h

/-- A register without a stride is named with index 0. -/
theorem regOf_j0 {p : Page} {i o : Nat} {r : RSpec} {j : Nat} (h : regOf p i o = some (r, j)) (hs : r.stride = 0) : j = 0 := by
  unfold regOf at h; split at h
  · cases h
  · unfold regAt at h; split at h
    · exact findReg_j0 h hs
    · exact findReg_j0 h hs

theorem slot13 : ∀ b : Fin 13, ∀ p i, slotPage b.val = some (p, i) → pageCount p = 1 → i = 0 := by
  intro b p i h c
  have : ∀ b : Fin 13, (match slotPage b.val with | some (p, i) => (pageCount p != 1 || i == 0) | none => true) = true := by decide
  have t := this b
  rw [h] at t
  simpa [c] using t

/-- A page of one instance is named with instance 0. -/
theorem pageAt_i0 {a : Nat} {p : Page} {i o : Nat} (h : pageAt a = some (p, i, o)) (c : pageCount p = 1) : i = 0 := by
  unfold pageAt at h
  dsimp only at h
  split at h
  · rename_i hb
    split at h
    · rename_i p' i' e
      cases h
      exact slot13 ⟨a / 0x1000, by omega⟩ _ _ e c
    · cases h
  · (repeat' split at h) <;> simp only [Option.some.injEq, Prod.mk.injEq, reduceCtorEq] at h <;> obtain ⟨rfl, hi, _⟩ := h <;>
      first | exact absurd c (by decide) | exact hi.symm

theorem hdr_low' : ∀ p, (regsHdr p).all (fun r => decide (r.off < 0x100)) = true := by intro p; cases p <;> decide +kernel

/-- The header lies below 0x100. -/
theorem hdr_low (p : Page) (r : RSpec) (h : r ∈ regsHdr p) : r.off < 0x100 := by
  have := List.all_eq_true.1 (hdr_low' p) r h
  simpa using this

theorem page_high' : ∀ p, (pageRegs p).all (fun r => decide (0x100 ≤ r.off)) = true := by intro p; cases p <;> decide +kernel

/-- A page's own registers lie from 0x100 on. -/
theorem page_high (p : Page) (r : RSpec) (h : r ∈ pageRegs p) : ¬ r.off < 0x100 := by
  have := List.all_eq_true.1 (page_high' p) r h
  simp at this; omega

/-- Whether the pages whose writes name no index have only registers without a stride. -/
def strideless (p : Page) : Bool := match p with | .global | .seq | .bench => (pageRegs p).all (fun r => r.stride == 0) | _ => true

/-- They do. -/
theorem strideless_ok : ∀ p, strideless p = true := by intro p; cases p <;> decide +kernel

/-- A write of a header register that does no more than set fields sets them. -/
theorem writeHdr_plain (s : State) (p : Page) (i : Nat) (r : RSpec) (j v : Nat) (h : r.off ∉ writeActs p) :
    s.writeHdr p i r j v = s.writeFields r.fields v i j := by
  obtain ⟨off, st, ct, w, fs⟩ := r
  unfold State.writeHdr
  dsimp only at h ⊢
  split
  · exact absurd (by cases p <;> decide) h
  · exact absurd (by cases p <;> decide) h
  · rfl

/-- A write of a register that does no more than set fields sets them. -/
theorem regSet_plain (s : State) (m : Nat) {p : Page} {i o : Nat} {r : RSpec} {j : Nat} (v a : Nat) (hp : pageAt a = some (p, i, o))
    (hr : regOf p i o = some (r, j)) (h : r.off ∉ writeActs p) :
    s.regSet m p i r j v = s.writeFields r.fields v i j := by
  unfold State.regSet
  rcases mem_of_regOf hr with hm | hm
  · rw [if_pos (hdr_low p r hm)]; exact writeHdr_plain _ _ _ _ _ _ h
  · rw [if_neg (page_high p r hm)]
    have i0 := pageAt_i0 hp
    have j0 := regOf_j0 hr
    have sl := strideless_ok p
    have sl' : strideless p = true → (p = .global ∨ p = .seq ∨ p = .bench) → j = 0 := by
      intro q e
      refine j0 ?_
      unfold strideless at q
      rcases e with e | e | e <;> subst e <;> exact beq_iff_eq.1 (List.all_eq_true.1 q r hm)
    have sl := sl' sl
    clear sl' j0 hm hr hp
    obtain ⟨off, st, ct, w, fs⟩ := r
    cases p <;> dsimp only at h ⊢ <;> first
      | rfl
      | (have i0 := i0 rfl; subst i0
         have j0 := sl (by simp)
         subst j0
         first | unfold State.writeGlobal | unfold State.writeSeq | unfold State.writeBench
         dsimp only
         split <;> first | rfl | exact absurd (by decide) h)
      | (have i0 := i0 rfl; subst i0
         first | unfold State.writePower | unfold State.writeEvent | unfold State.writePerf | unfold State.writeTiming | unfold State.writeNtime |
           unfold State.writeMate | unfold State.writeSecure | unfold State.writeMapc | unfold State.writeProt
         dsimp only
         split <;> first | rfl | exact absurd (by decide) h)
      | (have i0 := i0 rfl; subst i0
         unfold State.writePort
         dsimp only
         split <;> first | rfl | exact absurd (by decide) h | contradiction)
      | (first | unfold State.writeDramc | unfold State.writeLanep | unfold State.writeLanef | unfold State.writeEth
         dsimp only
         split <;> first | rfl | exact absurd (by decide) h)

/-- A written field reads what its access type makes of the write (R10, R16). -/
theorem wField_rd_same (s : State) (x : FSpec) (v i j : Nat) :
    (s.writeField x v i j).rd x.fld i j = x.written (s.on (R.HDR_PAGE_CTL_LOCK x.fld.page) i) (s.rd x.fld i j) (v % 2 ^ x.fld.width) := by
  unfold State.writeField FSpec.written
  dsimp only
  cases x.acc <;> dsimp only
  case w1c => rw [State.rd_wr_same]
  case w1s => rw [State.rd_wr_same]
  case wo => rw [State.rd_wr_same, Nat.mod_mod]
  case rw => split
             · rw [State.rd_wr_same, Nat.mod_mod]
             · rfl
  case rws => split
              · rw [State.rd_wr_same, Nat.mod_mod]
              · rfl
  case rwl =>
    split
    · rfl
    · split
      · rw [State.rd_wr_same, Nat.mod_mod]
      · rfl

/-- A written field leaves every other key. -/
theorem wField_get (s : State) (x : FSpec) (v i j k : Nat) (h : k ≠ x.fld.key i j) : mapGet 0 (s.writeField x v i j).regs k = mapGet 0 s.regs k := by
  have q (n : Nat) : mapGet 0 (s.wr x.fld n i j).regs k = mapGet 0 s.regs k := mapGet_mapSet_ne _ _ _ h
  unfold State.writeField
  dsimp only
  cases x.acc <;> dsimp only <;> (repeat' split) <;> first | rfl | exact q _

/-- A written field changes nothing but registers. -/
theorem wField_frame (s : State) (x : FSpec) (v i j : Nat) : s.writeField x v i j = { s with regs := (s.writeField x v i j).regs } := by
  unfold State.writeField
  dsimp only
  cases x.acc <;> dsimp only <;> (repeat' split) <;> rfl

/-- A key with the same entry reads the same. -/
theorem rd_of_get {s t : State} {f : Fld} {i j : Nat} (h : mapGet 0 t.regs (f.key i j) = mapGet 0 s.regs (f.key i j)) : t.rd f i j = s.rd f i j := by
  unfold State.rd; rw [h]

/-- Everything that a write of fields can do: each reads what its access type makes of it, nothing else changes. -/
theorem writeFields_all (v i j : Nat) (l : List FSpec) (s : State) (nd : (l.map (fun x => x.fld.lsb)).Nodup) (hl : ∀ x ∈ l, x.fld.lsb < 64)
    (lk : ∀ x ∈ l, x.acc = .rwl → l.length = 1) :
    let t := s.writeFields l v i j
    (∀ k, (∀ x ∈ l, k ≠ x.fld.key i j) → mapGet 0 t.regs k = mapGet 0 s.regs k) ∧
    (∀ x ∈ l, t.rd x.fld i j =
      x.written (s.on (R.HDR_PAGE_CTL_LOCK x.fld.page) i) (s.rd x.fld i j) (v / 2 ^ x.fld.lsb % 2 ^ x.fld.width)) ∧
    t = { s with regs := t.regs } := by
  induction l generalizing s with
  | nil => exact ⟨fun _ _ => rfl, fun x hx => absurd hx (by simp), rfl⟩
  | cons x l ih =>
    intro t
    simp only [List.map_cons, List.nodup_cons, List.mem_map, not_exists, not_and] at nd
    have kn (y : FSpec) (hy : y ∈ l) : y.fld.key i j ≠ x.fld.key i j :=
      key_ne (hl y (List.mem_cons_of_mem _ hy)) (hl x (by simp)) (fun e => nd.1 y hy e)
    have rk (y : FSpec) (hy : y ∈ l) : (s.writeField x (v / 2 ^ x.fld.lsb) i j).rd y.fld i j = s.rd y.fld i j :=
      rd_of_get (wField_get _ _ _ _ _ _ (kn y hy))
    have ih' := ih (s.writeField x (v / 2 ^ x.fld.lsb) i j) nd.2 (fun y hy => hl y (List.mem_cons_of_mem _ hy))
      (fun y hy e => by have q := lk y (List.mem_cons_of_mem _ hy) e; simp at q; subst q; exact absurd hy (by simp))
    refine ⟨fun k hk => ?_, fun y hy => ?_, ?_⟩
    · refine (ih'.1 k (fun y hy => hk y (List.mem_cons_of_mem _ hy))).trans ?_
      exact wField_get _ _ _ _ _ _ (hk x (by simp))
    · rcases List.mem_cons.1 hy with rfl | hy
      · refine (rd_of_get (ih'.1 (y.fld.key i j) (fun z hz e => kn z hz e.symm))).trans ?_
        exact wField_rd_same _ _ _ _ _
      · refine (ih'.2.1 y hy).trans ?_
        rw [rk y hy]
        have nl : y.acc ≠ .rwl := fun e => by have q := lk y (List.mem_cons_of_mem _ hy) e; simp at q; subst q; exact absurd hy (by simp)
        unfold FSpec.written
        revert nl
        cases y.acc <;> simp
    · have g : ∀ q, { s.writeField x (v / 2 ^ x.fld.lsb) i j with regs := q } = { s with regs := q } := fun q => by rw [wField_frame s x]
      exact ih'.2.2.trans (g _)

/-- Clearing a list of fields leaves every other key and everything that is no register. -/
theorem clearRead_all (i j : Nat) (l : List FSpec) (s : State) :
    let t := l.foldl (fun (s : State) x => s.wr x.fld 0 i j) s
    (∀ k, (∀ x ∈ l, k ≠ x.fld.key i j) → mapGet 0 t.regs k = mapGet 0 s.regs k) ∧ t = { s with regs := t.regs } := by
  induction l generalizing s with
  | nil => exact ⟨fun _ _ => rfl, rfl⟩
  | cons x l ih =>
    intro t
    have ih' := ih (s.wr x.fld 0 i j)
    exact ⟨fun k hk => (ih'.1 k (fun y hy => hk y (List.mem_cons_of_mem _ hy))).trans (mapGet_mapSet_ne _ _ _ (hk x (by simp))),
      ih'.2.trans rfl⟩

/-- A cleared field reads 0. -/
theorem clearRead_zero (i j : Nat) (l : List FSpec) (s : State) (nd : (l.map (fun x => x.fld.lsb)).Nodup) (hl : ∀ x ∈ l, x.fld.lsb < 64) :
    ∀ x ∈ l, (l.foldl (fun (s : State) x => s.wr x.fld 0 i j) s).rd x.fld i j = 0 := by
  induction l generalizing s with
  | nil => intro x hx; cases hx
  | cons x l ih =>
    simp only [List.map_cons, List.nodup_cons, List.mem_map, not_exists, not_and] at nd
    intro y hy
    rcases List.mem_cons.1 hy with rfl | hy
    · refine (rd_of_get ((clearRead_all i j l (s.wr y.fld 0 i j)).1 (y.fld.key i j) (fun z hz => ?_))).trans ?_
      · exact key_ne (hl y (by simp)) (hl z (List.mem_cons_of_mem _ hz)) (fun e => nd.1 z hz e.symm)
      · rw [State.rd_wr_same]; exact Nat.zero_mod _
    · exact ih _ nd.2 (fun z hz => hl z (List.mem_cons_of_mem _ hz)) y hy

/-- A read that takes nothing gives the word and clears what reading clears. -/
theorem regGet_plain (s : State) (user : Bool) (p : Page) (i : Nat) (r : RSpec) (j : Nat) (h : r.off ∉ readActs p)
    (ha : r.fields.any (fun x => adcFld x.fld) = false) :
    s.regGet user p i r j = (if user then s else s.clearRead r.fields i j, s.word r.fields i j) := by
  obtain ⟨off, st, ct, w, fs⟩ := r
  unfold State.regGet
  dsimp only at h ha ⊢
  split
  · exact absurd (by decide) h
  · exact absurd (by decide) h
  · exact absurd (by decide) h
  · rw [ha]; rfl

/-- A field is placed where these numbers say so. -/
theorem placed_of {f : Fld} {i j : Nat}
    (h : (decide (i < pageCount f.page) && decide (f.off + f.stride * j < 0x1000) && decide (f.lsb < 64)) = true) : f.Placed i j := by
  simp only [Bool.and_eq_true, decide_eq_true_eq] at h; exact ⟨h.1.1, h.1.2, h.2⟩

/-- Raising an event leaves a field of a page's own registers, EVENT apart. -/
theorem State.rd_raise_own {s : State} {p : Page} {i b : Nat} {g : Fld} {x y : Nat}
    (h : (decide (i < pageCount p) &&
      (decide (x < pageCount g.page) && decide (g.off + g.stride * y < 0x1000) && decide (g.lsb < 64)) &&
      decide (0x100 ≤ g.off) && decide (g.page ≠ .event)) = true) : (s.raise p i b).rd g x y = s.rd g x y := by
  simp only [Bool.and_eq_true, decide_eq_true_eq] at h
  exact State.rd_raise _ _ _ _ _ _ h.1.1.1 ⟨h.1.1.2.1.1, h.1.1.2.1.2, h.1.1.2.2⟩ h.1.2 h.2

/-- Counting leaves a field of a page's own registers, EVENT apart. -/
theorem State.rd_count_own {s : State} {p : Page} {i c n : Nat} {g : Fld} {x y : Nat}
    (h : (decide (i < pageCount p) &&
      (decide (x < pageCount g.page) && decide (g.off + g.stride * y < 0x1000) && decide (g.lsb < 64)) &&
      decide (0x100 ≤ g.off) && decide (g.page ≠ .event)) = true) : (s.count p i c n).rd g x y = s.rd g x y := by
  simp only [Bool.and_eq_true, decide_eq_true_eq] at h
  exact State.rd_count _ _ _ _ _ _ _ h.1.1.1 ⟨h.1.1.2.1.1, h.1.1.2.1.2, h.1.1.2.2⟩ h.1.2 h.2

end Sys2Proof.Machine
end

