-- ==== Sys2Proof/Laws/Start.lean ====
section
/-! SUPPORT. What a meaning reads does not depend on what left the block before: every reader gives the same on the state that a
command starts from. -/
namespace Sys2Proof.Machine
variable (s : State)

@[simp] theorem State.start_now : State.now s.start = State.now s := (rfl)
@[simp] theorem State.start_mode : State.mode s.start = State.mode s := (rfl)
@[simp] theorem State.start_epoch : State.epoch s.start = State.epoch s := (rfl)
@[simp] theorem State.start_frozen : State.frozen s.start = State.frozen s := (rfl)
@[simp] theorem State.start_pagePend (p : Page) (i : Nat) : State.pagePend s.start p i = State.pagePend s p i := (rfl)
@[simp] theorem State.start_grpPend (g : Nat) : State.grpPend s.start g = State.grpPend s g := (rfl)
@[simp] theorem State.start_ownSide : State.ownSide s.start = State.ownSide s := (rfl)
@[simp] theorem State.start_notifyGroups : State.notifyGroups s.start = State.notifyGroups s := (rfl)
@[simp] theorem State.start_wmLevel (mapcFill : Nat) (w : Nat) :
    State.wmLevel s.start mapcFill w = State.wmLevel s mapcFill w := (rfl)
@[simp] theorem State.start_requested (d : Nat) : State.requested s.start d = State.requested s d := (rfl)
@[simp] theorem State.start_serves (d : Nat) : State.serves s.start d = State.serves s d := (rfl)
@[simp] theorem State.start_since (t : Timer) : State.since s.start t = State.since s t := (rfl)
@[simp] theorem State.start_ran (t : Timer) (n : Nat) : State.ran s.start t n = State.ran s t n := (rfl)
@[simp] theorem State.start_heldFor (k : Nat) : State.heldFor s.start k = State.heldFor s k := (rfl)
@[simp] theorem State.start_stMay : State.stMay s.start = State.stMay s := (rfl)
@[simp] theorem State.start_dfabReady : State.dfabReady s.start = State.dfabReady s := (rfl)
@[simp] theorem State.start_quadReady (q : Nat) : State.quadReady s.start q = State.quadReady s q := (rfl)
@[simp] theorem State.start_dramUp : State.dramUp s.start = State.dramUp s := (rfl)
@[simp] theorem State.start_readyWord : State.readyWord s.start = State.readyWord s := (rfl)
@[simp] theorem State.start_spByte (o : Nat) : State.spByte s.start o = State.spByte s o := (rfl)
@[simp] theorem State.start_spBytes (o : Nat) (n : Nat) : State.spBytes s.start o n = State.spBytes s o n := (rfl)
@[simp] theorem State.start_spDetect (o : Nat) (n : Nat) : State.spDetect s.start o n = State.spDetect s o n := (rfl)
@[simp] theorem State.start_lane (n : Nat) : State.lane s.start n = State.lane s n := (rfl)
@[simp] theorem State.start_drw (n : Nat) (c : Nat) : State.drw s.start n c = State.drw s n c := (rfl)
@[simp] theorem State.start_running (n : Nat) : State.running s.start n = State.running s n := (rfl)
@[simp] theorem State.start_inSync (n : Nat) : State.inSync s.start n = State.inSync s n := (rfl)
@[simp] theorem State.start_rate (n : Nat) : State.rate s.start n = State.rate s n := (rfl)
@[simp] theorem State.start_laneRaw (n : Nat) : State.laneRaw s.start n = State.laneRaw s n := (rfl)
@[simp] theorem State.start_laneDef (n : Nat) : State.laneDef s.start n = State.laneDef s n := (rfl)
@[simp] theorem State.start_nearLoop (n : Nat) : State.nearLoop s.start n = State.nearLoop s n := (rfl)
@[simp] theorem State.start_actionA (n : Nat) : State.actionA s.start n = State.actionA s n := (rfl)
@[simp] theorem State.start_actionBOf (n : Nat) (d : Nat) : State.actionBOf s.start n d = State.actionBOf s n d := (rfl)
@[simp] theorem State.start_actionB (n : Nat) : State.actionB s.start n = State.actionB s n := (rfl)
@[simp] theorem State.start_laneFailed (n : Nat) : State.laneFailed s.start n = State.laneFailed s n := (rfl)
@[simp] theorem State.start_integRun (since : Nat) : State.integRun s.start since = State.integRun s since := (rfl)
@[simp] theorem State.start_laneRun (n : Nat) (b : Nat) : State.laneRun s.start n b = State.laneRun s n b := (rfl)
@[simp] theorem State.start_losCond (n : Nat) : State.losCond s.start n = State.losCond s n := (rfl)
@[simp] theorem State.start_lolCond (n : Nat) : State.lolCond s.start n = State.lolCond s n := (rfl)
@[simp] theorem State.start_dxRx (l : Nat) : State.dxRx s.start l = State.dxRx s l := (rfl)
@[simp] theorem State.start_dxSound (l : Nat) : State.dxSound s.start l = State.dxSound s l := (rfl)
@[simp] theorem State.start_mayDeclare (n : Nat) (b : Nat) : State.mayDeclare s.start n b = State.mayDeclare s n b := (rfl)
@[simp] theorem State.start_mayClear (n : Nat) (b : Nat) : State.mayClear s.start n b = State.mayClear s n b := (rfl)
@[simp] theorem State.start_drwAtOnce (n : Nat) : State.drwAtOnce s.start n = State.drwAtOnce s n := (rfl)
@[simp] theorem State.start_mayDeclareDrw (n : Nat) (c : Nat) (b : Nat) :
    State.mayDeclareDrw s.start n c b = State.mayDeclareDrw s n c b := (rfl)
@[simp] theorem State.start_mayClearDrw (n : Nat) (c : Nat) (b : Nat) :
    State.mayClearDrw s.start n c b = State.mayClearDrw s n c b := (rfl)
@[simp] theorem State.start_mayEnable (n : Nat) : State.mayEnable s.start n = State.mayEnable s n := (rfl)
@[simp] theorem State.start_inGroup (n : Nat) : State.inGroup s.start n = State.inGroup s n := (rfl)
@[simp] theorem State.start_searching (n : Nat) : State.searching s.start n = State.searching s n := (rfl)
@[simp] theorem State.start_dxSearching (l : Nat) : State.dxSearching s.start l = State.dxSearching s l := (rfl)
@[simp] theorem State.start_rdTrace (f : Fld) (n : Nat) : State.rdTrace s.start f n = State.rdTrace s f n := (rfl)
@[simp] theorem State.start_txInv (n : Nat) : State.txInv s.start n = State.txInv s n := (rfl)
@[simp] theorem State.start_rxInv (n : Nat) : State.rxInv s.start n = State.rxInv s n := (rfl)
@[simp] theorem State.start_loopBits (n : Nat) (t : List Bool × Nat) : State.loopBits s.start n t = State.loopBits s n t := (rfl)
@[simp] theorem State.start_active : State.active s.start = State.active s := (rfl)
@[simp] theorem State.start_unitByte : State.unitByte s.start = State.unitByte s := (rfl)
@[simp] theorem State.start_sendsAis (n : Nat) : State.sendsAis s.start n = State.sendsAis s n := (rfl)
@[simp] theorem State.start_lo12 (n : Nat) : State.lo12 s.start n = State.lo12 s n := (rfl)
@[simp] theorem State.start_traceTx (n : Nat) (i : Nat) : State.traceTx s.start n i = State.traceTx s n i := (rfl)
@[simp] theorem State.start_overhead (n : Nat) (cell : List Byte) : State.overhead s.start n cell = State.overhead s n cell := (rfl)
@[simp] theorem State.start_fabricPayload (n : Nat) : State.fabricPayload s.start n = State.fabricPayload s n := (rfl)
@[simp] theorem State.start_txPayload (n : Nat) (lo : List Byte) : State.txPayload s.start n lo = State.txPayload s n lo := (rfl)
@[simp] theorem State.start_laneDrive (n : Nat) : State.laneDrive s.start n = State.laneDrive s n := (rfl)
@[simp] theorem State.start_laneTerminated (n : Nat) : State.laneTerminated s.start n = State.laneTerminated s n := (rfl)
@[simp] theorem State.start_drwCfgWord (n : Nat) : State.drwCfgWord s.start n = State.drwCfgWord s n := (rfl)
@[simp] theorem State.start_quarterOn (q : Nat) : State.quarterOn s.start q = State.quarterOn s q := (rfl)
@[simp] theorem State.start_void (a : Nat) : State.void s.start a = State.void s a := (rfl)
@[simp] theorem State.start_voidPort (p : Nat) : State.voidPort s.start p = State.voidPort s p := (rfl)
@[simp] theorem State.start_channelUp (c : Nat) : State.channelUp s.start c = State.channelUp s c := (rfl)
@[simp] theorem State.start_trained (c : Nat) : State.trained s.start c = State.trained s c := (rfl)
@[simp] theorem State.start_dramReady : State.dramReady s.start = State.dramReady s := (rfl)
@[simp] theorem State.start_dramCfg (c : Nat) : State.dramCfg s.start c = State.dramCfg s c := (rfl)
@[simp] theorem State.start_channelGiB (c : Nat) : State.channelGiB s.start c = State.channelGiB s c := (rfl)
@[simp] theorem State.start_dramCfgBad (c : Nat) : State.dramCfgBad s.start c = State.dramCfgBad s c := (rfl)
@[simp] theorem State.start_dramMismatch : State.dramMismatch s.start = State.dramMismatch s := (rfl)
@[simp] theorem State.start_dramRefused (c : Nat) : State.dramRefused s.start c = State.dramRefused s c := (rfl)
@[simp] theorem State.start_eqCap : State.eqCap s.start = State.eqCap s := (rfl)
@[simp] theorem State.start_windowAddr (a : Nat) : State.windowAddr s.start a = State.windowAddr s a := (rfl)
@[simp] theorem State.start_allowedGroups : State.allowedGroups s.start = State.allowedGroups s := (rfl)
@[simp] theorem State.start_groupEmpty (g : Nat) : State.groupEmpty s.start g = State.groupEmpty s g := (rfl)
@[simp] theorem State.start_editView : State.editView s.start = State.editView s := (rfl)
@[simp] theorem State.start_bank (edit : Bool) : State.bank s.start edit = State.bank s edit := (rfl)
@[simp] theorem State.start_imageOf (edit : Bool) : State.imageOf s.start edit = State.imageOf s edit := (rfl)
@[simp] theorem State.start_oldestDirty (edit : Bool) (x : Nat) :
    State.oldestDirty s.start edit x = State.oldestDirty s edit x := (rfl)
@[simp] theorem State.start_storedWord (b : Bank) (slotFabric : Bool) (i : Nat) :
    State.storedWord s.start b slotFabric i = State.storedWord s b slotFabric i := (rfl)
@[simp] theorem State.start_cmBytes (slotFabric : Bool) (o : Nat) (len : Nat) :
    State.cmBytes s.start slotFabric o len = State.cmBytes s slotFabric o len := (rfl)
@[simp] theorem State.start_timeAt (now : Nat) : State.timeAt s.start now = State.timeAt s now := (rfl)
@[simp] theorem State.start_time : State.time s.start = State.time s := (rfl)
@[simp] theorem State.start_labelsFromMate : State.labelsFromMate s.start = State.labelsFromMate s := (rfl)
@[simp] theorem State.start_labelOf (j : Nat) : State.labelOf s.start j = State.labelOf s j := (rfl)
@[simp] theorem State.start_hostDecides : State.hostDecides s.start = State.hostDecides s := (rfl)
@[simp] theorem State.start_compilerOpen : State.compilerOpen s.start = State.compilerOpen s := (rfl)
@[simp] theorem State.start_enforced : State.enforced s.start = State.enforced s := (rfl)
@[simp] theorem State.start_queueFill : State.queueFill s.start = State.queueFill s := (rfl)
@[simp] theorem State.start_cutDue : State.cutDue s.start = State.cutDue s := (rfl)
@[simp] theorem State.start_editHeld : State.editHeld s.start = State.editHeld s := (rfl)
@[simp] theorem State.start_mayTake (r : Req) : State.mayTake s.start r = State.mayTake s r := (rfl)
@[simp] theorem State.start_connect (w : Nat) : State.connect s.start w = State.connect s w := (rfl)
@[simp] theorem State.start_setPlain (new : Nat) (w : Nat) : State.setPlain s.start new w = State.setPlain s new w := (rfl)
@[simp] theorem State.start_slotReq (w : Nat) : State.slotReq s.start w = State.slotReq s w := (rfl)
@[simp] theorem State.start_constReq (w : Nat) : State.constReq s.start w = State.constReq s w := (rfl)
@[simp] theorem State.start_hearReq (w : Nat) : State.hearReq s.start w = State.hearReq s w := (rfl)
@[simp] theorem State.start_partyReq (w : Nat) : State.partyReq s.start w = State.partyReq s w := (rfl)
@[simp] theorem State.start_fabricOn : State.fabricOn s.start = State.fabricOn s := (rfl)
@[simp] theorem State.start_authHeld : State.authHeld s.start = State.authHeld s := (rfl)
@[simp] theorem State.start_idHeld : State.idHeld s.start = State.idHeld s := (rfl)
@[simp] theorem State.start_tagBytes (f : Fld) : State.tagBytes s.start f = State.tagBytes s f := (rfl)
@[simp] theorem State.start_authSeq : State.authSeq s.start = State.authSeq s := (rfl)
@[simp] theorem State.start_keyIn : State.keyIn s.start = State.keyIn s := (rfl)
@[simp] theorem State.start_mayLoad (used : Bool) : State.mayLoad s.start used = State.mayLoad s used := (rfl)
@[simp] theorem State.start_row : State.row s.start = State.row s := (rfl)
@[simp] theorem State.start_absRow : State.absRow s.start = State.absRow s := (rfl)
@[simp] theorem State.start_mateListens : State.mateListens s.start = State.mateListens s := (rfl)
@[simp] theorem State.start_recSlot : State.recSlot s.start = State.recSlot s := (rfl)
@[simp] theorem State.start_releaseRow : State.releaseRow s.start = State.releaseRow s := (rfl)
@[simp] theorem State.start_pushFill : State.pushFill s.start = State.pushFill s := (rfl)
@[simp] theorem State.start_fetchDue : State.fetchDue s.start = State.fetchDue s := (rfl)
@[simp] theorem State.start_nextFrame : State.nextFrame s.start = State.nextFrame s := (rfl)
@[simp] theorem State.start_groom (g : Nat) : State.groom s.start g = State.groom s g := (rfl)
@[simp] theorem State.start_idleCode (w : Nat) : State.idleCode s.start w = State.idleCode s w := (rfl)
@[simp] theorem State.start_SlotEnv_places (e : SlotEnv) (g : Nat) (sl : Nat) :
    SlotEnv.places e s.start g sl = SlotEnv.places e s g sl := (rfl)
@[simp] theorem State.start_live (g : Nat) : State.live s.start g = State.live s g := (rfl)
@[simp] theorem State.start_partySample (e : SlotEnv) (v : Nat → Taken) (b : Nat) (p : Nat) :
    partySample s.start e v b p = partySample s e v b p := (rfl)
@[simp] theorem State.start_legSum (e : SlotEnv) (v : Nat → Taken) (b : Nat) (p : Nat) :
    legSum s.start e v b p = legSum s e v b p := (rfl)
@[simp] theorem State.start_legByte (e : SlotEnv) (v : Nat → Taken) (w : Nat) : legByte s.start e v w = legByte s e v w := (rfl)
@[simp] theorem State.start_groomH (g : Nat) : groomH s.start g = groomH s g := (rfl)
@[simp] theorem State.start_groomK : groomK s.start = groomK s := (rfl)
@[simp] theorem State.start_groomRow (slot : Nat → Byte) (g : Nat) (r : Nat) :
    groomRow s.start slot g r = groomRow s slot g r := (rfl)
@[simp] theorem State.start_SlotEnv_rowByte (e : SlotEnv) (slot : Nat → Nat → Byte) (gi : Nat) (r : Nat) :
    SlotEnv.rowByte e s.start slot gi r = SlotEnv.rowByte e s slot gi r := (rfl)
@[simp] theorem State.start_slotValue (e : SlotEnv) (slot : Nat → Nat → Byte) (k : Nat) (o : Nat) (src : Nat) :
    slotValue s.start e slot k o src = slotValue s e slot k o src := (rfl)
@[simp] theorem State.start_slotTake (e : SlotEnv) (slot : Nat → Nat → Byte) (k : Nat) (o : Nat) (src : Nat) :
    slotTake s.start e slot k o src = slotTake s e slot k o src := (rfl)
@[simp] theorem State.start_liveList : State.liveList s.start = State.liveList s := (rfl)
@[simp] theorem State.start_legs : State.legs s.start = State.legs s := (rfl)
@[simp] theorem State.start_bench (b : Nat) : State.bench s.start b = State.bench s b := (rfl)
@[simp] theorem State.start_benchCfgWord : State.benchCfgWord s.start = State.benchCfgWord s := (rfl)
@[simp] theorem State.start_sel (a : Nat) : State.sel s.start a = State.sel s a := (rfl)
@[simp] theorem State.start_grp (g : Nat) : State.grp s.start g = State.grp s g := (rfl)
@[simp] theorem State.start_decides : State.decides s.start = State.decides s := (rfl)
@[simp] theorem State.start_takesMirror : State.takesMirror s.start = State.takesMirror s := (rfl)
@[simp] theorem State.start_timersRun : State.timersRun s.start = State.timersRun s := (rfl)
@[simp] theorem State.start_gCfgWord (g : Nat) : State.gCfgWord s.start g = State.gCfgWord s g := (rfl)
@[simp] theorem State.start_grpAsk (g : Nat) : State.grpAsk s.start g = State.grpAsk s g := (rfl)
@[simp] theorem State.start_laneCond (n : Nat) : State.laneCond s.start n = State.laneCond s n := (rfl)
@[simp] theorem State.start_laneAt (n : Nat) : State.laneAt s.start n = State.laneAt s n := (rfl)
@[simp] theorem State.start_drawerCond (pwFailed : Nat → Bool) (a : Nat) :
    State.drawerCond s.start pwFailed a = State.drawerCond s pwFailed a := (rfl)
@[simp] theorem State.start_sideCond (pwFailed : Nat → Bool) (src : Source) :
    State.sideCond s.start pwFailed src = State.sideCond s pwFailed src := (rfl)
@[simp] theorem State.start_grpConds (cfg : Nat) (far : Nat) (dual : Bool) :
    State.grpConds s.start cfg far dual = State.grpConds s cfg far dual := (rfl)
@[simp] theorem State.start_grpHolds (g : Nat) (n : Nat) : State.grpHolds s.start g n = State.grpHolds s g n := (rfl)
@[simp] theorem State.start_sCfgWord : State.sCfgWord s.start = State.sCfgWord s := (rfl)
@[simp] theorem State.start_apsSilent (n : Nat) : State.apsSilent s.start n = State.apsSilent s n := (rfl)
@[simp] theorem State.start_apsCause (g : Nat) : State.apsCause s.start g = State.apsCause s g := (rfl)
@[simp] theorem State.start_eqg (q : Nat) : State.eqg s.start q = State.eqg s q := (rfl)
@[simp] theorem State.start_eqLive (q : Nat) : State.eqLive s.start q = State.eqLive s q := (rfl)
@[simp] theorem State.start_eqOf (a : Nat) : State.eqOf s.start a = State.eqOf s a := (rfl)
@[simp] theorem State.start_qCfgWord : State.qCfgWord s.start = State.qCfgWord s := (rfl)
@[simp] theorem State.start_eqRefused (q : Nat) (w : Nat) : State.eqRefused s.start q w = State.eqRefused s q w := (rfl)
@[simp] theorem State.start_dpll : State.dpll s.start = State.dpll s := (rfl)
@[simp] theorem State.start_loFail : State.loFail s.start = State.loFail s := (rfl)
@[simp] theorem State.start_ref (r : Nat) : State.ref s.start r = State.ref s r := (rfl)
@[simp] theorem State.start_refPart (r : Nat) : State.refPart s.start r = State.refPart s r := (rfl)
@[simp] theorem State.start_refQual (r : Nat) : State.refQual s.start r = State.refQual s r := (rfl)
@[simp] theorem State.start_selectsRef : State.selectsRef s.start = State.selectsRef s := (rfl)
@[simp] theorem State.start_lineWithdrawn (n : Nat) : State.lineWithdrawn s.start n = State.lineWithdrawn s n := (rfl)
@[simp] theorem State.start_refActive (r : Nat) : State.refActive s.start r = State.refActive s r := (rfl)
@[simp] theorem State.start_refSound (r : Nat) : State.refSound s.start r = State.refSound s r := (rfl)
@[simp] theorem State.start_refFreqOk (r : Nat) : State.refFreqOk s.start r = State.refFreqOk s r := (rfl)
@[simp] theorem State.start_candidates : State.candidates s.start = State.candidates s := (rfl)
@[simp] theorem State.start_selected : State.selected s.start = State.selected s := (rfl)
@[simp] theorem State.start_refTarget : State.refTarget s.start = State.refTarget s := (rfl)
@[simp] theorem State.start_timingUp : State.timingUp s.start = State.timingUp s := (rfl)
@[simp] theorem State.start_voters (offs : List (Nat × Int)) (r : Nat) :
    State.voters s.start offs r = State.voters s offs r := (rfl)
@[simp] theorem State.start_quantum (r : Nat) (x : Int) : State.quantum s.start r x = State.quantum s r x := (rfl)
@[simp] theorem State.start_measured (m : TimingMeas) (r : Nat) : State.measured s.start m r = State.measured s m r := (rfl)
@[simp] theorem State.start_followed : State.followed s.start = State.followed s := (rfl)
@[simp] theorem State.start_dpllGoal (f : Int) (phase : Int) : State.dpllGoal s.start f phase = State.dpllGoal s f phase := (rfl)
@[simp] theorem State.start_clkOuts : State.clkOuts s.start = State.clkOuts s := (rfl)
@[simp] theorem State.start_pageServed (p : Page) (i : Nat) : State.pageServed s.start p i = State.pageServed s p i := (rfl)
@[simp] theorem State.start_cycles (p : Page) (i : Nat) : State.cycles s.start p i = State.cycles s p i := (rfl)
@[simp] theorem State.start_shadowPage (m : SMap Nat) (p : Page) (i : Nat) :
    State.shadowPage s.start m p i = State.shadowPage s m p i := (rfl)
@[simp] theorem State.start_tracing : State.tracing s.start = State.tracing s := (rfl)
@[simp] theorem State.start_slewMax : State.slewMax s.start = State.slewMax s := (rfl)
@[simp] theorem State.start_servo : State.servo s.start = State.servo s := (rfl)
@[simp] theorem State.start_actEpoch (i : Nat) : State.actEpoch s.start i = State.actEpoch s i := (rfl)
@[simp] theorem State.start_ppsMay : State.ppsMay s.start = State.ppsMay s := (rfl)
@[simp] theorem State.start_secondNow : State.secondNow s.start = State.secondNow s := (rfl)
@[simp] theorem State.start_ctx (n : Nat) : State.ctx s.start n = State.ctx s n := (rfl)
@[simp] theorem State.start_ctxUp (n : Nat) : State.ctxUp s.start n = State.ctxUp s n := (rfl)
@[simp] theorem State.start_ethUp (p : Nat) : State.ethUp s.start p = State.ethUp s p := (rfl)
@[simp] theorem State.start_eth (p : Nat) : State.eth s.start p = State.eth s p := (rfl)
@[simp] theorem State.start_ctxsWith (f : Ctx → Bool) : State.ctxsWith s.start f = State.ctxsWith s f := (rfl)
@[simp] theorem State.start_jbRuns (n : Nat) : State.jbRuns s.start n = State.jbRuns s n := (rfl)
@[simp] theorem State.start_cCfg : State.cCfg s.start = State.cCfg s := (rfl)
@[simp] theorem State.start_ctxErr (n : Nat) (c : Ctx) : State.ctxErr s.start n c = State.ctxErr s n c := (rfl)
@[simp] theorem State.start_tplUsed (i : Nat) : State.tplUsed s.start i = State.tplUsed s i := (rfl)
@[simp] theorem State.start_stampNs (p : Nat) (tx : Bool) (ago : Nat) (extra : Int) :
    State.stampNs s.start p tx ago extra = State.stampNs s p tx ago extra := (rfl)
@[simp] theorem State.start_portRuns (p : Nat) : State.portRuns s.start p = State.portRuns s p := (rfl)
@[simp] theorem State.start_launchPassed (e : Nat) (slot : Nat) :
    State.launchPassed s.start e slot = State.launchPassed s e slot := (rfl)
@[simp] theorem State.start_ringOpen (p : Nat) : State.ringOpen s.start p = State.ringOpen s p := (rfl)
@[simp] theorem State.start_ringFull (p : Nat) : State.ringFull s.start p = State.ringFull s p := (rfl)
@[simp] theorem State.start_portTpls (p : Nat) : State.portTpls s.start p = State.portTpls s p := (rfl)
@[simp] theorem State.start_pwKey (p : Nat) (bs : List Byte) (o : Nat) : State.pwKey s.start p bs o = State.pwKey s p bs o := (rfl)
@[simp] theorem State.start_ctxFor (p : Nat) (enc : Nat) (key : Nat) (labels : Nat) :
    State.ctxFor s.start p enc key labels = State.ctxFor s p enc key labels := (rfl)
@[simp] theorem State.start_macOf (p : Nat) : State.macOf s.start p = State.macOf s p := (rfl)
@[simp] theorem State.start_daOk (p : Nat) (bs : List Byte) : State.daOk s.start p bs = State.daOk s p bs := (rfl)
@[simp] theorem State.start_isPause (p : Nat) (bs : List Byte) : State.isPause s.start p bs = State.isPause s p bs := (rfl)
@[simp] theorem State.start_rxDest (p : Nat) (bs : List Byte) : State.rxDest s.start p bs = State.rxDest s p bs := (rfl)
@[simp] theorem State.start_rxWaits (p : Nat) (x : EthRx × Nat) : State.rxWaits s.start p x = State.rxWaits s p x := (rfl)
@[simp] theorem State.start_txBytes (p : Nat) (x : TxItem) (ns : Nat) :
    State.txBytes s.start p x ns = State.txBytes s p x ns := (rfl)
@[simp] theorem State.start_mateUp : State.mateUp s.start = State.mateUp s := (rfl)
@[simp] theorem State.start_dxEn : State.dxEn s.start = State.dxEn s := (rfl)
@[simp] theorem State.start_hbLost : State.hbLost s.start = State.hbLost s := (rfl)
@[simp] theorem State.start_hbByte (i : Nat) : State.hbByte s.start i = State.hbByte s i := (rfl)
@[simp] theorem State.start_delta : State.delta s.start = State.delta s := (rfl)
@[simp] theorem State.start_aligned : State.aligned s.start = State.aligned s := (rfl)
@[simp] theorem State.start_faultCause : State.faultCause s.start = State.faultCause s := (rfl)
@[simp] theorem State.start_faultSet : State.faultSet s.start = State.faultSet s := (rfl)
@[simp] theorem State.start_serveTail : State.serveTail s.start = State.serveTail s := (rfl)
@[simp] theorem State.start_serveItem (i : Nat) : State.serveItem s.start i = State.serveItem s i := (rfl)
@[simp] theorem State.start_dxRecord (l : Nat) : State.dxRecord s.start l = State.dxRecord s l := (rfl)
@[simp] theorem State.start_dxSync (l : Nat) : State.dxSync s.start l = State.dxSync s l := (rfl)
@[simp] theorem State.start_dxTxInv (l : Nat) : State.dxTxInv s.start l = State.dxTxInv s l := (rfl)
@[simp] theorem State.start_dxRxInv (l : Nat) : State.dxRxInv s.start l = State.dxRxInv s l := (rfl)
@[simp] theorem State.start_hbFlags : State.hbFlags s.start = State.hbFlags s := (rfl)
@[simp] theorem State.start_hbOverhead (bip : Nat) : State.hbOverhead s.start bip = State.hbOverhead s bip := (rfl)
@[simp] theorem State.start_mateReady : State.mateReady s.start = State.mateReady s := (rfl)
@[simp] theorem State.start_dxDrive : State.dxDrive s.start = State.dxDrive s := (rfl)
@[simp] theorem State.start_hbGood (l : Nat) (lo : List Byte) : State.hbGood s.start l lo = State.hbGood s l lo := (rfl)
@[simp] theorem State.start_recFrame (r : List Byte) : State.recFrame s.start r = State.recFrame s r := (rfl)
@[simp] theorem State.start_recRow (r : List Byte) : State.recRow s.start r = State.recRow s r := (rfl)
@[simp] theorem State.start_rowReached (row : Nat) : State.rowReached s.start row = State.rowReached s row := (rfl)
@[simp] theorem State.start_rowPassed (row : Nat) : State.rowPassed s.start row = State.rowPassed s row := (rfl)
@[simp] theorem State.start_quorumCount (b : Bool) : State.quorumCount s.start b = State.quorumCount s b := (rfl)
@[simp] theorem State.start_seenNow : State.seenNow s.start = State.seenNow s := (rfl)
@[simp] theorem State.start_spReady : State.spReady s.start = State.spReady s := (rfl)
@[simp] theorem State.start_stRuns : State.stRuns s.start = State.stRuns s := (rfl)
@[simp] theorem State.start_lanePowered (n : Nat) : State.lanePowered s.start n = State.lanePowered s n := (rfl)
@[simp] theorem State.start_ntFresh : State.ntFresh s.start = State.ntFresh s := (rfl)
@[simp] theorem State.start_wanted (d : Nat) : State.wanted s.start d = State.wanted s d := (rfl)
@[simp] theorem State.start_nextDomain : State.nextDomain s.start = State.nextDomain s := (rfl)
@[simp] theorem State.start_domEn : State.domEn s.start = State.domEn s := (rfl)
@[simp] theorem State.start_offNow : State.offNow s.start = State.offNow s := (rfl)
@[simp] theorem State.start_shedStage (d : Nat) : State.shedStage s.start d = State.shedStage s d := (rfl)
@[simp] theorem State.start_shedTime (st : Nat) : State.shedTime s.start st = State.shedTime s st := (rfl)
@[simp] theorem State.start_mayPrimary : State.mayPrimary s.start = State.mayPrimary s := (rfl)
@[simp] theorem State.start_mayRequest (m : Nat) : State.mayRequest s.start m = State.mayRequest s m := (rfl)
@[simp] theorem State.start_pagePowered (p : Page) (i : Nat) : State.pagePowered s.start p i = State.pagePowered s p i := (rfl)
@[simp] theorem State.start_viewed (p : Page) (i : Nat) (k : Nat) (now : Nat) :
    State.viewed s.start p i k now = State.viewed s p i k now := (rfl)
@[simp] theorem State.start_liveHdr (f : Fld) (i : Nat) (j : Nat) : State.liveHdr s.start f i j = State.liveHdr s f i j := (rfl)
@[simp] theorem State.start_liveGlobal (f : Fld) : State.liveGlobal s.start f = State.liveGlobal s f := (rfl)
@[simp] theorem State.start_livePower (f : Fld) : State.livePower s.start f = State.livePower s f := (rfl)
@[simp] theorem State.start_wmCur (w : Nat) : State.wmCur s.start w = State.wmCur s w := (rfl)
@[simp] theorem State.start_liveEvent (f : Fld) (j : Nat) : State.liveEvent s.start f j = State.liveEvent s f j := (rfl)
@[simp] theorem State.start_pageWrapped (n : Nat) : State.pageWrapped s.start n = State.pageWrapped s n := (rfl)
@[simp] theorem State.start_livePerf (f : Fld) (j : Nat) : State.livePerf s.start f j = State.livePerf s f j := (rfl)
@[simp] theorem State.start_liveMate (f : Fld) : State.liveMate s.start f = State.liveMate s f := (rfl)
@[simp] theorem State.start_liveMatrix (f : Fld) : State.liveMatrix s.start f = State.liveMatrix s f := (rfl)
@[simp] theorem State.start_tokOut : State.tokOut s.start = State.tokOut s := (rfl)
@[simp] theorem State.start_liveSeq (f : Fld) : State.liveSeq s.start f = State.liveSeq s f := (rfl)
@[simp] theorem State.start_mapcBusy : State.mapcBusy s.start = State.mapcBusy s := (rfl)
@[simp] theorem State.start_liveLanep (f : Fld) (n : Nat) : State.liveLanep s.start f n = State.liveLanep s f n := (rfl)
@[simp] theorem State.start_liveMapc (f : Fld) : State.liveMapc s.start f = State.liveMapc s f := (rfl)
@[simp] theorem State.start_liveFabric (f : Fld) (i : Nat) : State.liveFabric s.start f i = State.liveFabric s f i := (rfl)
@[simp] theorem State.start_fieldLive (f : Fld) (i : Nat) (j : Nat) :
    State.fieldLive s.start f i j = State.fieldLive s f i j := (rfl)
@[simp] theorem State.start_field (x : FSpec) (i : Nat) (j : Nat) : State.field s.start x i j = State.field s x i j := (rfl)
@[simp] theorem State.start_word (fs : List FSpec) (i : Nat) (j : Nat) : State.word s.start fs i j = State.word s fs i j := (rfl)
@[simp] theorem State.start_eventN : State.eventN s.start = State.eventN s := (rfl)
@[simp] theorem State.start_answers (p : Page) (i : Nat) (o : Nat) : State.answers s.start p i o = State.answers s p i o := (rfl)
@[simp] theorem State.start_ownWord (fs : List FSpec) (i : Nat) (j : Nat) :
    State.ownWord s.start fs i j = State.ownWord s fs i j := (rfl)
@[simp] theorem State.start_busUp : State.busUp s.start = State.busUp s := (rfl)
@[simp] theorem State.start_resolve (m : Nat) (a : Nat) : State.resolve s.start m a = State.resolve s m a := (rfl)
@[simp] theorem State.start_issue (m : Nat) (a : Nat) (write : Bool) (data : List Byte) (len : Nat) :
    State.issue s.start m a write data len = State.issue s m a write data len := (rfl)
@[simp] theorem State.start_targetBusy (m : Nat) (t : Nat) : State.targetBusy s.start m t = State.targetBusy s m t := (rfl)
@[simp] theorem State.start_inReset : State.inReset s.start = State.inReset s := (rfl)
@[simp] theorem State.start_chainMine (f : BitVec 96) : State.chainMine s.start f = State.chainMine s f := (rfl)
@[simp] theorem State.start_chainTakes (f : BitVec 96) : State.chainTakes s.start f = State.chainTakes s f := (rfl)
@[simp] theorem State.start_synced (side : ChainSide) : State.synced s.start side = State.synced s side := (rfl)
@[simp] theorem State.start_chainReq (f : BitVec 96) : State.chainReq s.start f = State.chainReq s f := (rfl)
@[simp] theorem State.start_qos (m : Nat) : State.qos s.start m = State.qos s m := (rfl)
@[simp] theorem State.start_effQos (r : BusReq) : State.effQos s.start r = State.effQos s r := (rfl)
@[simp] theorem State.start_writeAhead (r : BusReq) : State.writeAhead s.start r = State.writeAhead s r := (rfl)
@[simp] theorem State.start_drainReq : State.drainReq s.start = State.drainReq s := (rfl)
@[simp] theorem State.start_nextAt (m : Nat) (t : Nat) : State.nextAt s.start m t = State.nextAt s m t := (rfl)
@[simp] theorem State.start_candidate (m : Nat) (t : Nat) : State.candidate s.start m t = State.candidate s m t := (rfl)
@[simp] theorem State.start_better (a : Option BusReq) (b : Option BusReq) : State.better s.start a b = State.better s a b := (rfl)
@[simp] theorem State.start_bestOf (t : Nat) (ask : Nat → Option BusReq) :
    State.bestOf s.start t ask = State.bestOf s t ask := (rfl)
@[simp] theorem State.start_winner (t : Nat) : State.winner s.start t = State.winner s t := (rfl)
@[simp] theorem State.start_tableBytes : State.tableBytes s.start = State.tableBytes s := (rfl)
@[simp] theorem State.start_pcieReg (reg : Nat) : State.pcieReg s.start reg = State.pcieReg s reg := (rfl)
@[simp] theorem State.start_pcieUp : State.pcieUp s.start = State.pcieUp s := (rfl)
@[simp] theorem State.start_pcieDest (b : Bar) (o : Nat) : State.pcieDest s.start b o = State.pcieDest s b o := (rfl)
@[simp] theorem State.start_pieces (target : Nat) (a : Nat) (len : Nat) :
    State.pieces s.start target a len = State.pieces s target a len := (rfl)
@[simp] theorem State.start_servedTag (r : PcieReq) : State.servedTag s.start r = State.servedTag s r := (rfl)
@[simp] theorem State.start_longestWait : State.longestWait s.start = State.longestWait s := (rfl)
@[simp] theorem State.start_txBlocks (p : Nat) : State.txBlocks s.start p = State.txBlocks s p := (rfl)
@[simp] theorem State.start_level (p : Page) (i : Nat) : State.level s.start p i = State.level s p i := (rfl)
@[simp] theorem State.start_levelCycles (p : Page) (i : Nat) (thr : Nat) (n : Nat) :
    State.levelCycles s.start p i thr n = State.levelCycles s p i thr n := (rfl)
@[simp] theorem State.start_bridged (a : Nat) : State.bridged s.start a = State.bridged s a := (rfl)
@[simp] theorem State.start_effective (x : Source) : State.effective s.start x = State.effective s x := (rfl)
@[simp] theorem State.start_directs (a : Nat) : State.directs s.start a = State.directs s a := (rfl)
@[simp] theorem State.start_carry (a : Nat) : State.carry s.start a = State.carry s a := (rfl)
@[simp] theorem State.start_outputs : State.outputs s.start = State.outputs s := (rfl)
@[simp] theorem State.start_outDet (i : HingeIn) (a : Nat) : State.outDet s.start i a = State.outDet s i a := (rfl)
@[simp] theorem State.start_idleByte : State.idleByte s.start = State.idleByte s := (rfl)
@[simp] theorem State.start_laneDrawer (k : Nat) (key : Nat) (d : Drawer) :
    State.laneDrawer s.start k key d = State.laneDrawer s k key d := (rfl)
@[simp] theorem State.start_laneCols (k : Nat) : State.laneCols s.start k = State.laneCols s k := (rfl)
@[simp] theorem State.start_inCol (u : Inputs) (x : Nat) : State.inCol s.start u x = State.inCol s u x := (rfl)
@[simp] theorem State.start_plainCol (i : HingeIn) (u : Inputs) (a : Nat) :
    State.plainCol s.start i u a = State.plainCol s i u a := (rfl)
@[simp] theorem State.start_outCol (i : HingeIn) (u : Inputs) (a : Nat) : State.outCol s.start i u a = State.outCol s i u a := (rfl)
@[simp] theorem State.start_owesNdf (i : HingeIn) (u : Inputs) (a : Nat) :
    State.owesNdf s.start i u a = State.owesNdf s i u a := (rfl)
@[simp] theorem State.start_copyCol (i : HingeIn) (u : Inputs) (groom : Bool) (g : EqGroup) (prot : Bool) :
    State.copyCol s.start i u groom g prot = State.copyCol s i u groom g prot := (rfl)
@[simp] theorem State.start_feeder (i : HingeIn) (gi : Nat) : State.feeder s.start i gi = State.feeder s i gi := (rfl)
@[simp] theorem State.start_feedPatch (i : HingeIn) (gi : Nat) (r : Nat) :
    State.feedPatch s.start i gi r = State.feedPatch s i gi r := (rfl)
@[simp] theorem State.start_groomKeys : State.groomKeys s.start = State.groomKeys s := (rfl)
@[simp] theorem State.start_slotEnv (i : HingeIn) (u : Inputs) : State.slotEnv s.start i u = State.slotEnv s i u := (rfl)
@[simp] theorem State.start_pwCols : State.pwCols s.start = State.pwCols s := (rfl)
@[simp] theorem State.start_benchCols : State.benchCols s.start = State.benchCols s := (rfl)
@[simp] theorem State.start_mateLabel : State.mateLabel s.start = State.mateLabel s := (rfl)
@[simp] theorem State.start_frame : s.start.frame = s.frame := (rfl)
@[simp] theorem State.start_cyc : s.start.cyc = s.cyc := (rfl)

end Sys2Proof.Machine
end

