-- ==== Sys2Proof/Tests/Slice0.lean ====
section
/-! SUPPORT. Tests: commands on small states, ill-formed operands, and for each statement states and operands that meet its hypotheses. -/
namespace Sys2Proof.Tests

open Sys2Proof Sys2Proof.Machine

/-! Small states that the tests start from. -/

/-- Reset with every domain powered and usable. -/
def up : State := { State.reset with pow := { State.reset.pow with on := BitVec.allOnes 56, up := BitVec.allOnes 56 } }

/-- The same with lane 3 running. -/
def runs : State := up.wr R.LANEP_STAT_RUNNING 1 3

/-- Lane 3 runs with its signal, clock recovery and PLL good. -/
def locked : State := ((runs.wr R.LANEP_STAT_SIG_DET 1 3).wr R.LANEP_STAT_CDR_LOCK 1 3).wr R.LANEP_STAT_PLL_LOCK 1 3

/-- An equalisation record marked valid, its fields in range (R54). -/
def goodRec : List Byte := [0x80, 0, 23] ++ List.replicate 13 0

/-- `s` in mode `m`. -/
def inMode (s : State) (m : Nat) : State := s.wr R.GLOBAL_MODE_STAT_CUR m

/-- `s` with lane 3 holding record `r` for its rate. -/
def withRec (s : State) (r : List Byte) : State := (s.wr R.LANEP_EQ_STAT_LOADED 1 3).setLane 3 { s.lane 3 with recs := [r, r, r, r] }

/-- A compiler that takes requests, with `r` at the head of its queue. -/
def asks (w : Nat) : State :=
  { up.wr R.MAPC_STAT_READY 1 with mc := { up.mc with inited := true, queue := [⟨BitVec.ofNat 64 w, true, false⟩] } }

/-- The head request that `asks w` holds. -/
def head (w : Nat) : Req := ⟨BitVec.ofNat 64 w, true, false⟩

/-- The mate unit is up on a unit of a pair in mode `m`, with its Dexgor lanes enabled and lane 0 in SYNC. -/
def pair (m : Nat) : State :=
  { (((inMode up m).wr R.MATE_CTL_DX_EN 1).wr R.MATE_STAT_HB_LOST 0).wr R.NTIME_EPOCH_LABEL 2 with mate := { up.mate with rx0 := { sig := true, cdr := true, sync := true } }, clk := ⟨2, 40000⟩ }

/-- Timer `t` started in `s`, and `n` control cycles have passed since. -/
def ranFor (s : State) (t : Timer) (n : Nat) : State :=
  { s.mark t with clk := ⟨(s.now + n) / 75000, (s.now + n) % 75000⟩ }

/-- DRAM is trained: both channels. -/
def trained (s : State) : State := (s.wr R.DRAMC_STAT_TRAINED 1 0).wr R.DRAMC_STAT_TRAINED 1 1

/-- A mirror record with a right RCRC: type, RSEQ, label, row and body (R295). -/
def record (type seq label row : Nat) (body : List Byte) : List Byte := mirRecord type seq label row body

/-- A frame of the chain with a right CRC. -/
def frame (unit op addr data : Nat) (arm : Bool) : BitVec 96 := chainFrame unit op 5 false arm addr data

/-- Whether an outcome is a fault. -/
def faults (o : Host.Outcome State Fault Refusal) : Bool :=
  match o with
  | .fault _ => true
  | .next _ | .refused _ => false

/-- What a command leaves, if it completes, read by `f`. -/
def after {α : Type} (f : State → α) (c : Instr) (s : State) : Option α :=
  match exec c s with
  | .next t => some (f t)
  | .fault _ | .refused _ => none

/-! Ill-formed operands: each check of `Instr.wf` refuses one. -/

theorem test_wf_heartbeat : (Instr.heartbeatRx 0 (List.replicate 55 0) 0).wf = false := by decide
theorem test_wf_records_length :
    [Instr.mirReq 0 [1], .mirCommit 0 [2], .mirSel 0 [3], .mirGrp 0 [4], .mirEqcfg 0 [5], .mirPwcfg 0 [6], .mirPwctx 0 [7],
      .mirTiming 0 [8], .mirTime 0 [9], .mirPull 0 [10], .mirPullEnd 0 [11]].all (fun c => !c.wf) = true := by decide
theorem test_wf_records_type :
    (let r : List Byte := List.replicate 16 12
     [Instr.mirReq 0 r, .mirCommit 0 r, .mirSel 0 r, .mirGrp 0 r, .mirEqcfg 0 r, .mirPwcfg 0 r, .mirPwctx 0 r,
      .mirTiming 0 r, .mirTime 0 r, .mirPull 0 r, .mirPullEnd 0 r].all (fun c => !c.wf)) = true := by decide
theorem test_wf_pcie_empty : (Instr.pcieRequest ⟨.bar0, 0, false, [], 0, 0, false⟩).wf = false := by decide
theorem test_wf_pcie_long : (Instr.pcieRequest ⟨.bar4, 0, false, [], 513, 0, false⟩).wf = false := by decide
theorem test_wf_pcie_past_bar : (Instr.pcieRequest ⟨.bar2, barSize .bar2, false, [], 4, 0, false⟩).wf = false := by decide
theorem test_wf_mask_instance : (Instr.evtMaskWrite .power 1 0).wf = false := by decide
theorem test_wf_preset_instance : (Instr.cntPreset .eth 8 0 0).wf = false := by decide
theorem test_wf_wrap_instance : (Instr.cntWrap .dramc 2 0).wf = false := by decide
theorem test_wf_lock_instance : (Instr.pageLock .lanep 64).wf = false := by decide
theorem test_wf_word_index : (Instr.wordRecompute ⟨.slot, false, BitVec.ofNat 22 (2 ^ 21 + 524288)⟩ []).wf = false := by decide
theorem test_illformed_faults : faults (exec (.heartbeatRx 0 [] 0) up) = true := by decide +kernel

/-! Every hypothesis of the statements is met: one theorem a statement, one line a clause. -/

theorem test_witness_StepRunsFrontCommand : ({ up with pending := [.softResetEnd] } : State).pending = .softResetEnd :: [] := by decide
theorem test_witness_PortCommandLatches :
    (portIssue (.drwRead 63) = some (.drw 63, 1) ∧ up.served .lanef 63 = true ∧ up.portBusy (.drw 63) = false) ∧
    (portIssue .selMsW = some (.prot, 0x58) ∧ up.served .prot 0 = true ∧
      State.portBusy { up with ports := [(67, ⟨1, 0, []⟩)] } .prot = true ∧ State.served { up with ports := [(67, ⟨1, 0, []⟩)] } .prot 0 = true) := by
  decide +kernel
theorem test_witness_LaneControlWrites :
    let en := (withRec up goodRec).wr R.LANEP_CTL_EN 1 3
    let eye := en.wr R.LANEP_EYE_STAT_BUSY 1 3
    let grouped := (up.wr R.PROT_G_CFG_EN 1 0 31).wr R.PROT_G_CFG_P_LANE 3 0 31
    up.served .lanep 3 = true ∧
    ((withRec up goodRec).served .lanep 3 = true ∧ (withRec up goodRec).on R.LANEP_CTL_EN 3 = false ∧
      (withRec up goodRec).on R.LANEP_EQ_STAT_LOADED 3 = true ∧
      recordValid (((withRec up goodRec).lane 3).recs.getD ((withRec up goodRec).rd R.LANEP_CTL_RATE 3) []) = true) ∧
    (up.on R.LANEP_CTL_EN 3 = false ∧ up.on R.LANEP_EQ_STAT_LOADED 3 = false) ∧
    (recordValid (((withRec up (List.replicate 16 0)).lane 3).recs.getD 0 []) = false) ∧
    (en.served .lanep 3 = true ∧ en.on R.LANEP_CTL_EN 3 = true ∧ en.on R.LANEP_EYE_STAT_BUSY 3 = false) ∧
    (eye.served .lanep 3 = true ∧ eye.on R.LANEP_EYE_STAT_BUSY 3 = true) ∧
    (up.rd R.LANEP_CTL_RATE 3 ≠ 3 ∧ up.inGroup 3 = false) ∧ (en.rd R.LANEP_CTL_RATE 3 ≠ 3) ∧
    (grouped.inGroup 3 = true ∧ grouped.served .lanep 3 = true ∧ grouped.rd R.LANEP_CTL_RATE 3 ≠ 3) ∧
    ((inMode up mMAINT).mode = mMAINT ∧ (inMode up mMAINT).served .lanep 3 = true) ∧ up.mode ≠ mMAINT := by decide +kernel
theorem test_witness_EyeScanCommands :
    let busy := up.wr R.LANEP_EYE_STAT_BUSY 1 3
    (busy.served .lanep 3 = true ∧ busy.on R.LANEP_EYE_STAT_BUSY 3 = true) ∧
    ((up.wr R.LANEP_CTL_EN 1 3).served .lanep 3 = true ∧ (up.wr R.LANEP_CTL_EN 1 3).on R.LANEP_EYE_STAT_BUSY 3 = false ∧
      (up.wr R.LANEP_CTL_EN 1 3).on R.LANEP_CTL_EN 3 = true) ∧
    (5000 ≤ 2 ^ (busy.wr R.LANEP_EYE_CTL_DWELL_LOG2 13 3).rd R.LANEP_EYE_CTL_DWELL_LOG2 3 ∧
      (busy.wr R.LANEP_EYE_CTL_DWELL_LOG2 13 3).on R.LANEP_EYE_STAT_BUSY 3 = true ∧
      (busy.wr R.LANEP_EYE_CTL_DWELL_LOG2 13 3).rd R.LANEP_EYE_STAT_POINT 3 < 8191) ∧
    (1 ≤ 2 ^ (busy.wr R.LANEP_EYE_STAT_POINT 8190 3).rd R.LANEP_EYE_CTL_DWELL_LOG2 3 ∧
      (busy.wr R.LANEP_EYE_STAT_POINT 8190 3).on R.LANEP_EYE_STAT_BUSY 3 = true ∧
      (busy.wr R.LANEP_EYE_STAT_POINT 8190 3).rd R.LANEP_EYE_STAT_POINT 3 < 8191) ∧
    (1 ≤ 2 ^ (busy.wr R.LANEP_EYE_STAT_POINT 8191 3).rd R.LANEP_EYE_CTL_DWELL_LOG2 3 ∧
      (busy.wr R.LANEP_EYE_STAT_POINT 8191 3).on R.LANEP_EYE_STAT_BUSY 3 = true ∧
      8191 ≤ (busy.wr R.LANEP_EYE_STAT_POINT 8191 3).rd R.LANEP_EYE_STAT_POINT 3) := by decide +kernel
theorem test_witness_DefectIntegration :
    let runs := { runs with clk := ⟨1000000, 0⟩ }
    let raw := runs.wr R.LANEF_DEF_RAW_DEFECTS 1 3
    let decl := runs.wr R.LANEF_DEF_DEFECTS 1 3
    let drw := fun (r d : Nat) => runs.setDrw 3 7 { cfg := 0x681, raw := r, declared := d }
    (raw.running 3 = true ∧ (raw.laneRaw 3).testBit (laneDefBit .los) = true ∧ (raw.laneDef 3).testBit (laneDefBit .los) = false ∧
      (laneUnsuppressed (setBit (raw.laneDef 3) (laneDefBit .los))).testBit (laneDefBit .los) = true ∧
      raw.rd R.LANEF_INTEG_SET 3 (laneDefBit .los) ≤ raw.laneRun 3 (laneDefBit .los)) ∧
    ((decl.laneDef 3).testBit (laneDefBit .los) = true ∧ (decl.laneRaw 3).testBit (laneDefBit .los) = false ∧
      decl.rd R.LANEF_INTEG_CLEAR 3 (laneDefBit .los) ≤ decl.laneRun 3 (laneDefBit .los)) ∧
    ((drw 1 0).running 3 = true ∧ ((drw 1 0).drw 3 7).monEn = true ∧ ((drw 1 0).drw 3 7).raw.testBit (drwDefBit .lop) = true ∧
      ((drw 1 0).drw 3 7).declared.testBit (drwDefBit .lop) = false ∧
      (drwUnsuppressed (setBit ((drw 1 0).drw 3 7).declared (drwDefBit .lop)) ((drw 1 0).actionB 3)).testBit (drwDefBit .lop) = true ∧
      (drw 1 0).rd R.LANEF_DINTEG_SET 3 (drwDefBit .lop) ≤
        (drw 1 0).drwRun 3 7 (drwDefBit .lop)) ∧
    (((drw 0 1).drw 3 7).declared.testBit (drwDefBit .lop) = true ∧ ((drw 0 1).drw 3 7).raw.testBit (drwDefBit .lop) = false ∧
      (drw 0 1).rd R.LANEF_DINTEG_CLEAR 3 (drwDefBit .lop) ≤
        (drw 0 1).drwRun 3 7 (drwDefBit .lop)) ∧
    0 ≠ decl.laneRun 3 (laneDefBit .los) ∧ 0 ≠ (drw 0 1).drwRun 3 7 (drwDefBit .lop) := by decide +kernel
theorem test_witness_SignalLossStartsSearch :
    runs.domUp 20 = true ∧ runs.running 3 = true ∧ runs.nearLoop 3 = false ∧
    (runs.wr R.LANEP_STAT_LOOP_ACTIVE 1 3).nearLoop 3 = true ∧ runs.domUp 3 = true := by decide +kernel
theorem test_witness_LaneClockChanges :
    locked.domUp 20 = true ∧ locked.domUp 3 = true ∧ locked.on R.LANEP_STAT_CDR_LOCK 3 = true ∧ up.on R.LANEP_STAT_CDR_LOCK 3 = false ∧
    (-100000 : Int) ≤ 100000 ∧ (100000 : Int) < 100001 ∧
    (let s := { up with dx := { pll := true, refRange := true, refOff := 95000 } }
     s.dx.pll = true ∧ (-95000 : Int) ≤ s.dx.refOff ∧ s.dx.refOff ≤ 95000) := by decide +kernel
theorem test_witness_ErrorEstimateAndIntegrators :
    runs.running 3 = true ∧ up.served .lanef 3 = true ∧ LaneDefect.stv ≠ .oof := by decide +kernel
theorem test_witness_FrameAlignmentCandidates :
    let cands := fun n => locked.setLane 3 { cands := (List.range n).map (fun i => (i, 2)) }
    (cands 3).searching 3 = true ∧ ((cands 3).lane 3).cands.length < 4 ∧ (cands 4).searching 3 = true ∧ 4 ≤ ((cands 4).lane 3).cands.length ∧
    (let q := nomBits 0
     mget? ((cands 1).lane 3).cands 0 = some 2 ∧ (cands 1).searching 3 = true ∧ confirms ((cands 1).rate 3) 0 q 0 64 = true ∧
     2 + 1 < ((cands 1).wr R.LANEF_CTL_CONF_N 4 3).rd R.LANEF_CTL_CONF_N 3 ∧
     ((cands 1).wr R.LANEF_CTL_CONF_N 3 3).rd R.LANEF_CTL_CONF_N 3 ≤ 2 + 1) ∧
    (let dx := fun n k => { up.wr R.MATE_CTL_DX_EN 1 with dx := { up.dx with pll := true }, mate := { up.mate with rx1 := { sig := true, cdr := true, cands := (List.range n).map (fun i => (i, k)) } } }
     (dx 3 0).dxSearching 1 = true ∧ ((dx 3 0).dxRx 1).cands.length < 4 ∧ (dx 4 0).dxSearching 1 = true ∧
     4 ≤ ((dx 4 0).dxRx 1).cands.length ∧ confirms 2 0 (nomBits 2) 0 64 = true ∧
     (mget? ((dx 1 1).dxRx 1).cands 0 = some 1 ∧ 1 + 1 < 3) ∧ (mget? ((dx 1 2).dxRx 1).cands 0 = some 2 ∧ 3 ≤ 2 + 1)) ∧
    (let s := ranFor (runs.wr R.LANEF_STATE_SYNC 1 3) (.frame 3) 150000
     s.running 3 = true ∧ s.inSync 3 = true ∧ s.ran (.frame 3) 150000 = true) := by decide +kernel
theorem test_witness_FrameTickSendsTheFrame :
    State.reset.laneDrive 3 = .undriven ∧ up.laneDrive 3 = .common ∧ Drive.common ≠ .frames ∧
    (runs.laneDrive 3 = .frames ∧ (runs.lane 3).ohead = none) ∧
    (let s := runs.setLane 3 { runs.lane 3 with ohead := some (List.replicate 56 0) }
     s.laneDrive 3 = .frames ∧ (s.lane 3).ohead = some (List.replicate 56 0)) := by decide +kernel
/-- `n` bits that alternate from `b` on: no run of 40, so nothing is stuffed (R46). -/
def alternating (b : Bool) (n : Nat) : List Bool :=
  match n with
  | 0 => []
  | n + 1 => b :: alternating (!b) n

theorem alternating_length (b : Bool) (n : Nat) : (alternating b n).length = n := by
  induction n generalizing b with
  | zero => rfl
  | succ n ih => exact congrArg (· + 1) (ih _)
theorem destuff_alternating (n m c : Nat) (b : Bool) (hn : n ≤ m) :
    (destuff n (!b) c (alternating b m)).1.length = n ∧ (destuff n (!b) c (alternating b m)).2.1 = 0 := by
  induction n generalizing m b c with
  | zero => cases m <;> exact ⟨rfl, rfl⟩
  | succ n ih =>
    match m, hn with
    | 1, hn => obtain rfl : n = 0 := by omega
               exact ⟨rfl, rfl⟩
    | m + 2, hn =>
      have h : runLen (!b) c b = 1 := by unfold runLen; rw [if_neg]; cases b <;> simp
      have e : destuff (n + 1) (!b) c (alternating b (m + 2)) =
          (b :: (destuff n b 1 (alternating (!b) (m + 1))).1, (destuff n b 1 (alternating (!b) (m + 1))).2.1,
            (destuff n b 1 (alternating (!b) (m + 1))).2.2) := by
        show destuff (n + 1) (!b) c (b :: (!b) :: alternating (!!b) m) = _
        conv => lhs; unfold destuff
        dsimp only; rw [h, if_neg (by decide)]; rfl
      rw [e]
      have := ih (m + 1) 1 (!b) (by omega)
      rw [Bool.not_not] at this
      exact ⟨congrArg (· + 1) this.1, this.2⟩
theorem fasPick_some (n off : Nat) (best : Option (Nat × Nat)) (bs : List Bool) (h : best.isSome = true ∨ (n ≠ 0 ∧ 64 ≤ bs.length)) :
    (fasPick n off best bs).isSome = true := by
  induction n generalizing off best bs with
  | zero => exact h.resolve_right (fun x => x.1 rfl)
  | succ n ih =>
    cases bs with
    | nil => exact h.resolve_right (fun x => by simp at x)
    | cons b r =>
      unfold fasPick
      refine ih _ _ _ (Or.inl ?_)
      split
      · rename_i e
        refine h.resolve_right (fun x => ?_)
        unfold fasDiff at e
        rw [if_neg (by rw [List.length_take]; omega)] at e
        cases e
      · rfl
      · split <;> rfl
theorem lineFrame_alternating (n : Nat) (hn : n = nomBits 0 + 1000) : (lineFrame 0 (alternating true n)).isSome = true := by
  have d : (destuff (regionBits 0) false 0 (alternating true n)).1.length = regionBits 0 ∧
      (destuff (regionBits 0) false 0 (alternating true n)).2.1 = 0 := destuff_alternating _ n 0 true (by rw [hn]; decide)
  unfold lineFrame
  dsimp only
  rw [d.1, d.2, if_neg (fun h => h rfl)]
  have q := fasPick_some (nomBits 0 + nomBits 0 / 1000 - 64 + 1 - max (regionBits 0 + 0) (nomBits 0 - nomBits 0 / 1000 - 64))
    (max (regionBits 0 + 0) (nomBits 0 - nomBits 0 / 1000 - 64)) none
    ((alternating true n).drop (max (regionBits 0 + 0) (nomBits 0 - nomBits 0 / 1000 - 64)))
    (Or.inr ⟨by decide, by rw [List.length_drop, alternating_length, hn]; decide⟩)
  split
  · rename_i e; rw [e] at q; cases q
  · rfl

theorem test_witness_FrameReceivedInSync :
    let s := runs.wr R.LANEF_STATE_SYNC 1 3
    (s.running 3 = true ∧ s.inSync 3 = true ∧ s.nearLoop 3 = false ∧ s.rate 3 = 0 ∧ s.rxInv 3 = false) ∧
    (∃ f : RxFrame, (lineFrame 0 (polarity false f.bits)).isSome = true) ∧
    (s.wr R.LANEF_CTL_LOSS_M 1 3).rd R.LANEF_CTL_LOSS_M 3 ≤ 1 ∧ 1 < (s.wr R.LANEF_CTL_LOSS_M 2 3).rd R.LANEF_CTL_LOSS_M 3 :=
  ⟨by decide +kernel, ⟨⟨alternating true (nomBits 0 + 1000), 0⟩, lineFrame_alternating _ rfl⟩, by decide +kernel, by decide +kernel⟩

theorem test_witness_EqualisationLoad :
    let busy := (up.wr R.LANEP_EQ_STAT_BUSY 1 3).wr R.SECURE_SP_STAT_INIT_DONE 1
    (up.served .lanep 3 = true ∧ up.on R.LANEP_EQ_STAT_BUSY 3 = false) ∧ (busy.served .lanep 3 = true ∧ busy.on R.LANEP_EQ_STAT_BUSY 3 = true) ∧
    (busy.on R.SECURE_SP_STAT_INIT_DONE = true ∧ busy.spDetect eqImage 8 = none ∧ ofLe (busy.spBytes eqImage 4) ≠ 0x3834365A) := by
  decide +kernel
/-- The image of R54 with version 1 and `bytes` at the records of lane 3. -/
def records (bytes : List Byte) : State :=
  (((up.wr R.LANEP_EQ_STAT_BUSY 1 3).wr R.SECURE_SP_STAT_INIT_DONE 1).spWrite eqImage (leBytes 4 0x3834365A ++ [1])).spWrite
    (eqImage + 0x20 + 192) bytes
/-- The same with the CRC word `crc`. -/
def image (bytes : List Byte) (crc : Nat) : State := (records bytes).spWrite (eqImage + 0x1020) (leBytes 4 crc)

theorem spWrite_rest (s : State) (o : Nat) (bs : List Byte) (h : s.spBad = []) :
    (s.spWrite o bs).regs = s.regs ∧ (s.spWrite o bs).spBad = [] := by
  induction bs generalizing s o with
  | nil => exact ⟨rfl, h⟩
  | cons b r ih =>
    have e := ih (s.spPut o b) (o + 1) (by unfold State.spPut; rw [h]; rfl)
    exact ⟨e.1, e.2⟩
theorem spDetect_good (s : State) (o n : Nat) (h : s.spBad = []) : s.spDetect o n = none := by unfold State.spDetect; rw [h]; rfl
theorem crc32Shift_lt (n r : Nat) (h : r < 2 ^ 32) : crc32Shift n r < 2 ^ 32 := by
  induction n generalizing r with
  | zero => exact h
  | succ n ih =>
    refine ih _ ?_
    split
    · exact Nat.xor_lt_two_pow (by omega) (by decide)
    · omega
theorem crc32_lt (bs : List Byte) : crc32 bs < 2 ^ 32 := by
  have h : ∀ (l : List Byte) (r : Nat), r < 2 ^ 32 → l.foldl (fun r b => crc32Shift 8 (r ^^^ b.toNat)) r < 2 ^ 32 := by
    intro l
    induction l with
    | nil => exact fun _ h => h
    | cons b l ih =>
      exact fun r hr => ih _ (crc32Shift_lt 8 _ (Nat.xor_lt_two_pow hr (Nat.lt_trans b.isLt (by decide))))
  exact Nat.xor_lt_two_pow (h bs _ (by decide)) (by decide)
/-- What the image reads as, whatever its CRC word. -/
theorem image_reads (bytes : List Byte) (crc : Nat) (h : (records bytes).spBad = []) :
    (image bytes crc).regs = (records bytes).regs ∧ (∀ o n, (image bytes crc).spDetect o n = none) ∧
    (∀ o n, o + n ≤ eqImage + 0x1020 → (image bytes crc).spBytes o n = (records bytes).spBytes o n) ∧
    (crc < 2 ^ 32 → ofLe ((image bytes crc).spBytes (eqImage + 0x1020) 4) = crc) := by
  have r := spWrite_rest (records bytes) (eqImage + 0x1020) (leBytes 4 crc) h
  refine ⟨r.1, fun o n => spDetect_good _ _ _ r.2, fun o n ho => State.spBytes_spWrite_out _ _ _ _ _ (Or.inl ho), fun hc => ?_⟩
  have e := State.spBytes_spWrite_same (records bytes) (eqImage + 0x1020) (leBytes 4 crc)
  rw [leBytes_length] at e
  rw [image, e, ofLe_leBytes]; exact Nat.mod_eq_of_lt hc
/-- The hypotheses of the clauses of EqualisationLoad on an image whose magic and version are right. -/
def loading (s : State) : Prop :=
  s.on R.LANEP_EQ_STAT_BUSY 3 = true ∧ s.on R.SECURE_SP_STAT_INIT_DONE = true ∧ s.spDetect eqImage 8 = none ∧
  s.spDetect eqImage 4132 = none ∧ ofLe (s.spBytes eqImage 4) = 0x3834365A ∧ ofLe (s.spBytes (eqImage + 4) 2) = 1
theorem image_loading (bytes : List Byte) (crc : Nat) (h : (records bytes).spBad = [] ∧ (records bytes).regs = (records []).regs ∧
    ofLe ((records bytes).spBytes eqImage 4) = 0x3834365A ∧ ofLe ((records bytes).spBytes (eqImage + 4) 2) = 1) :
    loading (image bytes crc) := by
  obtain ⟨r, d, b, _⟩ := image_reads bytes crc h.1
  have on : ∀ (F : Fld) (i : Nat), (image bytes crc).on F i = (records []).on F i := by
    intro F i; unfold State.on State.rd; rw [r, h.2.1]
  refine ⟨(on _ _).trans (by decide +kernel), (on _ _).trans (by decide +kernel), d _ _, d _ _, ?_, ?_⟩
  · rw [b _ _ (by decide)]; exact h.2.2.1
  · rw [b _ _ (by decide)]; exact h.2.2.2
/-- An image with a wrong CRC word, one with a right word and a record out of range, and a good one. -/
theorem test_witness_EqualisationLoad_image :
    let c := fun (bytes : List Byte) => crc32 ((records bytes).spBytes eqImage 0x1020)
    let crcOk := fun (s : State) => crc32 (s.spBytes eqImage 0x1020) = ofLe (s.spBytes (eqImage + 0x1020) 4)
    let rs := fun (s : State) => (List.range 4).map (fun i => s.spBytes (eqImage + 0x20 + 16 * (4 * 3 + i)) 16)
    (loading (image [4] (if c [4] = 0 then 1 else 0)) ∧ ¬ crcOk (image [4] (if c [4] = 0 then 1 else 0))) ∧
    (loading (image [4] (c [4])) ∧ crcOk (image [4] (c [4])) ∧ (rs (image [4] (c [4]))).all recordOk = false) ∧
    (loading (image goodRec (c goodRec)) ∧ crcOk (image goodRec (c goodRec)) ∧ (rs (image goodRec (c goodRec))).all recordOk = true) := by
  intro c crcOk rs
  have h4 : (records [4]).spBad = [] ∧ (records [4]).regs = (records []).regs ∧
    ofLe ((records [4]).spBytes eqImage 4) = 0x3834365A ∧ ofLe ((records [4]).spBytes (eqImage + 4) 2) = 1 := by decide +kernel
  have hg : (records goodRec).spBad = [] ∧ (records goodRec).regs = (records []).regs ∧
    ofLe ((records goodRec).spBytes eqImage 4) = 0x3834365A ∧ ofLe ((records goodRec).spBytes (eqImage + 4) 2) = 1 := by decide +kernel
  have hok : ∀ b, (records b).spBad = [] → crcOk (image b (c b)) := by
    intro b hb
    obtain ⟨_, _, w, e⟩ := image_reads b (c b) hb
    show crc32 _ = _
    rw [w _ _ (Nat.le_refl _), e (crc32_lt _)]
  have hrs : ∀ b w, (records b).spBad = [] → rs (image b w) = rs (records b) := by
    intro b w hb
    refine List.map_congr_left (fun i hi => (image_reads b w hb).2.2.1 _ _ ?_)
    have := List.mem_range.1 hi
    unfold eqImage; omega
  refine ⟨⟨image_loading _ _ h4, ?_⟩, ⟨image_loading _ _ h4, hok _ h4.1, ?_⟩, image_loading _ _ hg, hok _ hg.1, ?_⟩
  · obtain ⟨_, _, w, e⟩ := image_reads [4] (if c [4] = 0 then 1 else 0) h4.1
    show ¬ crc32 _ = _
    rw [w _ _ (Nat.le_refl _), e (by split <;> decide)]
    show ¬ c [4] = _
    split <;> omega
  · rw [hrs _ _ h4.1]; decide +kernel
  · rw [hrs _ _ hg.1]; decide +kernel

theorem test_witness_PushesAndLists :
    let free := up.wr R.MAPC_STAT_READY 1
    let full := { free with mc := { free.mc with queue := List.replicate 256 (head 0) } }
    let list := free.wr R.MAPC_STAT_LIST_BUSY 1
    (up.served .mapc 0 = true ∧ up.compilerOpen = false) ∧ (list.served .mapc 0 = true ∧ list.on R.MAPC_STAT_LIST_BUSY = true) ∧
    (full.served .mapc 0 = true ∧ full.compilerOpen = true ∧ full.on R.MAPC_STAT_LIST_BUSY = false ∧ 256 ≤ full.pushFill) ∧
    (free.served .mapc 0 = true ∧ free.compilerOpen = true ∧ free.on R.MAPC_STAT_LIST_BUSY = false ∧ free.pushFill = 0 ∧
      free.rd R.MAPC_LIST_LEN_LEN = 0) ∧
    free.pushFill < 256 ∧ list.on R.MAPC_STAT_LIST_BUSY = true ∧
    ((free.wr R.MAPC_LIST_LEN_LEN 1).on R.MAPC_STAT_LIST_BUSY = false ∧ (free.wr R.MAPC_LIST_LEN_LEN 1).pushFill = 0 ∧ (free.wr R.MAPC_LIST_LEN_LEN 1).rd R.MAPC_LIST_LEN_LEN ≠ 0 ∧
      (free.wr R.MAPC_LIST_LEN_LEN 1).enforced = false ∧ (free.wr R.MAPC_LIST_LEN_LEN 1).compilerOpen = true) := by decide +kernel
theorem test_witness_PushesAndLists_checks :
    let key : List Byte := [1, 2, 3]
    let req := tagHeader 0x4C 0 0 1 ++ leBytes 8 7
    let s := { up with mc := { up.mc with checking := true }, sec := { up.sec with kAuth := key } }
    let good := { s with mc := { s.mc with buf := [7], tag := (hmacSha256 key (tagHeader 0x4C 0 s.authSeq 1 ++ leBytes 8 7)).take 16 } }
    let fetch := (((asks 0).wr R.MAPC_STAT_LIST_BUSY 1).wr R.MAPC_LIST_LEN_LEN 1)
    req.length = 40 ∧ (s.mc.checking = true ∧ s.mc.buf = []) ∧
    (good.mc.buf ≠ [] ∧ (good.start.checkTag (tagHeader 0x4C 0 good.authSeq 1) (good.mc.buf.flatMap (fun w => leBytes 8 w.toNat)) good.mc.tag).2 = true) ∧
    ((good.start.checkTag (tagHeader 0x4C 0 good.authSeq 1) (good.mc.buf.flatMap (fun w => leBytes 8 w.toNat)) [0]).2 = false) ∧
    (fetch.fetchDue = true ∧ fetch.mc.buf[fetch.mc.fetched]? = none ∧ (fetch.start.listRead 0 8).cause ≠ 0) ∧
    (let f := fetch.wr R.MAPC_LIST_ADDR_ADDR (0x30000000 / 8)
     f.fetchDue = true ∧ (f.start.listRead (f.rd R.MAPC_LIST_ADDR_ADDR * 8) 8).cause = 0) ∧
    (let f := { fetch with mc := { fetch.mc with buf := [9] } }
     f.fetchDue = true ∧ f.mc.buf[f.mc.fetched]? = some 9) := by decide +kernel

theorem test_witness_DrawerRequests :
    let w := fun op out inp => op * 2 ^ 60 + out * 2 ^ 32 + inp
    let void := 74 * 8192 + 8191 + 1
    let meets := fun w => (asks w).mc.queue = [head w] ∧ (asks w).mayTake (head w) = true ∧ commonReason (head w) (asks w).enforced = 0
    let s := asks (w 1 5 8192)
    let s' := asks (w 1 6 8192)
    let placed := (Bank.place {} 255 8192 0).getD ({}, 0)
    let wired := setOut placed.1 5 false (routeWord placed.2)
    (meets (w 1 void 8192) ∧ (asks (w 1 void 8192)).void void = true ∧ rqOp (head (w 1 void 8192)).word.toNat = 1) ∧
    (meets (w 1 5 void) ∧ s.void 5 = false ∧ s.void void = true) ∧
    (meets (w 1 5 8192) ∧ s.void 8192 = false ∧ wired.1.source 5 false = .drawer 8192) ∧
    (s.mc.edit.source 5 false ≠ .drawer 8192 ∧ (setOut s.mc.edit 5 false unequippedWord).1.routeOf 8192 0 = none) ∧
    (meets (w 1 6 8192) ∧ s'.void 6 = false ∧ wired.1.source 6 false ≠ .drawer 8192 ∧
      (setOut wired.1 6 false unequippedWord).1.routeOf 8192 0 = some placed.2) ∧
    (meets (w 2 void 0) ∧ meets (w 2 5 0) ∧ meets (w 3 void 0) ∧ meets (w 3 5 0)) := by decide +kernel
theorem test_witness_DrawerRequests_place :
    ((Bank.place {} (State.allowedGroups (up.wr R.MAPC_CTL_PLANE_EN 255)) 8192 0).isSome = true) ∧
    (State.allowedGroups (up.wr R.MAPC_CTL_PLANE_EN 0)) = 0 ∧ Bank.place {} 0 8192 0 = none := by decide +kernel

theorem test_witness_SlotRequests :
    let w := fun op hi lo => op * 2 ^ 60 + hi * 2 ^ 32 + lo
    let off := fun (s : State) => { s with pow := { s.pow with up := BitVec.ofNat 56 (2 ^ 44 - 1) } }
    let meets := fun w => (asks w).mc.queue = [head w] ∧ (asks w).mayTake (head w) = true ∧ commonReason (head w) (asks w).enforced = 0
    let half := fun (s : State) => { s with pow := { s.pow with up := BitVec.ofNat 56 (2 ^ 45 - 1) } }
    let leg := w 0xA (2 ^ 26) 1
    (meets (w 8 1 2) ∧ (off (asks (w 8 1 2))).quarterOn (slotQuarter 1) = false ∧ (asks (w 8 1 2)).quarterOn 0 = true ∧
      (half (asks 0)).quarterOn (slotQuarter 1) = true ∧ (half (asks 0)).quarterOn (slotQuarter 524288) = false ∧ meets (w 8 1 524288) ∧
      (off (asks (w 8 1 2))).mayTake (head (w 8 1 2)) = true) ∧
    (meets (w 9 1 0x55) ∧ rqOp (w 9 1 0x55) = 9) ∧
    (meets leg ∧ rqOp leg = 0xA ∧ rqJoin leg = true ∧ rqMute leg = false ∧ wJoined ((asks leg).mc.edit.word (partyKey 0 0)) = false ∧
      (asks leg).quarterOn (bridgeQuarter (rqBridge leg)) = true ∧ (asks leg).quarterOn (slotQuarter (rqSlotIn leg)) = true ∧
      (asks leg).mc.edit.joined 0 < 16384 ∧ (off (asks leg)).quarterOn 0 = false) ∧
    (meets (w 0xB 1 65) ∧ rqOp (w 0xB 1 65) = 0xB ∧ (asks (w 0xB 1 65)).quarterOn (bridgeQuarter (rqLegBridge (w 0xB 1 65))) = true) := by
  decide +kernel
/-- A quarter of bridges with `n` joined parties. -/
def quarter (n : Nat) : Bank := { words := (List.range n).map (fun i => (partyKey 0 0 + i, 2 ^ 23)) }
theorem quarter_joined (n : Nat) (hn : n ≤ 16384) : n ≤ (quarter n).joined 0 := by
  have k0 : partyKey 0 0 = 6291456 := by decide +kernel
  have k1 : partyKey (2048 * 0) 0 = 6291456 := by decide +kernel
  have k2 : partyKey (2048 * (0 + 1)) 0 = 6291456 + 131072 := by decide +kernel
  have h : ∀ e ∈ (quarter n).words, 6291456 ≤ e.1 ∧ e.1 < 6291456 + 131072 ∧ e.2 = 2 ^ 23 := by
    intro e he
    obtain ⟨i, hi, rfl⟩ := List.mem_map.1 he
    have := List.mem_range.1 hi
    dsimp only
    rw [k0]
    exact ⟨by omega, by omega, rfl⟩
  unfold Bank.joined Bank.listed
  rw [k1, k2, List.filter_eq_self.2, List.filter_eq_self.2]
  · simp [quarter]
  · intro e he
    obtain ⟨h1, h2, _⟩ := h e he
    simp [h1, h2]
  · intro e he
    obtain ⟨x, hx, rfl⟩ := List.mem_map.1 he
    obtain ⟨h1, h2, h3⟩ := h x (List.mem_filter.1 hx).1
    have : initWord x.1 = 0 := by unfold initWord; rw [if_neg (by omega)]
    show wJoined (x.2 ^^^ initWord x.1) = true
    rw [this, h3]; decide
theorem test_witness_SlotRequests_full : 16384 ≤ (quarter 16384).joined 0 := quarter_joined 16384 (Nat.le_refl _)

theorem test_witness_CommitsAsked :
    let opened := inMode (up.wr R.MAPC_STAT_READY 1) mSOLO
    let stored := fun (s : State) (dl : Nat) => s.start.wr R.MAPC_COMMIT_CTL_DROP_LATE dl
    let v := fun (s : State) (x : Nat × Nat) => ((stored s x.2).clearWords R.MAPC_COMMIT_TAG_TAG 4).commitTag
      { ctl := x.1, epoch := (stored s x.2).rd R.MAPC_COMMIT_EPOCH_EPOCH, tag := (stored s x.2).tagBytes R.MAPC_COMMIT_TAG_TAG }
    let ways := [(1, 0), (2, 0), (6, 1), (8, 0), (12, 1)]
    let enf := opened.wr R.SECURE_CTL_ENFORCE 1
    let busy := { opened with mc := { opened.mc with commit := some { kind := .now } } }
    let s0 := inMode up mSOLO
    ([opened, inMode opened mPRIMARY, enf, busy, s0].all (fun s => s.served .mapc 0 && !s.mc.checking) = true) ∧
    (opened.rd R.MAPC_COMMIT_CTL_DROP_LATE < 2 ∧ ({ opened with mc := { opened.mc with checking := true } } : State).mc.checking = true) ∧
    (ways.all (fun x => !(v enf x).2) = true) ∧
    (ways.all (fun x => (v s0 x).2 && !(v s0 x).1.compilerOpen) = true) ∧
    (ways.all (fun x => (v busy x).2 && (v busy x).1.compilerOpen && (v busy x).1.mc.commit.isSome) = true) ∧
    (ways.all (fun x => (v opened x).2 && (v opened x).1.compilerOpen && (v opened x).1.mc.commit.isNone &&
      (v opened x).1.mode != mPRIMARY) = true) ∧
    (ways.all (fun x => let p := inMode opened mPRIMARY
      (v p x).2 && (v p x).1.compilerOpen && (v p x).1.mc.commit.isNone && (v p x).1.mode == mPRIMARY) = true) := by
  decide +kernel

theorem test_witness_CommitsTakenAndCut :
    let com := fun (k : CommitKind) => ({ kind := k } : Commit)
    let s := fun (k : CommitKind) => { up with mc := { up.mc with inited := true, commit := some (com k) } }
    let en := (s .now).labelOf ((s .now).nextFrame - (s .now).frame)
    let cut := { up with clk := ⟨0, 74400⟩ }
    ((s .now).mc.commit = some (com .now) ∧ (com .now).held = false ∧ (com .now).taken = false ∧ (com .now).ahead = 0 ∧
      (com .now).list = false ∧ (s .now).on R.MAPC_COMMIT_STAT_CATCHUP = false ∧ (s .now).mc.inited = true) ∧
    epochStep en (en + 5) < 2 ^ 39 ∧ 2 ^ 39 ≤ epochStep (en + 6) 5 ∧ 2 ^ 39 ≤ epochStep en (2 ^ 40 - 1) ∧
    (({ com .now with taken := true, due := some 1 } : Commit).dueAt (cut.frame + 1) (cut.labelOf 1) = true ∧ 74400 ≤ cut.cyc) ∧
    (({ com (.arm 5 false) with taken := true } : Commit).dueAt 1 5 = true) ∧
    (com .now).dueAt (up.frame + 1) (up.labelOf 1) = false ∧ up.cyc < 74400 := by decide +kernel

theorem test_witness_ChecksumScans :
    let s := { up with mc := { up.mc with inited := true } }
    let busy := s.wr R.MAPC_COMMIT_STAT_SUM_BUSY 1
    let b := fun (a e : Bool) => { busy with mc := { busy.mc with sumAct := a, sumEdit := e } }
    (s.served .mapc 0 = true ∧ s.on R.MAPC_COMMIT_STAT_SUM_BUSY = false ∧ s.on R.MAPC_COMMIT_STAT_CATCHUP = false ∧ s.mc.inited = true) ∧
    (busy.served .mapc 0 = true ∧ busy.on R.MAPC_COMMIT_STAT_SUM_BUSY = true) ∧
    ((s.wr R.MAPC_COMMIT_STAT_CATCHUP 1).served .mapc 0 = true ∧ (s.wr R.MAPC_COMMIT_STAT_CATCHUP 1).on R.MAPC_COMMIT_STAT_CATCHUP = true) ∧
    (up.served .mapc 0 = true ∧ up.mc.inited = false) ∧
    ((b true true).on R.MAPC_COMMIT_STAT_SUM_BUSY = true ∧ (b true true).mc.sumAct = true ∧ (b true true).start.sumActive.mc.sumEdit = true) ∧
    ((b true false).mc.sumAct = true ∧ (b true false).start.sumActive.mc.sumEdit = false) ∧
    ((b false true).on R.MAPC_COMMIT_STAT_SUM_BUSY = true ∧ (b false true).mc.sumAct = false) := by decide +kernel

theorem test_witness_FabricMaintenance :
    let all := up.wr R.MAPC_CTL_PLANE_EN 255
    let caught := all.wr R.MAPC_COMMIT_STAT_CATCHUP 1
    let w := inMode up mSOLO
    (all.served .mapc 0 = true ∧ andNot 8 (all.rd R.MAPC_CTL_PLANE_EN) 255 = 0 ∧ andNot 8 (all.rd R.MAPC_CTL_PLANE_EN) 254 ≠ 0 ∧
      (all.start.wr R.MAPC_CTL_PLANE_EN 254).editHeld = false) ∧
    (caught.served .mapc 0 = true ∧ andNot 8 (caught.rd R.MAPC_CTL_PLANE_EN) 0 ≠ 0 ∧
      (caught.start.wr R.MAPC_CTL_PLANE_EN 0).editHeld = true ∧ caught.on R.MAPC_COMMIT_STAT_CATCHUP = true) ∧
    (w.fabricOn = true ∧ w.mc.inited = false ∧ w.pow.phase = .running) ∧
    (let lost : WordRef := ⟨.slot, true, 7⟩
     let s := { up with mc := { up.mc with inited := true, edit := { bad := [(refKey lost, 1)] } } }
     wordExists true 7 = true ∧ s.mc.inited = true ∧ (mget? (s.bank true).bad (refKey lost)).isSome = true) ∧
    (wordExists true (2 ^ 22 - 1) = false ∧ mget? (up.bank true).bad 7 = none) ∧
    (({ up with mc := { up.mc with sweeps := [(true, 4)] } } : State).mc.sweeps = (true, 4) :: []) ∧
    (let s := { trained up with mc := { up.mc with inited := true } }
     s.dramReady = true ∧ s.mc.inited = true ∧ s.oldestDirty true 5 = true ∧
     ({ s with mc := { s.mc with edit := { clean := [(5, 1)] } } } : State).oldestDirty true 5 = false) ∧ up.dramReady = false ∧
    up.on R.MAPC_COMMIT_STAT_CATCHUP = false := by decide +kernel

theorem test_witness_PortCommandsEnd :
    let s := fun (p : Port) (op idx : Nat) (cfg : List Nat) => { up with ports := [(portKey p, ⟨op, idx, cfg⟩)] }
    let has := fun (p : Port) (op idx : Nat) => mget? (s p op idx []).ports (portKey p) = some ⟨op, idx, []⟩
    has (.drw 63) 1 8191 ∧ rateCols (((s (.drw 63) 1 8191 []).start.portFree (.drw 63)).rate 63) ≤ 8191 ∧
    (1023 < rateCols (((s (.drw 63) 1 1023 []).start.portFree (.drw 63)).rate 63) ∧ has (.drw 63) 1 1023 ∧ has (.drw 63) 2 1023 ∧ has (.drw 63) 5 1023) ∧
    (has .bench 2 15 ∧ has .prot 2 0 ∧ has .eq 2 65535 ∧ has .pwCtx 2 16383 ∧ has .pwTpl 2 255) ∧
    (((s .prot 2 1023 []).start.portFree .prot).void 1023 = false ∧ ((s .prot 2 1024 []).start.portFree .prot).void 1024 = true) ∧
    (((inMode (s .pwTpl 2 0 []) mSTANDBY).start.portFree .pwTpl).decides = false ∧ ((inMode (s .pwTpl 2 0 []) mSOLO).start.portFree .pwTpl).decides = true) ∧
    (has .prot 5 0 ∧ has .eq 1 0 ∧ has .pwCtx 5 0 ∧ has .pwTpl 4 0 ∧ ((inMode (s .pwTpl 4 0 []) mSOLO).start.portFree .pwTpl).tplUsed 0 = false) ∧
    (let u := { s .pwTpl 4 0 [] with ctxs := [(0, { c0 := 2 ^ 31 })] }
     (u.start.portFree .pwTpl).tplUsed 0 = true) ∧
    (has .prot (8 + 16 * 5) 0 ∧ (let t := ranFor (s .sfab 1 0 []) (.port 65) 6000
      t.portBusy .sfab = true ∧ t.ran (.port (portKey .sfab)) 6000 = true)) := by decide +kernel

theorem test_witness_GroupCommands :
    let s := (inMode up mSOLO).setGrp 31 { cfg := 1 }
    let lo := (inMode up mSOLO).setGrp 31 { cfg := 1, cmd := cmdLO }
    (s.served .prot 0 = true ∧ s.decides = true ∧ (List.range 8).all (fun k =>
      !(k == cmdLO || k == cmdFS || k == cmdMSP || k == cmdMSW || k == cmdCLEAR) || (s.grp 31).accepts (grpPar (s.grp 31).cfg) k) = true) ∧
    (lo.served .prot 0 = true ∧ (lo.grp 31).accepts (grpPar (lo.grp 31).cfg) cmdFS = false) ∧
    (up.served .prot 0 = true ∧ (up.grp 0).accepts (grpPar (up.grp 0).cfg) cmdCLEAR = false) ∧
    ((inMode up mISOLATE).decides = false) ∧
    ((1#32 : W32).toNat.testBit 0 = true ∧ grpW 1 = grpP 1) := by decide +kernel

theorem test_witness_ProtectionTimers :
    let s := inMode up mSOLO
    let t := (s.setSel 5 { wtr := true, wtrRan := 7999 }).setGrp 31 { cfg := 1, wtr := true, wtrRan := 7999 }
    let a := s.setGrp 31 { cfg := 1, mm := true }
    let heard := a.setLane 0 { apsAt := some 0 }
    s.timersRun = true ∧ ((t.timersRun = true ∧ (t.sel 5).wtr = true ∧ (selPar (t.sel 5).cfg).wtr ≤ 1 ∧
      8000 * 1 ≤ (t.sel 5).wtrRan + 1 ∧ (t.grp 31).wtr = true ∧ (grpPar (t.grp 31).cfg).wtr ≤ 1 ∧ 8000 * 1 ≤ (t.grp 31).wtrRan + 1) ∧
    ((grpPar (t.grp 31).cfg).en = true ∧ (t.grp 31).mm = false ∧ t.apsCause 31 = true) ∧
    (heard.apsCause 31 = false ∧ (grpPar (heard.grp 31).cfg).en = true ∧ (heard.grp 31).mm = true) ∧
    ((grpPar ((s.setGrp 31 { cfg := 1, mm := true }).grp 31).cfg).en = true ∧ ((s.setGrp 31 { cfg := 1, mm := true }).grp 31).mm = true)) := by
  decide +kernel

theorem test_witness_DramTraining :
    (up.served .dramc 1 = true ∧ (trained up).on R.DRAMC_STAT_TRAINED 1 = true ∧ up.on R.DRAMC_STAT_TRAINED 1 = false) ∧
    (let s := ranFor (up.wr R.DRAMC_STAT_TRAIN_BUSY 1 1) (.train 1) trainLimit
     s.on R.DRAMC_STAT_TRAIN_BUSY 1 = true ∧ s.ran (.train 1) trainLimit = true) ∧
    (up.domUp (48 + 1) = true ∧ up.domUp (50 + 1) = true) ∧ (trained up).served .dramc 1 = true := by decide +kernel

theorem test_witness_DramWindows :
    let win := fun (ro : Nat) => (((trained up).wr R.DRAMC_WIN_EN 1 0 7).wr R.DRAMC_WIN_RO ro 0 7).wr R.DRAMC_WIN_TARGET 500 0 7
    let req := fun (s : State) (m : Master) (a : Nat) (d : List Byte) => s.start.issue (masterNum m) a true d d.length
    let wins := fun (s : State) (m : Master) (a : Nat) (d : List Byte) => (req s m a d).target = 4 ∧ admits (masterNum m) 4 true = true ∧
      s.start.bestOf 4 (fun j => if j = masterNum m ∧ (s.start.nextAt j 4).isNone then
        (if s.start.targetBusy j 4 then none else some (req s m a d)) else s.start.candidate j 4) = some (req s m a d)
    let held := { win 0 with mx := { (win 0).mx with locks := [(4, 0)] } }
    (up.served .dramc 0 = true ∧ (0x80000000#32 : W32).toNat.testBit 31 = true ∧ bits (0x80000000#32 : W32).toNat 0 11 * 2 ^ 25 < hostRegion) ∧
    ((0#32 : W32).toNat.testBit 31 = false) ∧ up.busUp = true ∧ (req up .host 0x50000000 []).target ≠ 4 ∧
    ((req up .mapc 0x40000000 [1]).target = 4 ∧ admits (masterNum .mapc) 4 true = false) ∧
    ((req held .bench 0x40000000 [1]).target = 4 ∧ admits (masterNum .bench) 4 true = true ∧ masterNum .bench = 5 ∧
      held.start.bestOf 4 (fun j => if j = 5 ∧ (held.start.nextAt j 4).isNone then
        (if held.start.targetBusy j 4 then none else some (req held .bench 0x40000000 [1])) else held.start.candidate j 4) = none) ∧
    (wins up .bench 0x4FFFFFFF [1] ∧ up.windowAddr 0x4FFFFFFF = none) ∧
    (wins (win 1) .host 0x4E000000 [1] ∧ (win 1).windowAddr 0x4E000000 = some (500 * 2 ^ 25, true)) ∧
    (wins (win 0) .host 0x4FFFFFFF [1] ∧ (win 0).windowAddr 0x4FFFFFFF = some (500 * 2 ^ 25 + 0x1FFFFFF, false) ∧
      1 ≤ 2 ^ 25 - 0x4FFFFFFF % 2 ^ 25) ∧
    (State.deviceWrite (4 / 64 + 2) (500 * 2 ^ 25) [1, 2, 3, 4] (win 0)).2 = false ∧
    (State.deviceWrite (64 / 64 + 2) (500 * 2 ^ 25) (List.replicate 64 0) (win 0)).2 = true := by decide +kernel

theorem test_witness_EqualisedGroups :
    let g : EqGroup := { st := eqEQUALISED, path := true, out := { gen := .run }, cw := { done := [(5, 0, true)] } }
    let s := fun (g : EqGroup) => up.setEq 65535 g
    let both := fun (m : Bool) => ({ g with cw := { g.cw with off := some 3, mf := m }, cp := { off := some 9, mf := m } } : EqGroup)
    ((s {}).eqg 65535).st = eqOFF ∧ (((s g).eqg 65535).st ≠ eqOFF ∧ ((s g).eqg 65535).cw.off = none) ∧
    [false, true].all (fun m => let h := (s (both m)).eqg 65535
      h.cw.off == some 3 && h.cp.off == some 9 && (h.cw.mf && h.cp.mf) == m && h.st != eqOFF &&
      (h.copy (Side.working == .protect)).n == 32 * (0#16).toNat) = true ∧
    (((s g).eqg 65535).copy (Side.protect == .protect)).n ≠ 32 * (65535#16).toNat ∧
    (let h := (s g).eqg 65535
     h.path = true ∧ h.out.gen = .run ∧ ((h.copy h.later).sight? (32 * (0#16).toNat + (5 : Fin 32).val)).isSome = true ∧
     ¬ (h.out.rel.map (fun r => r.1)) = some 5 ∧ (h.copy h.later).sight? (32 * (65535#16).toNat + (31 : Fin 32).val) = none) := by
  decide +kernel

/-- Port 7 runs with link; template 0 has no label and no tag and one enabled context 3 uses it. -/
def linked : State :=
  { ((trained up).wr R.ETH_EN_PORT_EN 1 7).wr R.ETH_STAT_LINK 1 7 with
    ctxs := [(3, { c0 := 2 ^ 31 + 7 * 2 ^ 27, c3 := 5 })], tpls := [(0, ⟨0, 0, 0, []⟩)] }
/-- A frame to the broadcast address with Ethertype `t`, its payload beginning with `b`. -/
def ethFrame (t : Nat) (b : List Byte) : List Byte := List.replicate 6 0xFF ++ List.replicate 6 0 ++ beBytes 2 t ++ b ++ List.replicate (100 - b.length) 0

theorem test_witness_EthernetFramesReceived :
    let u := (linked.start.count .eth 7 1).count .ntime 0 5
    let w := u.setEth 7 { u.eth 7 with rxq := [] }
    let pause : List Byte := beBytes 6 0x0180C2000001 ++ List.replicate 6 0 ++ beBytes 2 0x8808 ++ beBytes 2 1 ++ List.replicate 44 0
    let mef := ethFrame 0x88D8 [0, 0, 0x50, 0, 0, 0]
    let other := ethFrame 0x88D8 [0, 0, 0x60, 0, 0, 0]
    let ip := ethFrame 0x0800 []
    let enc := fun (b : List Byte) => match w.pwKey 7 b 12 with
      | .none => 0 | .frag => 1 | .key _ _ _ _ _ => 2
    let ipOk : List Byte := [0x45, 0, 0, 0x30, 0, 0, 0x20, 0, 64, 17, 0x5A, 0xBE, 0, 0, 0, 0, 0, 0, 0, 0]
    let fragd := ethFrame 0x0800 ipOk
    let full := u.setEth 7 { u.eth 7 with rxq := List.replicate 512 (⟨[], true, 0, 0⟩, 0) }
    let ring := ((w.wr R.ETH_EN_HRX_EN 1 7).wr R.ETH_HRX_PTR_WR 1 7)
    (linked.portRuns 7 = true ∧ linked.on R.ETH_STAT_LINK 7 = true) ∧ ((List.replicate 59 (0 : Byte)).length + 4 < 64) ∧
    (u.rd R.ETH_CTL_MAX_LEN 7 < 20000) ∧
    (64 ≤ pause.length + 4 ∧ pause.length + 4 ≤ u.rd R.ETH_CTL_MAX_LEN 7 ∧ u.isPause 7 pause = true) ∧
    ((u.wr R.ETH_CTL_PAUSE_RX 1 7).on R.ETH_CTL_PAUSE_RX 7 = true ∧ (u.wr R.ETH_CTL_PAUSE_RX 0 7).on R.ETH_CTL_PAUSE_RX 7 = false) ∧
    ((full.eth 7).rxq.length = 512 ∧ (u.eth 7).rxq = []) ∧ (ring.ringFull 7 = true ∧ w.ringFull 7 = false) ∧
    (64 ≤ mef.length + 4 ∧ mef.length + 4 ≤ u.rd R.ETH_CTL_MAX_LEN 7 ∧ u.isPause 7 mef = false ∧ w.daOk 7 mef = true ∧
      w.daOk 7 (2 :: mef.drop 1) = false ∧ (w.portTpls 7).any (fun t => t.vids == vlanIds 3 mef 12) = true ∧
      (w.portTpls 7).any (fun t => t.vids == vlanIds 3 (ethFrame 0x8100 []) 12) = false) ∧
    (enc ip = 0 ∧ enc mef = 2 ∧ enc fragd = 1) ∧
    (w.pwKey 7 mef 12 = .key 0 5 0 18 mef.length ∧ w.ctxFor 7 0 5 0 = some 3 ∧ w.pwKey 7 other 12 = .key 0 6 0 18 other.length ∧
      w.ctxFor 7 0 6 0 = none) := by decide +kernel

theorem test_witness_EthernetFramesSent :
    let s := linked.setEth 7 { txq := [{ bytes := [1] }] }
    ((s.eth 7).txq = { bytes := [1] } :: [] ∧ s.portRuns 7 = true ∧ s.on R.ETH_STAT_LINK 7 = true ∧ s.on R.ETH_STAT_PAUSED 7 = false) ∧
    (((s.wr R.ETH_STAT_LINK 0 7).portRuns 7 = true) ∧ (s.wr R.ETH_STAT_LINK 0 7).on R.ETH_STAT_LINK 7 = false) ∧
    (let z := s.setEth 7 { s.eth 7 with quanta := 1000 }
     z.portRuns 7 = true ∧ (ranFor z (.pause 7) 30720).ran (.pause 7) (z.eth 7).pauseTime = true ∧
      (ranFor z (.pause 7) 12287).ran (.pause 7) (z.eth 7).pauseTime = false) ∧
    (up.portRuns 7 = false ∧ s.on R.ETH_EN_HTX_EN 7 = false ∧ up.dramReady = false ∧
      ((s.setEth 7 { hold := some ({ bytes := [1] }, 0, 0) }).eth 7).hold.isSome = true ∧
      (up.eth 7).next % 2 ^ (up.rd R.ETH_HTX_SIZE_SIZE 7 + 1) = up.rd R.ETH_HTX_PTR_WR 7 % 2 ^ (up.rd R.ETH_HTX_SIZE_SIZE 7 + 1)) := by decide +kernel

/-- Ring of port 7 at 2 GiB with one descriptor, `ctl` its byte 7, naming a frame of 64 bytes at device address `a`. -/
def ring (a ctl : Nat) : State :=
  let d := leBytes 5 a ++ leBytes 2 64 ++ leBytes 1 ctl ++ leBytes 5 0 ++ leBytes 3 0 ++ List.replicate 48 0
  let s := ((linked.wr R.ETH_EN_HTX_EN 1 7).wr R.ETH_HTX_PTR_WR 1 7).wr R.ETH_HTX_BASE_BASE (2 ^ 33 / 4096) 7
  (s.burstPut rgHost 0 (descAddr (s.rd R.ETH_HTX_BASE_BASE 7) (s.rd R.ETH_HTX_SIZE_SIZE 7) 0 / 64) (d.take 64)).burstPut rgHost 0
    (2 ^ 34 / 64) (List.replicate 64 0)

theorem test_witness_HostTransmitDescriptors :
    let ready := fun (s : State) => s.portRuns 7 = true ∧ s.on R.ETH_EN_HTX_EN 7 = true ∧ s.dramReady = true ∧ (s.eth 7).hold = none ∧
      (s.eth 7).next % 2 ^ (s.rd R.ETH_HTX_SIZE_SIZE 7 + 1) ≠ s.rd R.ETH_HTX_PTR_WR 7 % 2 ^ (s.rd R.ETH_HTX_SIZE_SIZE 7 + 1)
    let r := fun (s : State) => s.start.hostRead (descAddr (s.rd R.ETH_HTX_BASE_BASE 7) (s.rd R.ETH_HTX_SIZE_SIZE 7) (s.eth 7).next) 32
    let ctl := fun (s : State) => (((r s).2.getD []).getD 7 0).toNat
    let q := fun (s : State) => (r s).1.hostRead (ofLe (sliceBytes ((r s).2.getD []) 0 5)) (ofLe (sliceBytes ((r s).2.getD []) 5 2))
    let a := 2 ^ 34
    (ready { ring a 0 with dram := [] } ∧ (r { ring a 0 with dram := [] }).2 = none) ∧
    (ready (ring (a + 64) 0) ∧ (r (ring (a + 64) 0)).2.isSome = true ∧ (q (ring (a + 64) 0)).2 = none) ∧
    (ready (ring a 0) ∧ (q (ring a 0)).2.isSome = true ∧ (ctl (ring a 0)).testBit 0 = false ∧
      ((ring a 0).eth 7).room (padFrame (List.replicate 64 0)) = true) ∧
    (let s := (ring a 0).setEth 7 { txq := List.replicate 512 { bytes := [] } }
     ready s ∧ (q s).2.isSome = true ∧ (s.eth 7).room (padFrame (List.replicate 64 0)) = false) ∧
    (let s := { ring a 1 with clk := ⟨0, 1⟩ }
     ready s ∧ (q s).2.isSome = true ∧ (ctl s).testBit 0 = true ∧ s.launchPassed 0 0 = true ∧ s.launchPassed 0 1 = false) := by decide +kernel

theorem test_witness_PseudowirePlayout :
    let s := fun (c : Ctx) => { trained up with ctxs := [(16383, { c with c0 := 2 ^ 31 })] }
    let ready := fun (s : State) => (s.ctx 16383).en = true ∧ s.ctxUp 16383 = true ∧ s.dramReady = true
    let fill : Ctx := { st := xFILL, play := some 0, units := [(4, false)] }
    let late := s { late := [(4, ([1], false))] }
    (({ up with ctxs := [(16383, { c0 := 2 ^ 31, st := xRUN })] } : State).dramReady = false ∧ up.ctxUp 16383 = true ∧ up.ctxUp 0 = true) ∧
    (ready (s { st := xRUN }) ∧ ((s { st := xRUN }).ctx 16383).st = xRUN) ∧
    (ready (s fill) ∧ ((s fill).ctx 16383).begin? = some 4 ∧ ((s fill).ctx 16383).filled 4 = true) ∧
    (let t : State := { trained up with ctxs := [(16383, { fill with c0 := 2 ^ 31 + 512 * 1024 })] }
     ready t ∧ (t.ctx 16383).begin? = some 4 ∧ (t.ctx 16383).filled 4 = false) ∧
    (((s { line := [(4, [1]), (5, [2])] }).ctx 16383).burstDue 4 = true ∧ ((s fill).ctx 16383).burstDue 4 = false) ∧
    (mget? (late.ctx 16383).late 4 = some ([1], false) ∧ mget? (late.ctx 16383).late 5 = none ∧
      (late.burstGet 2 (unitTag 4) (unitBurst 16383 4)).2.isNone = true ∧
      ((late.burstPut 2 (unitTag 4) (unitBurst 16383 4) (List.replicate 64 0)).burstGet 2 (unitTag 4) (unitBurst 16383 4)).2.isSome = true) := by
  decide +kernel

theorem test_witness_ReferenceChanges :
    let s := (((up.wr R.TIMING_REF_CFG_HIT 1 0 11).wr R.TIMING_REF_STAT_ACTIVE 1 0 11).wr R.TIMING_REF_CFG_EN 1 0 11).setRef 11 { good := true }
    let late := { s with clk := ⟨10000000, 0⟩ }
    let p := (s.wr R.TIMING_REF_STAT_PERSIST_RUN 1 0 11).setRef 11 { beyond := 100 }
    (s.timingUp = true ∧ (7 : Fin 13).val < 8 ∧ 8 ≤ (8 : Fin 13).val ∧ (up.wr R.TIMING_REF_CFG_EN 1 0 7).on R.TIMING_REF_CFG_EN 0 7 = true ∧
      (up.wr R.TIMING_REF_CFG_EN 0 0 7).on R.TIMING_REF_CFG_EN 0 7 = false) ∧
    ((11 : Fin 13).val ≠ 12 ∧ s.rd R.TIMING_REF_CFG_HIT 0 11 = 1 ∧ 100 * 1 < 101 ∧ s.refActive 11 = true ∧ up.refActive 11 = false) ∧
    ((s.ref 11).good = true ∧ s.refQual 11 = false ∧ s.on R.TIMING_REF_STAT_LOCKOUT 0 11 = false ∧ s.loFail = false ∧
      s.rd R.TIMING_REF_CFG_WTR 0 11 ≤ 720 ∧ (late.ref 11).since + 8000 * late.rd R.TIMING_REF_CFG_WTR 0 11 ≤ late.frame) ∧
    (let l := s.wr R.TIMING_REF_STAT_LOCKOUT 1 0 11
     l.on R.TIMING_REF_STAT_LOCKOUT 0 11 = true ∧ (ranFor l (.lockout 11) 36000000000).ran (.lockout 11) 36000000000 = true ∧
      (ranFor l (.lockout 11) 35999999999).on R.TIMING_REF_STAT_LOCKOUT 0 11 = true ∧
      (ranFor l (.lockout 11) 35999999999).ran (.lockout 11) 36000000000 = false) ∧
    (p.on R.TIMING_REF_STAT_PERSIST_RUN 0 11 = true ∧ p.rd R.TIMING_THRESH_PERSIST ≤ 100 ∧ 100 ≤ (p.ref 11).beyond) := by decide +kernel

theorem test_witness_DpllCommands :
    let s := fun (st : Nat) => up.wr R.TIMING_DPLL_STAT_STATE st
    let lo := up.wr R.TIMING_DPLL_STAT_LO_FAIL 1
    let steady := { s dLOCKING with tm := { up.tm with inPhase := 10 } }
    let held := (s dHOLDOVER).wr R.TIMING_HO_ELAPSED_SECONDS (2 ^ 24 - 1)
    (up.timingUp = true ∧ up.loFail = false ∧ lo.loFail = true) ∧
    ((s dTRANSITION).dpll = dTRANSITION ∧ (s dTRANSITION).mode ≠ mSTANDBY ∧ (s dTRANSITION).mode ≠ mISOLATE ∧ (s dTRANSITION).tm.retarget = none ∧
      ({ s dTRANSITION with tm := { up.tm with retarget := some 12 } } : State).tm.retarget = some 12 ∧
      ({ s dTRANSITION with tm := { up.tm with retarget := some 15 } } : State).tm.retarget = some 15) ∧
    (((s dTRANSITION).wr R.TIMING_DPLL_STAT_STEP 9).rd R.TIMING_DPLL_STAT_STEP < 10 ∧
      10 ≤ ((s dTRANSITION).wr R.TIMING_DPLL_STAT_STEP 10).rd R.TIMING_DPLL_STAT_STEP) ∧
    (steady.dpll = dLOCKING ∧ 10 ≤ steady.tm.inPhase ∧ (s dLOCKING).tm.inPhase < 10 ∧ (s dHOLDOVER).dpll ≠ dLOCKING) ∧
    (held.dpll = dHOLDOVER ∧ held.on R.TIMING_DPLL_STAT_HO_OOS = false ∧
      held.rd R.TIMING_HO_CFG_HO_SPEC ≤ held.rd R.TIMING_HO_ELAPSED_SECONDS) := by
  decide +kernel

theorem test_witness_ClockSamplesAndSteps :
    let s := up.wr R.NTIME_STAT_STATE vACQUIRE
    let own := { s with nt := { s.nt with master := some (s.rd R.NTIME_MASTER_ID_ID) } }
    let other := { s with nt := { s.nt with master := some 9 } }
    let u := fun (s : State) => ((s.start.mark .sample).wr R.NTIME_OFFSET_OFFSET 0).count .ntime 0 1
    (up.served .ntime 0 = true ∧ (u up).servo = vFREERUN) ∧
    ((u other).servo ≠ vFREERUN ∧ (u other).nt.master ≠ some (other.rd R.NTIME_MASTER_ID_ID)) ∧
    ((u own).servo ≠ vFREERUN ∧ (u own).nt.master = some (own.rd R.NTIME_MASTER_ID_ID)) ∧
    (up.nt.step = none ∧ ({ up with nt := { up.nt with step := some (true, false, 1) } } : State).nt.step.isSome = true) ∧
    (let t := ranFor s .sample (60000000 * 30)
     t.timingUp = true ∧ t.servo ≠ vFREERUN ∧ t.rd R.NTIME_LIMITS_MASTER_TMO ≤ 30 ∧ t.ran .sample (60000000 * 30) = true) := by decide +kernel

theorem test_witness_ActionsAndPulses :
    let u := (up.start.wr R.NTIME_ACT_CTL_ACTION 4 0 15).wr R.NTIME_ACT_CTL_DROP_LATE 1 0 15
    let ahead := u.wr R.NTIME_ACT_EPOCH_LO_EPOCH 100 0 15
    let past := { u with nt := { u.nt with k := 100 } }
    let pps := up.wr R.NTIME_PPS_EN 1
    (up.served .ntime 0 = true ∧ (5#4).toNat ≥ 5 ∧ (4#4).toNat ≠ 0 ∧ (4#4).toNat < 5) ∧
    decide (2 ^ 39 ≤ epochStep (ahead.labelOf 1) (ahead.actEpoch 15)) = false ∧ decide (2 ^ 39 ≤ epochStep (past.labelOf 1) (past.actEpoch 15)) = true ∧
    (pps.on R.NTIME_PPS_EN = true ∧ pps.mode ≠ mISOLATE ∧ pps.timingUp = true ∧ pps.secondNow = true) ∧
    (up.on R.NTIME_PPS_EN = false ∧ (inMode up mISOLATE).mode = mISOLATE ∧ ({ pps with clk := ⟨1, 0⟩ } : State).secondNow = false ∧
      ({ up with pow := { up.pow with up := 0 } } : State).timingUp = false) ∧
    (let span := 600000 * up.rd R.NTIME_PPS_WIDTH
     up.now < up.nt.ppsAt + span ∧ (let t := { up with clk := ⟨1000000, 0⟩ }; t.nt.ppsAt + span ≤ t.now)) := by decide +kernel

theorem test_witness_EventQueueCommands :
    let s := { up with ev := { up.ev with queue := [7] } }
    (up.pageServed .lanep 63 = true ∧ up.pageServed .conf 0 = true) ∧ (s.served .event 0 = true ∧ s.ev.queue = 7 :: [] ∧ up.ev.queue = []) ∧
    ((0x800004AF#32 : W32).toNat.testBit 31 = true ∧ bits (0x800004AF#32 : W32).toNat 4 7 = 74) ∧
    ((0x3FF#32 : W32).toNat.testBit 31 = false ∧ bits (0x3FF#32 : W32).toNat 4 7 = 63) := by decide +kernel

theorem test_witness_CountersAndSnapshots :
    let s := { up with ev := { up.ev with wraps := [pageSlot .lanep 63 * 8 + 7] } }
    up.pageServed .eth 7 = true ∧ s.ev.wraps.contains (pageSlot .lanep 63 * 8 + (7 : Fin 8).val) = true ∧ up.served .perf 0 = true ∧
    (up.pageUp .perf 0 = true ∧ up.ev.snapPin = false ∧ (up.wr R.PERF_CTL_PIN_MODE 1).rd R.PERF_CTL_PIN_MODE = 1 ∧
      (up.wr R.PERF_CTL_PIN_MODE 1).ev.snapAt ≠ some (up.wr R.PERF_CTL_PIN_MODE 1).now) ∧
    (let u := { up.wr R.PERF_CTL_PIN_MODE 1 with ev := { up.ev with snapAt := some up.now } }
     u.served .perf 0 = true ∧ u.pageUp .perf 0 = true ∧ u.ev.snapPin = false ∧ u.rd R.PERF_CTL_PIN_MODE = 1 ∧ u.ev.snapAt = some u.now) ∧
    (({ up with ev := { up.ev with snapPin := true } } : State).ev.snapPin = true ∧ (up.wr R.PERF_CTL_PIN_MODE 2).rd R.PERF_CTL_PIN_MODE ≠ 1) := by
  decide +kernel

theorem test_witness_TraceCommands :
    let s := { up with ev := { up.ev with trace := [5] } }
    let d := s.wr R.PERF_TR_CTL_DRAIN_EN 1
    let m := ((inMode up mMAINT).wr R.PERF_TR_CTL_EN 1).wr R.PERF_TR_CTL_FILTER 127
    let kind := fun (k : Nat) => m.wr R.PERF_TR_CTL_KIND k
    let w := fun (base : Nat) => (({ (d.wr R.PERF_TR_RING_BASE_BASE base).start with ev := { d.ev with trace := [] } } : State).m5Write (base * 16) (leBytes 16 5)).cause
    (s.served .perf 0 = true ∧ s.ev.trace = 5 :: [] ∧ s.on R.PERF_TR_CTL_DRAIN_EN = false) ∧ (up.ev.trace = [] ∧ d.on R.PERF_TR_CTL_DRAIN_EN = true) ∧
    (m.pageUp .perf 0 = true ∧ m.tracing = true ∧ (traceStages (m.rd R.PERF_TR_CTL_KIND)).contains 1 = true ∧ m.rd R.PERF_TR_CTL_KIND = 0) ∧
    ((kind 2).rd R.PERF_TR_CTL_KIND = 2 ∧ (kind 2).tracing = true ∧ (traceStages 2).contains 0x12 = true ∧ (5#16).toNat % 8 = 5 ∧ (4#16).toNat % 8 ≠ 5) ∧
    ((m.start.traceCandidate 0 0 0).2 = true ∧ ((m.wr R.PERF_TR_CTL_FILTER 5).start.traceCandidate 0 0 0).2 = false) ∧
    (let at' := fun (base : Nat) => d.wr R.PERF_TR_RING_BASE_BASE base
     let q := fun (s : State) => ({ s.start.issue 5 (s.rd R.PERF_TR_RING_BASE_BASE * 16) true [] 16 with issued := s.mx.drainAt } : BusReq)
     let sp := (at' 0x3000000).wr R.SECURE_SP_STAT_INIT_DONE 1
     let lost := { sp with mx := { sp.mx with locks := [(3, 0)] } }
     (d.pageUp .perf 0 = true ∧ d.ev.trace = 5 :: [] ∧ d.on R.PERF_TR_CTL_DRAIN_EN = true) ∧ (w 0x3000000 = 0 ∧ w 0 ≠ 0) ∧
     (q (at' (2 ^ 28 - 1))).byDefault = true ∧ ((q sp).byDefault = false ∧ sp.start.winner (q sp).target = some (q sp)) ∧
     ((q lost).byDefault = false ∧ lost.start.winner (q lost).target = none)) := by decide +kernel

theorem test_witness_LifeCycleChanges :
    let st := fun (c : Nat) => (up.wr R.SECURE_LC_STATE c).wr R.SECURE_LC_KEY_KEY 0x4C1FEC7C
    let enf := { (st 1).wr R.SECURE_CTL_ENFORCE 1 with sec := { up.sec with kAuth := [1] } }
    let c := fun (s : State) => s.start.checkTag (tagHeader 0x53 2 s.authSeq 0) [] (s.tagBytes R.SECURE_LC_TAG_TAG)
    let t := (hmacSha256 [1] (tagHeader 0x53 2 enf.authSeq 0)).take 16
    let tagged := (List.range 4).foldl (fun (s : State) j => s.wr R.SECURE_LC_TAG_TAG (ofLe (sliceBytes t (4 * j) 4)) 0 j) enf
    let may := fun (s : State) (to' : Nat) => s.rd R.SECURE_LC_KEY_KEY = 0x4C1FEC7C ∧ lcAllowed (s.rd R.SECURE_LC_STATE) to' = true ∧
      s.on R.SECURE_LC_WIPE_BUSY = false
    let needs := fun (s : State) => s.enforced = true ∧ s.authHeld = true ∧ s.rd R.SECURE_LC_STATE = lcPROVISIONED
    (up.served .secure 0 = true ∧ ¬ may up 1) ∧ (may (st 0) 3 ∧ ¬ needs (st 0)) ∧ (may enf 2 ∧ needs enf ∧ (c enf).2 = false) ∧
    (may tagged 2 ∧ needs tagged ∧ (c tagged).2 = true) ∧
    (({ up with sec := { up.sec with wipe := some 3 } } : State).sec.wipe = some 3) := by decide +kernel

theorem test_witness_KeysAndTamper :
    let p := up.wr R.SECURE_LC_STATE lcPROVISIONED
    let d := up.wr R.SECURE_LC_STATE lcDEPLOYED
    let open' := fun (s : State) (used : Fld) => s.enforced = false ∧ s.on R.SECURE_LC_TAMPER_IN = false ∧
      (s.rd R.SECURE_LC_STATE = lcPROVISIONED ∨ (s.rd R.SECURE_LC_STATE = lcDEPLOYED ∧ s.on used = false))
    let keys := { p with sec := { p.sec with kId := [1], kAuth := [2] } }
    let busy := { keys.wr R.SECURE_ID_CMD_BUSY 1 with sec := { keys.sec with resp := some [3] } }
    (up.served .secure 0 = true ∧ ¬ open' up R.SECURE_LC_K_ID_USED ∧ ¬ open' (d.wr R.SECURE_LC_K_AUTH_USED 1) R.SECURE_LC_K_AUTH_USED) ∧
    (open' p R.SECURE_LC_K_ID_USED ∧ open' d R.SECURE_LC_K_ID_USED ∧ p.rd R.SECURE_LC_STATE = lcPROVISIONED ∧ d.rd R.SECURE_LC_STATE = lcDEPLOYED ∧
      open' p R.SECURE_LC_K_AUTH_USED ∧ open' d R.SECURE_LC_K_AUTH_USED) ∧
    ((keys.rd R.SECURE_LC_STATE = lcPROVISIONED ∨ keys.rd R.SECURE_LC_STATE = lcDEPLOYED) ∧ keys.authHeld = true ∧ p.authHeld = false) ∧
    (p.rd R.SECURE_LC_STATE = lcPROVISIONED ∧ d.rd R.SECURE_LC_STATE ≠ lcPROVISIONED) ∧
    (keys.idHeld = true ∧ keys.on R.SECURE_ID_CMD_BUSY = false) ∧
    (busy.on R.SECURE_ID_CMD_BUSY = true ∧ busy.sec.resp = some [3]) ∧ up.domUp 0 = true := by decide +kernel

theorem test_witness_ScratchpadStartAndTest :
    let s := ((up.wr R.SECURE_ST_CTL_EN 1).wr R.SECURE_SP_STAT_INIT_DONE 1)
    (up.domUp 0 = true ∧ up.on R.SECURE_SP_STAT_INIT_DONE = false) ∧
    (let gap := fun (s : State) => (ranFor s .line 6000).stRuns = true ∧
       (ranFor s .line 6000).ran .line (600 * (ranFor s .line 6000).rd R.SECURE_ST_CTL_GAP) = true
     gap s ∧ gap (s.wr R.SECURE_ST_STAT_LINE 8191) ∧ gap (s.wr R.SECURE_SP_STAT_ST_FAIL 1)) := by decide +kernel

/-- A unit in STANDBY that takes records on lane 0, in frame 2. -/
def standby : State := pair mSTANDBY
theorem test_witness_MirrorRecordsTaken :
    let r := fun (type label row : Nat) => record type 7 label row [0, 0, 0, 0, 0, 0, 0, 0]
    let good := fun (s : State) (r : List Byte) => r.length = 16 ∧ s.dxEn = true ∧ s.dxSync 0 = true ∧
      crc16 (bytesToBits (r.take 14)) = ofBe (r.drop 14) ∧ (s.mate.rxSeq = none ∨ s.mate.rxSeq = some (recSeq r)) ∧ s.takesMirror = true
    let seq := { standby with mate := { standby.mate with rxSeq := some 7 } }
    let iso := (pair mISOLATE).wr R.MATE_STAT_RTS_STEP 4
    (good standby (r 1 3 5) ∧ good seq (r 2 3 5) ∧ good iso (r 3 3 5)) ∧
    (standby.rowPassed (standby.recRow (r 1 3 5)) = false ∧ standby.rowPassed (standby.recRow (r 2 0 5)) = true ∧ good standby (r 2 0 5)) ∧
    (standby.frame < standby.recFrame (r 3 3 0) ∧ standby.recFrame (r 4 0 0) ≤ standby.frame) ∧
    ((List.range 12).all (fun k => k == 0 || ((r k 3 0).getD 0 0).toNat == k) = true) ∧
    ((standby.wr R.MATE_STAT_PULL_BUSY 1).on R.MATE_STAT_PULL_BUSY = true ∧ standby.on R.MATE_STAT_PULL_BUSY = false) := by decide +kernel
theorem test_witness_MirrorRecordsChecked :
    let r := record 1 7 3 5 []
    let bad := r.take 15 ++ [(r.getD 15 0) ^^^ 1]
    let iso := pair mPRIMARY
    let held := { standby with mate := { standby.mate with held := [⟨72, false, .req 5 true false⟩, ⟨900, false, .commit true false false true 0⟩] } }
    let com := fun (own cancel : Bool) => { standby with mate := { standby.mate with held := [⟨72, own, .commit true false false cancel 0⟩] } }
    let finds := fun (own cancel : Bool) => (com own cancel).mate.held.find? (fun x => (com own cancel).rowReached x.row) =
      some ⟨72, own, .commit true false false cancel 0⟩
    (r.length = 16 ∧ (r.getD 0 0).toNat = 1 ∧ (r.take 15).length ≠ 16 ∧ up.dxEn = false) ∧
    (standby.dxEn = true ∧ standby.dxSync 0 = true ∧ bad.length = 16 ∧ ¬ crc16 (bytesToBits (bad.take 14)) = ofBe (bad.drop 14)) ∧
    (crc16 (bytesToBits (r.take 14)) = ofBe (r.drop 14) ∧ iso.takesMirror = false ∧ iso.dxEn = true ∧ iso.mate.rxSeq = none) ∧
    (let e := record 11 7 3 5 []
     let t := { iso with mc := { iso.mc with inited := true } }
     e.length = 16 ∧ (e.getD 0 0).toNat = 0xB ∧ crc16 (bytesToBits (e.take 14)) = ofBe (e.drop 14) ∧ t.mode = mPRIMARY ∧
     t.mc.inited = true ∧ t.dxEn = true ∧ t.dxSync 0 = true ∧ t.mate.rxSeq = none) ∧
    (let s := { iso with mate := { iso.mate with rxSeq := some 8 } }
     s.takesMirror = false ∧ s.mate.rxSeq = some 8 ∧ 8 ≠ recSeq r) ∧
    (held.mate.held.find? (fun x => held.rowReached x.row) = some ⟨72, false, .req 5 true false⟩ ∧
      finds false true ∧ finds true false ∧ finds false false ∧ (com false false).mc.commit = none ∧
      standby.mate.held.find? (fun x => standby.rowReached x.row) = none) := by decide +kernel

theorem test_witness_MateCommands :
    let dx := (List.range 8).foldl (fun (s : State) j => s.wr R.MATE_DXEQ_BYTES (if j % 4 = 0 then 0x170080 else 0) 0 j) up
    let valid := fun (s : State) => ∀ l ∈ List.range 2, recordOk (s.dxRecord l) = true ∧ recordValid (s.dxRecord l) = true
    let hb : List Byte := (List.replicate 56 (0 : Byte)).set 9 5 |>.set 11 64
    let ready := { pair mPRIMARY with mate := { (pair mPRIMARY).mate with hb := hb } }
    let iso := pair mISOLATE
    (up.served .mate 0 = true ∧ valid dx ∧ ¬ valid up) ∧ (ready.mode = mPRIMARY ∧ ready.mateReady = true ∧ (pair mPRIMARY).mateReady = false) ∧
    (iso.mode = mISOLATE ∧ iso.rd R.MATE_STAT_RTS_STEP = 0 ∧ (iso.wr R.MATE_STAT_RTS_STEP 3).rd R.MATE_STAT_RTS_STEP = 3) ∧
    (standby.mode = mSTANDBY ∧ standby.on R.MATE_STAT_PULL_BUSY = false ∧ (standby.wr R.MATE_STAT_PULL_BUSY 1).on R.MATE_STAT_PULL_BUSY = true) ∧
    (iso.mateUp = true ∧ (iso.wr R.MATE_STAT_RTS_STEP 1).rd R.MATE_STAT_RTS_STEP = 1 ∧ iso.hbLost = false ∧ iso.aligned = true ∧
      iso.on R.MATE_STAT_PULL_BUSY = false) ∧
    ((iso.wr R.MATE_STAT_RTS_STEP 3).mateUp = true ∧ (iso.wr R.MATE_STAT_RTS_STEP 3).rd R.MATE_STAT_RTS_STEP = 3) ∧
    (let w := (((iso.updMate (fun m => { m with sumOk := true })).wr R.MATE_STAT_MIR_CUR 1).wr R.MATE_STAT_RTS_STEP 4).readyFollow
     w.mode = mISOLATE) ∧ standby.readyFollow.mode ≠ mISOLATE := by decide +kernel

/-- Four sums written, read back. -/
theorem sums_written (s : State) (a b c d : Nat) :
    let u := (((((s.wr R.MAPC_ACT_DSUM_SUM a).wr R.MAPC_ACT_SSUM_SUM b).wr R.MAPC_COMMIT_STAT_SUM_VALID 1).wr R.MAPC_EDIT_DSUM_SUM c).wr
      R.MAPC_EDIT_SSUM_SUM d).wr R.MAPC_COMMIT_STAT_EDIT_SUM_VALID 1
    u.rd R.MAPC_ACT_DSUM_SUM = a % 2 ^ 32 ∧ u.rd R.MAPC_ACT_SSUM_SUM = b % 2 ^ 32 ∧ u.rd R.MAPC_EDIT_DSUM_SUM = c % 2 ^ 32 ∧
    u.rd R.MAPC_EDIT_SSUM_SUM = d % 2 ^ 32 := by
  intro u
  refine ⟨?_, ?_, ?_, ?_⟩
  · exact ((State.rd_wr_ne _ _ (by decide)).trans ((State.rd_wr_ne _ _ (by decide)).trans ((State.rd_wr_ne _ _ (by decide)).trans
      ((State.rd_wr_ne _ _ (by decide)).trans ((State.rd_wr_ne _ _ (by decide)).trans (State.rd_wr_same _ _ _ _ _))))))
  · exact ((State.rd_wr_ne _ _ (by decide)).trans ((State.rd_wr_ne _ _ (by decide)).trans ((State.rd_wr_ne _ _ (by decide)).trans
      ((State.rd_wr_ne _ _ (by decide)).trans (State.rd_wr_same _ _ _ _ _)))))
  · exact ((State.rd_wr_ne _ _ (by decide)).trans ((State.rd_wr_ne _ _ (by decide)).trans (State.rd_wr_same _ _ _ _ _)))
  · exact ((State.rd_wr_ne _ _ (by decide)).trans (State.rd_wr_same _ _ _ _ _))

/-- The four sums of a unit whose words all pass their check are words, so a mate's four sums may equal them or not. -/
theorem test_witness_MateCommands_sums (s : State) (ha : s.mc.act.bad = []) (he : s.mc.edit.bad = []) :
    let u := s.sumActive.sumEditing
    (∃ a b c d : W32, u.rd R.MAPC_ACT_DSUM_SUM = a.toNat ∧ u.rd R.MAPC_ACT_SSUM_SUM = b.toNat ∧ u.rd R.MAPC_EDIT_DSUM_SUM = c.toNat ∧
      u.rd R.MAPC_EDIT_SSUM_SUM = d.toNat) ∧ ∃ a : W32, u.rd R.MAPC_ACT_DSUM_SUM ≠ a.toNat := by
  have r : ∀ (t : State) (e : Bool), (t.bank e).bad = [] → t.rebuildBad e = t := by
    intro t e h
    unfold State.rebuildBad; rw [h]; rfl
  have w : ∀ n : Nat, ∃ a : W32, n % 2 ^ 32 = a.toNat := fun n => ⟨BitVec.ofNat 32 n, by simp⟩
  have q1 : s.sumActive = ((s.wr R.MAPC_ACT_DSUM_SUM s.mc.act.dsum).wr R.MAPC_ACT_SSUM_SUM s.mc.act.ssum).wr R.MAPC_COMMIT_STAT_SUM_VALID 1 := by
    unfold State.sumActive; rw [r s false ha]
  have q2 : ∀ t : State, (t.bank true).bad = [] → t.sumEditing =
      ((t.wr R.MAPC_EDIT_DSUM_SUM t.mc.edit.dsum).wr R.MAPC_EDIT_SSUM_SUM t.mc.edit.ssum).wr R.MAPC_COMMIT_STAT_EDIT_SUM_VALID 1 := by
    intro t h
    unfold State.sumEditing; rw [r t true h]
  have q3 : ∃ a b, s.sumActive = ((s.wr R.MAPC_ACT_DSUM_SUM a).wr R.MAPC_ACT_SSUM_SUM b).wr R.MAPC_COMMIT_STAT_SUM_VALID 1 := ⟨_, _, q1⟩
  have q4 : ∀ t : State, (t.bank true).bad = [] → ∃ c d, t.sumEditing =
      ((t.wr R.MAPC_EDIT_DSUM_SUM c).wr R.MAPC_EDIT_SSUM_SUM d).wr R.MAPC_COMMIT_STAT_EDIT_SUM_VALID 1 := fun t h => ⟨_, _, q2 t h⟩
  clear q1 q2
  obtain ⟨a, b, e⟩ := q3
  rw [e]
  obtain ⟨c, d, e⟩ := q4 (((s.wr R.MAPC_ACT_DSUM_SUM a).wr R.MAPC_ACT_SSUM_SUM b).wr R.MAPC_COMMIT_STAT_SUM_VALID 1) he
  rw [e]
  obtain ⟨e1, e2, e3, e4⟩ := sums_written s a b c d
  dsimp only
  rw [e1, e2, e3, e4]
  obtain ⟨x, hx⟩ := w a
  obtain ⟨y, hy⟩ := w b
  obtain ⟨z, hz⟩ := w c
  obtain ⟨v, hv⟩ := w d
  refine ⟨⟨x, y, z, v, hx, hy, hz, hv⟩, x + 1, ?_⟩
  rw [hx]
  intro h
  have := BitVec.eq_of_toNat_eq h
  exact absurd this (by bv_omega)

theorem test_witness_MatePins :
    let s := standby.wr R.MATE_STAT_GASP_IN 1
    let own := standby.wr R.MATE_STAT_CLAIM_OWN 1
    ({ standby with pow := { standby.pow with up := 3 } } : State).mateUp = false ∧
    (standby.mateUp = true ∧ standby.on R.MATE_STAT_GASP_IN = false ∧ standby.mode = mSTANDBY ∧ (pair mPRIMARY).mode ≠ mSTANDBY) ∧
    (s.mateUp = true ∧ s.on R.MATE_STAT_GASP_IN = true) ∧ (standby.on R.MATE_STAT_CLAIM_MATE = false) ∧
    ((own.on R.MATE_STAT_CLAIM_OWN && true) = true ∧ (own.rd (R.HDR_EVT_RAW_RAW .mate)).testBit 10 = false) ∧
    ((standby.on R.MATE_STAT_CLAIM_OWN && true) = false ∧ ((own.wr (R.HDR_EVT_RAW_RAW .mate) 1024).rd (R.HDR_EVT_RAW_RAW .mate)).testBit 10 = true) := by
  decide +kernel

theorem test_witness_Heartbeats :
    let b : List Byte := (List.replicate 54 (0 : Byte)).set 9 0x85
    let lo := b ++ beBytes 2 (crc16 (bytesToBits b))
    let s := { standby with clk := ⟨2, 0⟩ }
    let late := standby
    (lo.length = 56 ∧ (lo.take 55).length ≠ 56 ∧ s.hbGood 0 lo = true ∧ s.hbGood 0 (List.replicate 56 0) = false) ∧
    (late.dxEn = true ∧ late.mate.hbNow = false ∧ 18 ≤ late.row) ∧
    ((late.wr R.MATE_CTL_HB_MISS 2).mate.hbMiss + 1 < (late.wr R.MATE_CTL_HB_MISS 2).rd R.MATE_CTL_HB_MISS) ∧
    ((late.wr R.MATE_CTL_HB_MISS 1).rd R.MATE_CTL_HB_MISS ≤ (late.wr R.MATE_CTL_HB_MISS 1).mate.hbMiss + 1 ∧ late.hbLost = false ∧
      (late.wr R.MATE_STAT_HB_LOST 1).hbLost = true) := by decide +kernel

theorem test_witness_ChainFrames :
    let f := frame
    let s := up.wr R.SEQ_CHN_ADDR_ADDR 5
    let fresh := { up with chain := { up.chain with tokIn := true } }
    let full := { s with chain := { s.chain with queue := List.replicate 16 (.inp, 0) } }
    let bad : BitVec 96 := f 5 opRD 0 0 false ^^^ 1
    (s.pow.phase ≠ .unpowered ∧ s.synced .inp = true ∧ s.synced .outp = true ∧ fCrcOk bad = false) ∧
    ([opENUM, opRD, opWR, opWAKE, opRESET].all (fun op => fCrcOk (f 5 op 8 9 false) && !fArm (f 5 op 8 9 false) && fOp (f 5 op 8 9 false) == op &&
      fUnit (f 5 op 8 9 false) == 5) = true) ∧
    (fresh.rd R.SEQ_CHN_ADDR_ADDR = 0 ∧ fresh.chain.tokIn = true ∧ fTaken (f 0 opENUM 0 62 false) = false ∧ fData (f 0 opENUM 0 62 false) % 64 = 62) ∧
    (¬ (1 ≤ fData (f 0 opENUM 0 63 false) % 64 ∧ fData (f 0 opENUM 0 63 false) % 64 ≤ 62)) ∧
    (s.rd R.SEQ_CHN_ADDR_ADDR = 5 ∧ ({ s with pow := { s.pow with phase := .soft } } : State).inReset = true ∧ s.inReset = false) ∧
    (({ s with pow := { s.pow with up := 1 } } : State).domUp 1 = false ∧ s.domUp 1 = true ∧ fAddr (f 5 opRD 9 0 false) % 4 ≠ 0 ∧
      fAddr (f 5 opRD 8 0 false) % 4 = 0 ∧ 16 ≤ full.chain.queue.length ∧ s.chain.queue.length < 16) ∧
    (fUnit (f 63 opWR 8 0 false) = 63 ∧ s.rd R.SEQ_CHN_ADDR_ADDR ≠ 63 ∧ fUnit (f 63 opRESET 0 0 false) = 63 ∧ fUnit (f 63 opWAKE 0 0 false) = 63) ∧
    (let z := inMode s mSLEEP
     z.mode = mSLEEP ∧ z.pow.waking = none ∧ z.pow.phase = .running ∧ z.rd R.SEQ_CHN_ADDR_ADDR ≠ 63 ∧ s.mode ≠ mSLEEP) ∧ (fUnit (f 0 opRD 8 0 false) = 0 ∧ fUnit (f 6 opRD 8 0 false) ≠ 5) ∧
    (fArm (f 5 opNOTIFY 0 0 true) = true ∧ fCrcOk (f 5 opNOTIFY 0 0 true) = true ∧ fOp (f 5 opNOTIFY 0 0 true) = opNOTIFY ∧
      fOp (f 5 opENUM 0 0 true) = opENUM ∧ fArm (f 5 opENUM 0 0 true) = true) := by decide +kernel

theorem test_witness_ChainQueueAndLine :
    let s := fun (f : BitVec 96) => { up with chain := { up.chain with queue := [(.inp, f)] } }
    let wr := frame 5 opWR 0x30000000 0 false
    let rd := frame 5 opRD 0x30000000 0 false
    let none' := frame 5 opRD 0x60000000 0 false
    let all := frame 63 opWR 0x30000000 0 false
    let good := fun (f : BitVec 96) => let s := (s f).wr R.SECURE_SP_STAT_INIT_DONE 1
      s.busUp = true ∧ s.targetBusy 1 (s.chainReq f).target = false ∧ (s.winner (s.chainReq f).target).any (fun w => w.m == 1) = true ∧
      ((State.chainPop { s.start with mx := { s.mx with last := mapSet 5 s.mx.last (s.chainReq f).target 1 } }).transact (s.chainReq f)).cause = 0
    let note := (((up.wr (R.HDR_EVT_STATUS_STATUS .power) 1).wr (R.HDR_EVT_MASK_MASK .power) 0).wr R.SEQ_CHN_CFG_NOTIFY_EN 1).wr
      R.EVENT_GRP_ROUTE_NOTIFY_EN 1 0 65
    let due := { note with chain := { note.chain with notifyAt := some 0 }, clk := ⟨10000, 0⟩ }
    (up.chain.queue = [] ∧ (s wr).chain.queue = (.inp, wr) :: []) ∧ (good wr ∧ fUnit wr ≠ 63 ∧ fOp wr = opWR) ∧ (good rd ∧ fOp rd ≠ opWR) ∧
    (good all ∧ fUnit all = 63) ∧
    (let w := { s wr with mx := { (s wr).mx with locks := [(3, 0)] } }
     (w.chainReq wr).byDefault = false ∧ w.winner (w.chainReq wr).target = none) ∧
    ((s none').busUp = true ∧ ((s none').chainReq none').byDefault = true ∧
      ((s none').start.chainPop.transact ((s none').chainReq none')).cause ≠ 0) ∧
    (due.notifyGroups ≠ [] ∧ 0 + 60000000 ≤ due.now ∧ due.on R.SEQ_CHN_CFG_NOTIFY_EN = true ∧ due.chain.notifyAt = some 0 ∧
      0 + due.rd R.SEQ_CHN_CFG_NOTIFY_GAP * 6000 ≤ due.now) ∧ up.notifyGroups = [] ∧ up.domUp 0 = true ∧
    (ranFor up .arm 600).ran .arm 600 = true ∧ (ranFor up .arm 599).ran .arm 600 = false := by decide +kernel

theorem test_witness_MatrixTransactions :
    let r : BusReq := { m := 2, addr := 0x30000000, target := 3, loc := 0, write := true, data := [1] }
    let s := { up.wr R.SECURE_SP_STAT_INIT_DONE 1 with mx := { up.mx with waiting := [r] } }
    let broken := { s with mx := { s.mx with broken := [brokenKey r] } }
    let fly := { up with mx := { up.mx with inflight := [(0, ⟨{ r with target := 0 }, [], 0⟩)], locks := [(3, 2)] } }
    let dog := ({ up with clk := ⟨0, 600⟩ } : State).wr R.SEQ_WD_PERIOD_PERIOD 1
    let run := dog.wr R.SEQ_CTL_WD_EN 1
    (up.busUp = true ∧ up.winner 3 = none) ∧ (s.busUp = true ∧ s.winner 3 = some r ∧ r.m ≠ 1 ∧ r.m ≠ 5 ∧ s.mx.broken.contains (brokenKey r) = false) ∧
    (broken.winner 3 = some r ∧ broken.mx.broken.contains (brokenKey r) = true ∧ r.first = false) ∧
    (let long := ranFor (ranFor fly (.lock 3) 0) (.grant 0) 4096
     mget? long.mx.inflight 0 = some ⟨{ r with target := 0 }, [], 0⟩ ∧ long.ran (.grant 0) (2 ^ long.rd R.MATRIX_TMO_TMO_LOG2) = true ∧
      long.ran (.grant 0) 2048 = true ∧ long.ran (.lock 3) 256 = true ∧ mget? up.mx.inflight 0 = none ∧ mget? long.mx.locks 3 = some 2 ∧
      mget? up.mx.locks 3 = none) ∧
    (up.served .seq 0 = true ∧ (0 : W32) ≠ 0x5EEDC0DE ∧ Master.host ≠ .seq) ∧
    (run.served .seq 0 = true ∧ run.on R.SEQ_CTL_WD_EN = true ∧ run.rd R.SEQ_WD_PERIOD_PERIOD ≤ 1 ∧ 600 * 1 ≤ run.now - run.mx.kickAt) ∧
    (¬ dog.on R.SEQ_CTL_WD_EN = true) := by decide +kernel

theorem test_witness_PcieRequests :
    let s := { up with pcie := { released := true, link := true, owed := [4] } }
    let user := s.wr R.GLOBAL_PRIV_PERF_USER 1
    let r : PcieReq := ⟨.bar0, 0, false, [], 4, 1, false⟩
    (pcieForm ⟨.bar0, 0x3FFFFFD, true, [1, 2, 3, 4], 0, 0, false⟩ = false ∧ pcieForm r = true ∧ up.pcieUp = false ∧ s.pcieUp = true) ∧
    (pcieForm ⟨.bar0, 0, false, [], 512, 1, true⟩ = true ∧ pcieForm ⟨.bar0, 0, true, List.replicate 256 0, 0, 1, true⟩ = true) ∧
    (s.pcieDest .bar0 0 = .bus 0 false ∧ s.pcieDest .bar4 4 = .bus 0x40000004 false ∧ s.pcieDest .bar2 0x100 = .bus 0x1000 true) ∧
    (user.pcieUp = true ∧ user.on R.GLOBAL_PRIV_PERF_USER = true ∧ s.on R.GLOBAL_PRIV_PERF_USER = false) ∧
    (s.pcieDest .bar0 0x1F003FF = .table 0x3FF ∧ s.pcieDest .bar0 0x1F01007 = .pending 7 ∧ s.pcieDest .bar2 0xFFF00 = .noSlot) ∧
    ((ranFor s (.tag 4) 30000).pcie.owed.contains 4 = true ∧ (ranFor s (.tag 4) 30000).ran (.tag 4) 30000 = true ∧ s.pcie.owed.contains 5 = false) ∧ (s.pcie.released = true ∧ s.busUp = true) := by decide +kernel

theorem test_witness_SupplyEvents :
    let fails := { up with pow := { up.pow with vinFailed := true } }
    let gasp := (pair mPRIMARY).wr R.GLOBAL_STRAP_MATE_PRESENT 1
    let st := fails.wr R.POWER_SHED_STAGES 1 0 0
    let none' := (List.range 6).foldl (fun (s : State) j => s.wr R.POWER_SHED_STAGES 0 0 j) fails
    (up.pow.phase ≠ .unpowered ∧ up.pow.vinFailed = false ∧ up.on R.GLOBAL_STRAP_MATE_PRESENT = false) ∧
    (gasp.on R.GLOBAL_STRAP_MATE_PRESENT = true ∧ gasp.mateUp = true ∧ gasp.mode = mPRIMARY ∧ gasp.pow.vinFailed = false) ∧
    (let t := ranFor fails .vin (60000 * 255)
     t.pow.vinFailed = true ∧ t.pow.stages.contains 7 = false ∧ t.shedTime 7 ≤ 255 ∧ t.ran .vin (60000 * 255) = true ∧ t.heldFor 255 = true) ∧
    ((List.range 56).filter (fun d => none'.shedStage d == 1) = [] ∧
      (List.range 56).filter (fun d => (st.wr R.POWER_SHED_STAGES (2 ^ 12) 0 0).shedStage d == 1) ≠ []) ∧
    (up.pow.holdupOk ≠ true ∧ up.on R.POWER_CTL_CHG_EN = true ∧ up.pow.holdupOk = false ∧ up.pow.xtalOk ≠ true ∧ up.pow.xtalOk = false) := by decide +kernel

theorem test_witness_DomainsAndModes :
    let sleep := inMode State.reset mSLEEP
    let cold := (inMode State.reset mSOLO).wr R.POWER_DOM_EN0_EN 1
    (up.served .power 0 = true ∧ domBad (2 ^ 20) = true ∧ domBad (2 ^ 50) = true ∧ domBad 0 = false ∧ domBad (2 ^ 20 + 16) = false) ∧
    (cold.nextDomain = some 4 ∧ cold.nextDomain ≠ some 5 ∧ up.nextDomain ≠ some 55) ∧
    (sleep.mode = mSLEEP ∧ sleep.pow.waking = none ∧ sleep.pow.phase = .running ∧ up.mode ≠ mSLEEP) ∧
    (let t := ranFor (sleep.wr R.POWER_WAKE_TIMER_SECONDS 5) .sleep (600000000 * 5)
     t.rd R.POWER_WAKE_TIMER_SECONDS ≠ 0 ∧ t.rd R.POWER_WAKE_TIMER_SECONDS ≤ 5 ∧ t.ran .sleep (600000000 * 5) = true ∧ t.mode = mSLEEP) ∧
    (up.served .global 0 = true ∧ up.pow.modeReq = none ∧ (inMode up mWARM).mayRequest mSLEEP = true ∧ (inMode up mWARM).mayRequest mSOLO = false) ∧
    (({ up with pow := { up.pow with modeReq := some 1 } } : State).pow.modeReq ≠ none) := by decide +kernel

theorem test_witness_ModesAfterReset :
    up.pow.phase ≠ .unpowered ∧ up.served .global 0 = true ∧ ({ up with pow := { up.pow with phase := .soft } } : State).pow.phase = .soft := by decide +kernel

theorem test_witness_W1cSettingWins :
    let a := pageBase .lanep 63 + 0x10
    let u := up.start.hostWriteReg a 0xFFFFFFFF
    (let w := up.start.hostWriteReg (pageBase .event 0 + 0x130) 0
     pageAt (pageBase .event 0 + 0x130) = some (.event, 0, 0x130) ∧ (regOf .event 0 0x130).any (fun r => r.1.off == 0x130) = true ∧
     w.served .event 0 = true ∧ (0x40000000#32 : W32).toNat.testBit 30 = true ∧ w.on R.EVENT_WM_STICKY = false) ∧
    pageAt a = some (.lanep, 63, 0x10) ∧ (regOf .lanep 63 0x10).isSome = true ∧ u.served .lanep 63 = true ∧
    (regOf .lanep 63 0x10).any (fun r => r.1.off == 0x10 && r.1.fields.any (fun x => x.acc == .w1c && decide (x.fld.lsb < pageEvents .lanep))) = true ∧
    (regOf .lanep 63 0x108).any (fun r => r.1.fields.any (fun x => x.acc != .w1c)) = true := by decide +kernel

theorem test_witness_RegisterWrites :
    let a := pageBase .eth 7 + 0x108
    let c := pageBase .eth 7 + 0x48
    let held := { up.start with heldLo := [(c, 5)] }
    (up.start.busUp = true ∧ pageAt a = some (.eth, 7, 0x108) ∧ (regOf .eth 7 0x108).any (fun r => !r.1.w64 && decide (r.1.off ∉ writeActs .eth)) = true ∧
      up.start.served .eth 7 = true) ∧
    (pageAt 0x00F00000 = none ∧ (State.start { up with pow := { up.pow with phase := .resetN } }).busUp = false) ∧
    (State.reset.start.busUp = true ∧ State.reset.start.answers .eth 7 0x108 = false ∧ up.start.answers .eth 7 0xFFC = true ∧ regOf .eth 7 0xFFC = none) ∧
    (pageAt c = some (.eth, 7, 0x48) ∧ (regOf .eth 7 0x48).any (fun r => r.1.w64) = true ∧ 0x48 % 8 = 0 ∧ c / 8 * 8 = c) ∧
    (pageAt (c + 4) = some (.eth, 7, 0x4C) ∧ (regOf .eth 7 0x4C).any (fun r => r.1.w64) = true ∧ 0x4C % 8 = 4 ∧ mget? held.start.heldLo c = some 5 ∧
      held.start.served .eth 7 = true) := by decide +kernel

theorem test_witness_RegisterReads :
    let a := pageBase .eth 7 + 0x100
    let c := pageBase .eth 7 + 0x48
    let user := (up.wr R.GLOBAL_PRIV_PERF_USER 1).start
    (up.start.busUp = true ∧ pageAt a = some (.eth, 7, 0x100) ∧ up.start.answers .eth 7 0x100 = true ∧
      (regOf .eth 7 0x100).any (fun r => !r.1.w64 && decide (r.1.off ∉ readActs .eth) && !r.1.fields.any (fun x => adcFld x.fld)) = true) ∧
    (user.on R.GLOBAL_PRIV_PERF_USER = true ∧ user.busUp = true ∧ pageAt (pageBase .eth 7 + 0x10) = some (.eth, 7, 0x10) ∧
      (regOf .eth 7 0x10).isSome = true) ∧
    (up.start.on R.GLOBAL_PRIV_PERF_USER = false ∧ 0x100 ≤ 0x100 ∧ State.reset.start.answers .eth 7 0x100 = false ∧ regOf .eth 7 0xFFC = none) ∧
    (pageAt c = some (.eth, 7, 0x48) ∧ (regOf .eth 7 0x48).any (fun r => r.1.w64 && decide (r.1.off ∉ readActs .eth) &&
      !r.1.fields.any (fun x => adcFld x.fld)) = true) ∧
    (pageAt (c + 4) = some (.eth, 7, 0x4C) ∧ (regOf .eth 7 0x4C).any (fun r => r.1.w64) = true ∧ 0x4C / 4 % 2 = 1) := by decide +kernel

theorem test_witness_HingeAndCycles :
    let off := { up with pow := { up.pow with up := 3 } }
    (up.domUp 2 = true ∧ up.pow.phase = .running ∧ off.domUp 2 = false) ∧ (up.pending = [] ∧ up.pow.phase ≠ .unpowered ∧ up.cyc < 74999) ∧
    (74999 ≤ ({ up with clk := ⟨0, 74999⟩ } : State).cyc ∧ 74999 ≤ ({ off with clk := ⟨0, 74999⟩ } : State).cyc) ∧
    (({ up with pow := { up.pow with phase := .unpowered } } : State).pow.phase = .unpowered) ∧
    trafficMode (inMode up mSOLO).mode = true ∧ trafficMode (inMode up mWARM).mode = false := by decide +kernel

theorem test_witness_WellFormedCommandsComplete : (Instr.softResetEnd).wf = true ∧ movesTime .softResetEnd = false := by decide
theorem test_witness_QueueOfWellFormedRunsEmpty :
    State.queueWf { up with pending := [.softResetEnd, .pageLock .eth 7] } = true := by decide +kernel
theorem test_witness_ScratchpadStaysCanonical : (up.spPut 9 1).memWf = true ∧ up.pending = [] := by decide +kernel
theorem test_witness_ScratchpadStaysCanonical_next : ∃ t, step up = .next t := ⟨_, rfl⟩
theorem test_witness_DetCatchesErrors : (0 : Nat) ≠ 1 ∧ 0 < 63 ∧ 63 < 2 ^ 6 := by decide

/-! Effects, each with the value that a worked example of the spec, or the standard it names, gives. -/

-- spec/01, example of addresses
theorem test_addresses : portOf 0x12A05 = 9 ∧ colOf 0x12A05 = 2565 ∧ portOf 0x82C41 = 65 ∧ slotDrawer 0x58831 = 11329 ∧ slotNum 0x58831 = 17 := by decide
-- spec/02, example of one table record
theorem test_record : let r : List Byte := [0x80, 0xFA, 0x30, 0xF7, 0x09, 0x16, 0xFB, 0x03, 0, 0xFF, 0, 0, 0, 0, 0, 0]
    recordOk r = true ∧ recordValid r = true ∧ recordOk (r.set 2 0x31) = false := by decide +kernel
-- spec/04, example of an increment
theorem test_increment : incByte 20 = 0x7E ∧ iBits (0x3E ^^^ 0x14) = 3 ∧ dBits (0x3E ^^^ 0x14) = 0 := by decide
-- spec/05, example of one input drawer to three outputs
theorem test_window_addresses : windowOffset (cenKey 5 2100) = 0x8520D0 ∧ windowOffset (outKey 0x3C0C8 false) = 0x1E0640 ∧ routeWord 2100 = 0x1000834 := by
  decide
theorem test_place : Bank.place {} 255 0xA611 30 = some (({} : Bank).put (cenKey 5 0) (centreWord 30 1553), 0) := by decide +kernel
-- spec/06, example of a four-party bridge
theorem test_requests : rqOp 0xA408000500000CB4 = 0xA ∧ rqBridge 0xA408000500000CB4 = 5 ∧ rqParty 0xA408000500000CB4 = 1 ∧
    rqJoin 0xA408000500000CB4 = true ∧ rqSlotIn 0xA408000500000CB4 = 3252 ∧ rqSlotOut 0xB000191400000143 = 6420 ∧
    rqLegBridge 0xB000191400000143 = 5 ∧ rqLegParty 0xB000191400000143 = 3 := by decide
theorem test_expand : alawExpand 0xAA = 32256 ∧ alawExpand 0xB0 = 11008 ∧ ulawExpand 0x9A = 10876 ∧ alawExpand 0xD5 = 8 := by decide
theorem test_compress : alawCompress 32767 = 0xAA ∧ alawCompress 21892 = 0xA0 ∧ ulawCompress 32767 = 0x80 := by decide
theorem test_connect : after (fun t => t.mc.edit.source 0x3C205 false) .mapConnect (asks 0x1003C205000800C8) = some (.drawer 0x800C8) := by decide +kernel
theorem test_slot : after (fun t => t.mc.edit.word (slotKey 6401)) .slot (asks 0x8000190100000C81) = some (slotWord false 3201) := by decide +kernel
-- spec/10, example of one CESoPSN context
theorem test_unit_burst : unitBurst 300 4000 = 0x28967400 / 64 := by decide
-- spec/16, example of tagging an armed commit
theorem test_tag_header : tagHeader 0x43 6 0x3A7E0091 0x1C4A3BF400 =
    [0x43, 6, 0, 0, 0, 0, 0, 0, 0x91, 0, 0x7E, 0x3A, 0, 0, 0, 0, 0, 0xF4, 0x3B, 0x4A, 0x1C] ++ List.replicate 11 0 := by decide
-- spec/19, example of one lane page
theorem test_page_identity : pageBase .lanef 37 = 0x14B000 ∧ slotPage 114 = some (.lanef, 37) ∧
    (regOf .lanef 37 0).map (fun r => up.word r.1.fields 37 r.2) = some 0x01001125 ∧
    (regOf .lanef 37 4).map (fun r => State.reset.word r.1.fields 37 r.2) = some 0xD00 := by decide +kernel
-- the standards that R54 and R365 name: CRC-32 of "123456789", SHA-256 of "abc"
theorem test_crc32 : crc32 [0x31, 0x32, 0x33, 0x34, 0x35, 0x36, 0x37, 0x38, 0x39] = 0xCBF43926 := by decide +kernel
theorem test_sha256 : (sha256 [0x61, 0x62, 0x63]).take 8 = [0xBA, 0x78, 0x16, 0xBF, 0x8F, 0x01, 0xCF, 0xEA] := by decide +kernel
-- one step each: R20, R11, R397, R343, R336
theorem test_tick : (match step State.reset with | .next t => t.cyc | _ => 0) = 1 := by decide +kernel
theorem test_page_lock : after (fun t => t.rd (R.HDR_PAGE_CTL_LOCK .eth) 7) (.pageLock .eth 7) up = some 1 := by decide +kernel
theorem test_soft_reset : after (fun t => t.pow.phase) (.softReset 0x5A17C0DE) up = some .soft := by decide +kernel
theorem test_soft_reset_key : after (fun t => t.pow.phase) (.softReset 0x5A17C0DF) up = some .running := by decide +kernel
theorem test_pop_empty : after (fun t => t.out.getLast?) .eventQueuePop up = some (some (.read 0x2118 0xFFFFFFFF)) := by decide +kernel
theorem test_read_locked_lane : after (fun t => t.out.getLast?) (.rcRead false 0x14B000) up = some (some (.read 0x14B000 0x01001125)) := by decide +kernel

end Sys2Proof.Tests
end

/-! Runs of the block: every well-formed command completes, and a queue of well-formed commands runs empty. -/
namespace Sys2Proof.Machine
open Sys2Proof

/-- The outcome is a next state. -/
def Completes (o : Host.Outcome State Fault Refusal) : Prop := ∃ t, o = .next t

theorem completes_ok (t : State) : Completes (ok t) := ⟨t, rfl⟩

theorem completes_ite (c : Prop) [Decidable c] {a b : Host.Outcome State Fault Refusal} (ha : Completes a) (hb : Completes b) :
    Completes (if c then a else b) := by
  split <;> assumption

theorem completes_onPage (s : State) (p : Page) (i : Nat) (f : State → State) : Completes (s.onPage p i f) :=
  completes_ite _ (completes_ok _) (completes_ok _)

/-- A mirror record of the form that its row takes is taken or dropped (R295). -/
theorem recCome_completes (s : State) {type : Nat} (l : Nat) {r : List Byte} (f : State → State) (h : recordForm type r = true) :
    Completes (s.recCome type l r f) := by
  simp only [recordForm, Bool.and_eq_true, beq_iff_eq] at h
  unfold State.recCome
  rw [if_neg (fun e => e.elim (fun n => n h.1) (fun n => n h.2))]
  exact completes_ite _ (completes_ok _) (completes_ok _)

theorem recTake_completes (s : State) {type : Nat} (l : Nat) {r : List Byte} (f : State → State) (h : recordForm type r = true) :
    Completes (s.recTake type l r f) := recCome_completes s l _ h

theorem execHeartbeatRx_completes (l : Fin 2) {lo : List Byte} (lag : Nat) (s : State) (h : lo.length = 56) :
    Completes (execHeartbeatRx l lo lag s) := by
  unfold execHeartbeatRx
  rw [if_neg (by simp [h])]
  exact completes_ite _ (completes_ok _) (completes_ok _)

theorem execPcieRequest_completes {r : PcieReq} (s : State) (h : pcieForm r = true) : Completes (execPcieRequest r s) := by
  unfold execPcieRequest
  rw [if_neg (by simp [h])]
  exact completes_ite _ (completes_ok _) (completes_ite _ (completes_ok _) (completes_ok _))

/-- A command whose operands have a form of the spec ends in a next state. The groups are the shapes of the meanings: one effect, a
write of a page, an effect behind one condition, several cases; last come the commands whose operands can lack a form. -/
theorem exec_completes {c : Instr} (s : State) (h : c.wf = true) : Completes (exec c s) := by
  cases c with
  | powerOn | laneFrameRx | fasCandidateOpen | fasCandidateConfirm | fasCandidateDrop | sigDetChange | cdrLockChange | mapConnect |
  mapUneq | mapAis | slot | const | party | hear | commitTake | apsMmDeclare | apsMmClear | dqsRetune | ethFrameRx | ethFrameTx |
  launchSlot | hostTxDesc | playoutUnit | ppsOutEdge | chainEnum | chainRd | chainWr | chainResetAddr | chainWake | chainForward |
  wakeNEdge | w1cWrite | rcRead | word64LowerRead | word64LowerWrite | word64UpperWrite | regWrite | ppsWidthEnd =>
    simp only [exec]; exact completes_ok _
  | softReset | integWrite | laneEnSet | laneEnClear | rateWrite | loopWrite | eqLoad | eyeStart | eyeAbort | drwRead | drwReadClear |
  drwWrite | reqPush | listStart | listAbort | planeEnWrite | benchRead | benchReadClear | benchWrite | gRead | gReadClear | confRead |
  confReadClear | commitNow | commitArm | commitCancel | sumAct | sumEdit | selLo | selFs | selMsP | selMsW | selClear | sRead |
  sReadClear | sWrite | grpLo | grpFs | grpMsP | grpMsW | grpClear | gCfgWrite | dramCfgWrite | winEnable | qRead | qReadClear | qWrite |
  ctxRead | ctxReadClear | ctxWrite | tplRead | tplWrite | tplInval | wdKick | remapWrite | lcGo | loadId | loadAuth | enforceWrite |
  respond | domEnWrite | modeRequest =>
    simp only [exec]; exact completes_onPage _ _ _ _
  | resetNAssert | resetNRelease | softResetEnd | hinge | laneDefectDeclare | laneDefectClear | fillerBerCheck | drawerDefectDeclare |
  drawerDefectClear | listTagCheckDone | mapInitDone | wordRecompute | commitCut | catchupDone | dramTrainDone | dramTrainFail |
  dramHotChange | eqMultiframe | eqContainerRelease | ethLinkChange | jbBurstWrite | refActivityChange | unstableClear | timingUpdate |
  persistExpire | hit | refQualify | lockoutEnd | dpllLocked | holdoverOos | loFailDeclare | loFailClear | timeRead | samplePush |
  masterTimeout | stepGo | ppsIn | actArm | actCancel | dxEnable | swap | join | matePull | rtsAlignDone | rtsFail | gaspIn |
  claimMateChange | faultWrite | armModeReturn | pcieCompletionTimeout | matrixGrant | matrixTimeout | bridgeTmo | lockBrk | wdFired |
  evtMaskWrite | eventQueuePop | eventQueueFlush | chgCapture | cntPreset | cntWrap | perfSnap | perfFreeze | snapPin | traceEnable |
  tracePop | spInitDone | stLineTest | stStall | tamper | vinFail | shed | vinBack | holdupExhausted | holdup | domainUsable | xtal |
  wakeTimerExpire | dramQueueTimeout | rxFramerTimeout | txFramerTimeout | indirectPortTimeout | dramTrainTimeout | pageLock |
  tamperNRelease | gaspInRelease | tokInChange | chainClockLoss | pcieConfigRequest | pauseExpire =>
    simp only [exec]; exact completes_ite _ (completes_ok _) (completes_ok _)
  | frameTick | quadPllLockChange | refOffsetUpdate | refRangeClear | eqLoadDone | eyePointDone | listRequestFetch | centreLossSweep |
  sumDone | holdoffExpire | wtrExpire | windowWrite | jbMerge | transitionStep | hbFrameMissed | mirRelease | rtsVerifyDone |
  chainCmdExecute | notifyRepeat | perstN | traceRecord | traceDrainWrite | lcDone | idResponseReady | matrixResponse |
  indirectCommandDone | routeBurstWrite =>
    simp only [exec, execFrameTick, execQuadPllLockChange, execRefOffsetUpdate, execRefRangeClear, execEqLoadDone, execEyePointDone,
      execListRequestFetch, execCentreLossSweep, execSumDone, execHoldoffExpire, execWtrExpire, execWindowWrite, execJbMerge,
      execTransitionStep, execHbFrameMissed, execMirRelease, execRtsVerifyDone, execChainCmdExecute, execNotifyRepeat, execPerstN,
      execTraceRecord, execTraceDrainWrite, execLcDone, execIdResponseReady, execMatrixResponse, execIndirectCommandDone,
      execRouteBurstWrite]
    (repeat' split) <;> exact completes_ok _
  | mirReq | mirCommit | mirSel | mirGrp | mirEqcfg | mirPwcfg | mirPwctx | mirTiming | mirTime | mirPull =>
    simp only [exec]; exact recTake_completes _ _ _ h
  | mirPullEnd => simp only [exec]; exact recCome_completes _ _ _ h
  | heartbeatRx => simp only [exec]; exact execHeartbeatRx_completes _ _ _ (beq_iff_eq.1 h)
  | pcieRequest => simp only [exec]; exact execPcieRequest_completes _ h

/-- No command changes the queue of waiting commands. -/
theorem exec_pendingKept (c : Instr) (s : State) : pendingKept s (exec c s) := by
  cases c <;> simp [exec, execLaneFrameRx_pending]

/-- Only a hinge or a new start of the module moves the frame and the cycle. -/
theorem exec_clkKept (c : Instr) (s : State) (h : movesTime c = false) : clkKept s (exec c s) := by
  cases c with
  | hinge | powerOn | holdupExhausted => cases h
  | _ => simp [exec, execLaneFrameRx_clk]

theorem step_front {c : Instr} {rest : List Instr} {s : State} (h : s.pending = c :: rest) : step s = exec c { s with pending := rest } := by
  unfold step; rw [h]

/-- A step with a well-formed command in front takes it from the queue and no other. -/
theorem step_takesFront {c : Instr} {rest : List Instr} {s : State} (h : s.pending = c :: rest) (hc : c.wf = true) :
    ∃ t, step s = .next t ∧ t.pending = rest := by
  obtain ⟨t, ht⟩ := exec_completes { s with pending := rest } hc
  exact ⟨t, (step_front h).trans ht, exec_pendingKept c _ t ht⟩

/-- `n` steps take the first `n` of a queue of well-formed commands. -/
theorem runSteps_drops (n : Nat) (s : State) (h : s.queueWf = true) (hn : n ≤ s.pending.length) :
    ∃ t, runSteps n s = .next t ∧ t.pending = s.pending.drop n := by
  induction n generalizing s with
  | zero => exact ⟨s, rfl, rfl⟩
  | succ n ih =>
    cases hq : s.pending with
    | nil => simp [hq] at hn
    | cons c rest =>
      have hw : c.wf = true ∧ rest.all Instr.wf = true := by simpa [State.queueWf, hq] using h
      obtain ⟨t, ht, hp⟩ := step_takesFront hq hw.1
      obtain ⟨u, hu, hd⟩ := ih t (by simpa [State.queueWf, hp] using hw.2) (by simpa [hq, hp] using hn)
      exact ⟨u, by simp only [runSteps, ht, hu], by simp [hd, hp]⟩

/-- Settles O1, by the definition of a step. -/
theorem stepRunsFrontCommand : Obligations.StepRunsFrontCommand := fun _ _ _ h => step_front h

/-- Settles O56: the meaning of every well-formed command answers a next state, and what each meaning keeps of the queue and of time is
a law of its own. -/
theorem wellFormedCommandsComplete : Obligations.WellFormedCommandsComplete := by
  intro c s h
  obtain ⟨t, ht⟩ := exec_completes s h
  exact ⟨t, ht, exec_pendingKept c s t ht, fun hm => exec_clkKept c s hm t ht⟩

/-- Settles O57, by induction on the number of steps. -/
theorem queueOfWellFormedRunsEmpty : Obligations.QueueOfWellFormedRunsEmpty := by
  intro s h
  refine ⟨?_, fun n hn => runSteps_drops n s h hn⟩
  obtain ⟨t, ht, hp⟩ := runSteps_drops _ s h le_rfl
  exact ⟨t, ht, by rw [hp, List.drop_length]⟩

end Sys2Proof.Machine

/-! The registers: what a privileged write and a read do (R10 to R16, R333, R334), and the state of reset. -/
namespace Sys2Proof.Machine
open Sys2Proof

variable {s : State} {p : Page} {i o j a : Nat} {r : RSpec}

theorem answers_of_served (h : s.served p i = true) : s.answers p i o = true := by simp [State.answers, h]

/-! A word written (R14, R333, R334). -/

theorem regWrite_unmapped (m v : Nat) (h : pageAt a = none) : s.regWrite m a v = (s, cDEFAULT) := by
  unfold State.regWrite; rw [h]

theorem regWrite_off (m v : Nat) (hp : pageAt a = some (p, i, o)) (h : s.answers p i o = false) : s.regWrite m a v = (s, cDOMOFF) := by
  simp [State.regWrite, hp, h]

theorem regWrite_noRegister (m v : Nat) (hp : pageAt a = some (p, i, o)) (h : s.answers p i o = true) (hr : regOf p i o = none) :
    s.regWrite m a v = (s, 0) := by
  simp [State.regWrite, hp, h, hr]

theorem regWrite_word32 (m v : Nat) (hp : pageAt a = some (p, i, o)) (h : s.answers p i o = true) (hr : regOf p i o = some (r, j))
    (hw : r.w64 = false) : s.regWrite m a v = (s.regSet m p i r j (v % 2 ^ 32), 0) := by
  simp [State.regWrite, hp, h, hr, hw]

/-- The lower word is held. -/
theorem regWrite_lower (m v : Nat) (hp : pageAt a = some (p, i, o)) (h : s.answers p i o = true) (hr : regOf p i o = some (r, j))
    (hw : r.w64 = true) (ho : o / 4 % 2 = 0) :
    s.regWrite m a v = ({ s with heldLo := mput s.heldLo (a / 4 * 4) (v % 2 ^ 32) }, 0) := by
  simp [State.regWrite, hp, h, hr, hw, ho]

/-- The upper word writes the register whole, with the lower word that is held. -/
theorem regWrite_upper {lo : Nat} (m v : Nat) (hp : pageAt a = some (p, i, o)) (h : s.answers p i o = true)
    (hr : regOf p i o = some (r, j)) (hw : r.w64 = true) (ho : o / 4 % 2 = 1) (hl : mget? s.heldLo (a / 4 * 4 - 4) = some lo) :
    s.regWrite m a v =
      ({ s with heldLo := mdel s.heldLo (a / 4 * 4 - 4) }.regSet m p i r j (v % 2 ^ 32 * 2 ^ 32 + lo), 0) := by
  simp [State.regWrite, hp, h, hr, hw, ho, hl]

/-! A write by M0. -/

theorem hostWriteReg_busDown (v : Nat) (h : s.busUp = false) : s.hostWriteReg a v = s := by simp [State.hostWriteReg, h]

theorem hostWriteReg_ok {t : State} {v : Nat} (h : s.busUp = true) (ht : s.regWrite 0 a v = (t, 0)) : s.hostWriteReg a v = t := by
  simp [State.hostWriteReg, h, ht]

theorem hostWriteReg_error {c v : Nat} (h : s.busUp = true) (ht : s.regWrite 0 a v = (s, c)) (hc : c ≠ 0) :
    s.hostWriteReg a v = (s.busErr 0 (errTarget 0 c) a c).emit (.busError a c) := by
  simp [State.hostWriteReg, h, ht, hc]

/-- A write of a 32-bit register that does no more than set fields: each field reads what its access type makes of the write. -/
theorem hostWriteReg_plain (v : W32) (hb : s.busUp = true) (hp : pageAt a = some (p, i, o)) (hr : regOf p i o = some (r, j))
    (hs : s.served p i = true) (hw : r.w64 = false) (hn : r.off ∉ writeActs p) :
    s.hostWriteReg a v.toNat = s.writeFields r.fields v.toNat i j := by
  rw [hostWriteReg_ok hb (regWrite_word32 0 _ hp (answers_of_served hs) hr hw), regSet_plain _ _ _ _ hp hr hn,
    Nat.mod_eq_of_lt v.isLt]

/-! A word read (R13, R14, R323, R333, R334). -/

theorem regRead_unmapped (user : Bool) (h : pageAt a = none) : s.regRead user a = (s, 0, cDEFAULT) := by
  unfold State.regRead; rw [h]

theorem regRead_userDenied (hp : pageAt a = some (p, i, o)) (h : s.on R.GLOBAL_PRIV_PERF_USER = false ∨ 0x100 ≤ o) :
    s.regRead true a = (s, 0, cUSER) := by
  rcases h with h | h <;> simp [State.regRead, hp, h]

theorem regRead_off (hp : pageAt a = some (p, i, o)) (h : s.answers p i o = false) : s.regRead false a = (s, 0, cDOMOFF) := by
  simp [State.regRead, hp, h]

theorem regRead_noRegister (hp : pageAt a = some (p, i, o)) (h : s.answers p i o = true) (hr : regOf p i o = none) :
    s.regRead false a = (s, 0, 0) := by
  simp [State.regRead, hp, h, hr]

/-- A master may read offset `o` of a page: by the privileged view, or by the user view of the header. -/
def State.mayRead (s : State) (user : Bool) (o : Nat) : Bool := !(user && (!s.on R.GLOBAL_PRIV_PERF_USER || decide (0x100 ≤ o)))

theorem regRead_word32 (user : Bool) (hp : pageAt a = some (p, i, o)) (hu : s.mayRead user o = true) (h : s.answers p i o = true)
    (hr : regOf p i o = some (r, j)) (hw : r.w64 = false) :
    s.regRead user a = ((s.regGet user p i r j).1, (s.regGet user p i r j).2 % 2 ^ 32, 0) := by
  simp only [State.mayRead, Bool.not_eq_true'] at hu
  simp [State.regRead, hp, hu, h, hr, hw]

/-- The lower word captures the upper one. -/
theorem regRead_lower (hp : pageAt a = some (p, i, o)) (h : s.answers p i o = true) (hr : regOf p i o = some (r, j))
    (hw : r.w64 = true) (ho : o / 4 % 2 = 0) :
    let t := s.regGet false p i r j
    s.regRead false a = ({ t.1 with capHi := mapSet 0 t.1.capHi (a / 4 * 4) (t.2 / 2 ^ 32) }, t.2 % 2 ^ 32, 0) := by
  simp [State.regRead, hp, h, hr, hw, ho]

theorem regRead_upper (hp : pageAt a = some (p, i, o)) (h : s.answers p i o = true) (hr : regOf p i o = some (r, j))
    (hw : r.w64 = true) (ho : o / 4 % 2 = 1) : s.regRead false a = (s, mapGet 0 s.capHi (a / 4 * 4 - 4), 0) := by
  simp [State.regRead, hp, h, hr, hw, ho]

/-! A read by M0. -/

theorem hostReadReg_busDown (user : Bool) (h : s.busUp = false) : s.hostReadReg user a = s := by simp [State.hostReadReg, h]

theorem hostReadReg_ok {user : Bool} {t : State} {w : Nat} (h : s.busUp = true) (ht : s.regRead user a = (t, w, 0)) :
    s.hostReadReg user a = t.emit (.read a w) := by
  simp [State.hostReadReg, h, ht]

theorem hostReadReg_error {user : Bool} {w c : Nat} (h : s.busUp = true) (ht : s.regRead user a = (s, w, c)) (hc : c ≠ 0) :
    s.hostReadReg user a = (s.busErr 0 (errTarget 0 c) a c).emit (.busError a c) := by
  simp [State.hostReadReg, h, ht, hc]

/-- What a privileged read leaves of the registers: the fields of type RC read 0, every other field stands (R13). -/
theorem clearRead_spec (hr : regOf p i o = some (r, j)) :
    (∀ x ∈ r.fields, x.acc = .rc → (s.clearRead r.fields i j).rd x.fld i j = 0) ∧
    (∀ k, (∀ x ∈ r.fields, x.acc = .rc → k ≠ x.fld.key i j) →
      mapGet 0 (s.clearRead r.fields i j).regs k = mapGet 0 s.regs k) ∧
    s.clearRead r.fields i j = { s with regs := (s.clearRead r.fields i j).regs } := by
  obtain ⟨nodup, fields⟩ := regOf_ok hr
  unfold State.clearRead
  obtain ⟨others, frame⟩ := clearRead_all i j (r.fields.filter (fun x => x.acc == .rc)) s
  refine ⟨fun x hx e => ?_, fun k hk => others k (fun x hx => ?_), frame⟩
  · exact clearRead_zero i j _ s (nodup.sublist (List.Sublist.map _ List.filter_sublist))
      (fun y hy => (fields y (List.mem_of_mem_filter hy)).1) x (List.mem_filter.2 ⟨hx, beq_iff_eq.2 e⟩)
  · obtain ⟨hx, e⟩ := List.mem_filter.1 hx
    exact hk x hx (beq_iff_eq.1 e)

/-- Settles O53: each kind of write by the lemma of its branch; what a plain write leaves is a law of `writeFields`. -/
theorem registerWrites : Obligations.RegisterWrites := by
  refine ⟨?plain, ?refused, ?lower, ?upper, ?lock⟩
  case plain =>
    intro addr v s p i o j r u hb hp hr hs hw hn
    obtain ⟨nodup, fields⟩ := regOf_ok hr
    obtain ⟨others, written, frame⟩ := writeFields_all v.toNat i j r.fields u nodup (fun x hx => (fields x hx).1) (fun x hx => (fields x hx).2)
    exact ⟨_, congrArg ok (hostWriteReg_plain v hb hp hr hs hw hn), frame, written, others⟩
  case refused =>
    intro addr v s u
    refine ⟨fun hb => congrArg ok (hostWriteReg_busDown _ hb),
      fun hb hp => congrArg ok (hostWriteReg_error hb (regWrite_unmapped 0 _ hp) (by decide)), fun p i o hb hp => ⟨fun h => ?_, fun h hr => ?_⟩⟩
    · exact congrArg ok (hostWriteReg_error hb (regWrite_off 0 _ hp h) (by decide))
    · exact congrArg ok (hostWriteReg_ok hb (regWrite_noRegister 0 _ hp h hr))
  case lower =>
    intro addr v s p i o j r u b hb hp hr hs hw ho
    have e := regWrite_lower 0 v.toNat hp (answers_of_served hs) hr hw (by omega)
    rw [show b / 4 * 4 = b by omega, Nat.mod_eq_of_lt v.isLt] at e
    exact congrArg ok (hostWriteReg_ok hb e)
  case upper =>
    intro addr v s p i o j lo r u b hb hp hr hs hw ho hl
    have eb : (b + 4) / 4 * 4 - 4 = b := by omega
    have e := regWrite_upper 0 v.toNat hp (answers_of_served hs) hr hw (by omega) (eb.symm ▸ hl)
    rw [eb, Nat.mod_eq_of_lt v.isLt] at e
    exact congrArg ok (hostWriteReg_ok hb e)
  case lock =>
    intro p i s
    exact (apply_ite ok _ _ _).symm

/-- Settles O54: each kind of read by the lemma of its branch; what clears is a law of `clearRead`. -/
theorem registerReads : Obligations.RegisterReads := by
  refine ⟨?word, ?refused, ?unmapped, ?lower, ?upper⟩
  case word =>
    intro addr s p i o j r u word hb hp ha hr hw hn hadc
    refine ⟨?_, fun hu ho => ?_⟩
    · have e := regRead_word32 false hp (by simp [State.mayRead]) ha hr hw
      rw [regGet_plain u false p i r j hn hadc] at e
      obtain ⟨cleared, others, frame⟩ := clearRead_spec (s := u) hr
      exact ⟨_, congrArg ok (hostReadReg_ok hb e), frame, cleared, others⟩
    · have e := regRead_word32 true hp (by simp [State.mayRead, hu]; omega) ha hr hw
      rw [regGet_plain u true p i r j hn hadc] at e
      exact congrArg ok (hostReadReg_ok hb e)
  case refused =>
    intro addr s p i o u hb hp
    refine ⟨fun h => ?_, fun h => ?_, fun h hr => ?_⟩
    · exact congrArg ok (hostReadReg_error hb (regRead_userDenied hp h) (by decide))
    · exact congrArg ok (hostReadReg_error hb (regRead_off hp h) (by decide))
    · exact congrArg ok (hostReadReg_ok hb (regRead_noRegister hp h hr))
  case unmapped =>
    intro user addr s u
    exact ⟨fun hb => congrArg ok (hostReadReg_busDown _ hb),
      fun hb hp => congrArg ok (hostReadReg_error hb (regRead_unmapped user hp) (by decide))⟩
  case lower =>
    intro addr s p i o j r u b word hb hp ha hr hw ho hn hadc
    have e := regRead_lower hp ha hr hw (by omega)
    rw [regGet_plain u false p i r j hn hadc, show b / 4 * 4 = b by omega] at e
    obtain ⟨-, -, frame⟩ := clearRead_spec (s := u) hr
    have capHi : (u.clearRead r.fields i j).capHi = u.capHi := by rw [frame]
    simp only [Bool.false_eq_true, if_false, capHi] at e
    exact congrArg ok (hostReadReg_ok hb e)
  case upper =>
    intro addr s p i o j r u hb hp ha hr hw ho
    exact congrArg ok (hostReadReg_ok hb (regRead_upper hp ha hr hw ho))

/-- A field that nothing has written reads its reset value. -/
theorem rd_reset (f : Fld) (i j : Nat) : State.reset.rd f i j = f.rst := Nat.zero_xor _

/-- At reset the always-on, the management and the timing domain are usable, and no other. -/
theorem domUp_reset (d : Nat) : State.reset.domUp d = decide (d < 3) := by
  show (0b111#56).getLsbD d = _
  by_cases h : d < 56
  · exact (by decide : ∀ d : Fin 56, (0b111#56).getLsbD d.val = decide (d.val < 3)) ⟨d, h⟩
  · rw [BitVec.getLsbD_of_ge _ _ (by omega), eq_comm, decide_eq_false_iff_not]; omega

/-- Settles O59, by evaluation but for the fields and the domains, of which every one is meant. -/
theorem stateAfterReset : Obligations.StateAfterReset :=
  ⟨rfl, rfl, rfl, rfl, rd_reset, rd_reset _ _ _, rfl, domUp_reset, rfl, rfl, rfl, rfl, rfl, rfl, by decide +kernel⟩

end Sys2Proof.Machine

/-! What a report writes of the registers (R337 to R346): an event sets status bits and the EVENT page's own flags, and counts. -/
namespace Sys2Proof.Machine
open Sys2Proof

theorem setBit_grows {n k : Nat} (b : Nat) (h : n.testBit k = true) : (setBit n b).testBit k = true := by
  simp [setBit, Nat.testBit_or, h]

/-- The writes of register fields that a report makes of `s`: field, value, index of the page and of the array. -/
inductive ReportWrite (s : State) : Fld → Nat → Nat → Nat → Prop
  | status (p : Page) (i b : Nat) (hi : i < pageCount p) :
      ReportWrite s (R.HDR_EVT_STATUS_STATUS p) (setBit (s.rd (R.HDR_EVT_STATUS_STATUS p) i) b) i 0
  | sticky (w : Nat) (hw : w < 4) : ReportWrite s R.EVENT_WM_STICKY 1 0 w
  | overrun : ReportWrite s R.EVENT_EQ_STAT_OVERRUN 1 0 0
  | dropped (v : Nat) : ReportWrite s R.EVENT_EQ_CNT_DROPPED v 0 0
  | counter (p : Page) (i k v : Nat) (hi : i < pageCount p) (hk : k < 8) : ReportWrite s (R.HDR_CNT_COUNT p) v i k
  | wrap (p : Page) (i k : Nat) (hi : i < pageCount p) (hk : k < 8) : ReportWrite s (R.HDR_CNT_SEL_WRAP p) 1 i k

/-- `t` comes from `s` by such writes and by changes that leave the registers. -/
inductive ReportPath : State → State → Prop
  | same {s t : State} (h : t.regs = s.regs) : ReportPath s t
  | write {s : State} {f : Fld} {v i j : Nat} (h : ReportWrite s f v i j) : ReportPath s (s.wr f v i j)
  | trans {s t u : State} (h : ReportPath s t) (k : ReportPath t u) : ReportPath s u

theorem ReportPath.refl (s : State) : ReportPath s s := .same rfl

theorem ReportPath.ite {s t u : State} (c : Prop) [Decidable c] (h : ReportPath s t) (k : ReportPath s u) :
    ReportPath s (if c then t else u) := by
  split <;> assumption

theorem ReportPath.thenIf {s t u : State} (c : Prop) [Decidable c] (h : ReportPath s t) (k : ReportPath t u) :
    ReportPath s (if c then u else t) := .ite c (h.trans k) h

theorem ReportPath.foldl {α : Type} (g : State → α → State) (l : List α) (h : ∀ s, ∀ x ∈ l, ReportPath s (g s x)) (s : State) :
    ReportPath s (l.foldl g s) := by
  induction l generalizing s with
  | nil => exact .refl s
  | cons x l ih => exact (h s x (by simp)).trans (ih (fun s y hy => h s y (by simp [hy])) _)

variable {s : State}

theorem cntAdd_path (p : Page) (i k n : Nat) (hi : i < pageCount p) (hk : k < 8) : ReportPath s (s.cntAdd p i k n) := by
  unfold State.cntAdd; dsimp only
  refine .ite _ (.write (.counter p i k _ hi hk)) ?_
  exact (ReportPath.write (.counter p i k _ hi hk)).trans ((ReportPath.write (.wrap p i k hi hk)).trans (.same rfl))

theorem count_path (p : Page) (i c n : Nat) (hi : i < pageCount p) : ReportPath s (s.count p i c n) := by
  unfold State.count
  refine .ite _ (.refl s) (.foldl _ _ (fun s k hk => ?_) s)
  have hk := List.mem_range.1 hk
  unfold State.count1
  refine .ite _ ?_ (.refl s)
  split
  · exact cntAdd_path p i k n hi hk
  · exact cntAdd_path p i k _ hi hk
  · exact .refl s

theorem msixFire_path (v : Nat) : ReportPath s (s.msixFire v) := by
  unfold State.msixFire; dsimp only; (repeat' split) <;> exact .same rfl

theorem chainOwn_path (side : ChainSide) (f : BitVec 96) : ReportPath s (s.chainOwn side f) := by
  unfold State.chainOwn State.chainPump; (repeat' split) <;> exact .same rfl

theorem notify_path : ReportPath s s.notify := by
  unfold State.notify
  refine .ite _ (.same rfl) (.ite _ (.trans ?_ (chainOwn_path _ _)) (.same rfl))
  exact .same rfl

section
variable {r : Page → Nat → Nat → State → State} (hr : ∀ b s, ReportPath s (r .event 0 b s))
include hr

theorem wmCheck_path (w l : Nat) (hw : w < 4) : ReportPath s (wmCheck r w l s) := by
  unfold wmCheck
  exact .ite _ (.refl s) ((ReportPath.write (.sticky w hw)).trans (hr _ _))

theorem queueItem_path (x : W64) : ReportPath s (queueItem r x s) := by
  unfold queueItem State.bump
  refine .ite _ ?_ ?_
  · refine .trans ?_ ((count_path .event 0 1 1 (by decide)).trans (wmCheck_path hr 0 _ (by decide)))
    exact .same rfl
  · exact .trans (.trans (.write .overrun) (.write (.dropped _))) (hr _ _)

theorem becomePending_path (p : Page) (i b : Nat) (w : Bool) : ReportPath s (becomePending r p i b w s) := by
  unfold becomePending
  exact .thenIf _ (.thenIf _ (.thenIf _ (.refl s) (msixFire_path _)) (queueItem_path hr _)) notify_path
end

theorem raiseN_path (n : Nat) (p : Page) (i b : Nat) (s : State) (hi : i < pageCount p) : ReportPath s (raiseN n p i b s) := by
  induction n generalizing p i b s with
  | zero => exact .refl s
  | succ n ih =>
    unfold raiseN; dsimp only
    refine .ite _ (.refl s) ((ReportPath.write (.status p i b hi)).trans ?_)
    exact .ite _ (.refl _) (becomePending_path (fun b s => ih .event 0 b s (by decide)) p i b _)

theorem raise_path (p : Page) (i b : Nat) (hi : i < pageCount p) : ReportPath s (s.raise p i b) := raiseN_path 4 p i b s hi

/-! What such writes leave of a field. -/

theorem status_placed {p : Page} {i : Nat} (hi : i < pageCount p) : (R.HDR_EVT_STATUS_STATUS p).Placed i 0 :=
  ⟨hi, by simp [R.HDR_EVT_STATUS_STATUS], by simp [R.HDR_EVT_STATUS_STATUS]⟩

theorem sticky_placed {w : Nat} (hw : w < 4) : R.EVENT_WM_STICKY.Placed 0 w :=
  ⟨by decide, by simp only [R.EVENT_WM_STICKY]; omega, by decide⟩

theorem ReportWrite.placed {f : Fld} {v i j : Nat} (h : ReportWrite s f v i j) : f.Placed i j := by
  cases h with
  | status p i b hi => exact status_placed hi
  | sticky w hw => exact sticky_placed hw
  | overrun => exact ⟨by decide, by decide, by decide⟩
  | dropped v => exact ⟨by decide, by decide, by decide⟩
  | counter p i k v hi hk => exact ⟨hi, by simp only [R.HDR_CNT_COUNT]; omega, by simp [R.HDR_CNT_COUNT]⟩
  | wrap p i k hi hk => exact ⟨hi, by simp only [R.HDR_CNT_SEL_WRAP]; omega, by simp [R.HDR_CNT_SEL_WRAP]⟩

/-- A status bit that stands stays, whatever a report writes. -/
theorem ReportWrite.status_stays {f : Fld} {v i j : Nat} (h : ReportWrite s f v i j) {q : Page} {x b : Nat} (hx : x < pageCount q)
    (hb : b < 32) (hs : (s.rd (R.HDR_EVT_STATUS_STATUS q) x).testBit b = true) :
    ((s.wr f v i j).rd (R.HDR_EVT_STATUS_STATUS q) x).testBit b = true := by
  have elsewhere (e : f.page ≠ q ∨ i ≠ x ∨ f.off + f.stride * j ≠ 0x10) :
      ((s.wr f v i j).rd (R.HDR_EVT_STATUS_STATUS q) x).testBit b = true := by
    rwa [State.rd_wr_other v h.placed (status_placed hx) (by simpa [R.HDR_EVT_STATUS_STATUS] using e.imp id (Or.imp id Or.inl))]
  cases h with
  | status p i c hi =>
    by_cases e : p = q ∧ i = x
    · obtain ⟨rfl, rfl⟩ := e
      rw [State.rd_wr_same, Nat.testBit_mod_two_pow]
      exact Bool.and_eq_true_iff.2 ⟨decide_eq_true hb, setBit_grows c hs⟩
    · exact elsewhere (by simp only [R.HDR_EVT_STATUS_STATUS]; tauto)
  | sticky w hw => exact elsewhere (.inr (.inr (by simp only [R.EVENT_WM_STICKY]; omega)))
  | overrun => exact elsewhere (.inr (.inr (by decide)))
  | dropped v => exact elsewhere (.inr (.inr (by decide)))
  | counter p i k v hi hk => exact elsewhere (.inr (.inr (by simp only [R.HDR_CNT_COUNT]; omega)))
  | wrap p i k hi hk => exact elsewhere (.inr (.inr (by simp only [R.HDR_CNT_SEL_WRAP]; omega)))

/-- A field of a watermark's register keeps its value but for STICKY, which reports set alone. -/
theorem ReportWrite.watermark {f : Fld} {v i j : Nat} (h : ReportWrite s f v i j) {g : Fld} {y : Nat} (hg : g.Placed 0 y)
    (ho : g.off = 0x130) (hst : g.stride = 4) (hy : y < 4) :
    (s.wr f v i j).rd g 0 y = s.rd g 0 y ∨ g.lsb = 30 ∧ f = R.EVENT_WM_STICKY ∧ v = 1 ∧ i = 0 ∧ j = y := by
  have elsewhere (e : f.off + f.stride * j ≠ 0x130 + 4 * y ∨ f.lsb ≠ g.lsb) : (s.wr f v i j).rd g 0 y = s.rd g 0 y :=
    State.rd_wr_other v h.placed hg (.inr (.inr (by rwa [ho, hst])))
  cases h with
  | status p i c hi => exact .inl (elsewhere (.inl (by simp only [R.HDR_EVT_STATUS_STATUS]; omega)))
  | sticky w hw =>
    by_cases e : j = y ∧ g.lsb = 30
    · exact .inr ⟨e.2, rfl, rfl, rfl, e.1⟩
    · exact .inl (elsewhere (by simp only [R.EVENT_WM_STICKY]; omega))
  | overrun => exact .inl (elsewhere (.inl (by simp only [R.EVENT_EQ_STAT_OVERRUN]; omega)))
  | dropped v => exact .inl (elsewhere (.inl (by simp only [R.EVENT_EQ_CNT_DROPPED]; omega)))
  | counter p i k v hi hk => exact .inl (elsewhere (.inl (by simp only [R.HDR_CNT_COUNT]; omega)))
  | wrap p i k hi hk => exact .inl (elsewhere (.inl (by simp only [R.HDR_CNT_SEL_WRAP]; omega)))

/-- A status bit that stands stays under every report. -/
theorem ReportPath.status_stays {t : State} (h : ReportPath s t) {q : Page} {x b : Nat} (hx : x < pageCount q) (hb : b < 32)
    (hs : (s.rd (R.HDR_EVT_STATUS_STATUS q) x).testBit b = true) : (t.rd (R.HDR_EVT_STATUS_STATUS q) x).testBit b = true := by
  induction h with
  | same e => rwa [State.rd, e]
  | write hw => exact hw.status_stays hx hb hs
  | trans _ _ ih1 ih2 => exact ih2 (ih1 hs)

/-- CUR and MARK of a watermark stand under every report. -/
theorem ReportPath.watermark_other {t : State} (h : ReportPath s t) {g : Fld} {y : Nat} (hg : g.Placed 0 y)
    (ho : g.off = 0x130) (hst : g.stride = 4) (hy : y < 4) (hl : g.lsb ≠ 30) : t.rd g 0 y = s.rd g 0 y := by
  induction h with
  | same e => rw [State.rd, e, State.rd]
  | write hw => exact (hw.watermark hg ho hst hy).resolve_right (fun e => hl e.1)
  | trans _ _ ih1 ih2 => exact ih2.trans ih1

/-- STICKY of a watermark that is 1 stays 1 under every report. -/
theorem ReportPath.sticky_stays {t : State} (h : ReportPath s t) {y : Nat} (hy : y < 4) (hs : s.rd R.EVENT_WM_STICKY 0 y = 1) :
    t.rd R.EVENT_WM_STICKY 0 y = 1 := by
  induction h with
  | same e => rwa [State.rd, e]
  | write hw =>
    rcases hw.watermark (sticky_placed hy) rfl rfl hy with e | ⟨-, rfl, rfl, rfl, rfl⟩
    · rwa [e]
    · exact State.rd_wr_same _ _ _ _ _
  | trans _ _ ih1 ih2 => exact ih2 (ih1 hs)

/-! Events, one after the other. -/

@[simp] theorem State.raise_pageUp (p q : Page) (i b k : Nat) : (s.raise p i b).pageUp q k = s.pageUp q k := by
  have h := State.raise_reports (s := s) p i b
  unfold State.Reports at h
  rw [h]; rfl

/-- An event that is raised stands in the status of its page (R337). -/
theorem raise_sets (p : Page) {i b : Nat} (hu : s.pageUp p i = true) (hi : i < pageCount p) (hb : b < 32) :
    ((s.raise p i b).rd (R.HDR_EVT_STATUS_STATUS p) i).testBit b = true := by
  cases hs : (s.rd (R.HDR_EVT_STATUS_STATUS p) i).testBit b with
  | true => rwa [State.raise_none p i b (.inr hs)]
  | false =>
    have set : ((s.wr (R.HDR_EVT_STATUS_STATUS p) (setBit (s.rd (R.HDR_EVT_STATUS_STATUS p) i) b) i).rd
        (R.HDR_EVT_STATUS_STATUS p) i).testBit b = true := by
      rw [State.rd_wr_same, Nat.testBit_mod_two_pow]
      exact Bool.and_eq_true_iff.2 ⟨decide_eq_true hb, testBit_setBit _ b⟩
    unfold State.raise raiseN
    simp only [hu, hs, Bool.not_true, Bool.or_self, Bool.false_eq_true, if_false]
    refine ReportPath.status_stays ?_ hi hb set
    exact .ite _ (.refl _) (becomePending_path (fun b s => raiseN_path 3 .event 0 b s (by decide)) p i b _)

/-- The events `bs` of a page are raised one after the other. -/
def State.raiseAll (s : State) (p : Page) (i : Nat) (bs : List Nat) : State := bs.foldl (fun s b => s.raise p i b) s

theorem raiseAll_sets (p : Page) {i : Nat} (bs : List Nat) (hi : i < pageCount p) (hu : s.pageUp p i = true) :
    ∀ b ∈ bs, b < 32 → ((s.raiseAll p i bs).rd (R.HDR_EVT_STATUS_STATUS p) i).testBit b = true := by
  induction bs generalizing s with
  | nil => intro b h; cases h
  | cons c bs ih =>
    intro b h hb
    rcases List.mem_cons.1 h with rfl | h
    · exact (ReportPath.foldl _ bs (fun s c _ => raise_path p i c hi) _).status_stays hi hb (raise_sets p hu hi hb)
    · exact ih (s := s.raise p i c) (by simpa using hu) b h hb

end Sys2Proof.Machine

/-! Bits that the hardware sets in the cycle of a write (R12). -/
namespace Sys2Proof.Machine
open Sys2Proof

variable {s : State} {p : Page} {i o j : Nat} {r : RSpec}

/-! Where a register's fields lie. -/

/-- A page that an address names is one of the block's. -/
theorem pageAt_lt_count {a : Nat} (h : pageAt a = some (p, i, o)) : i < pageCount p := by
  have slots : ∀ b : Fin 13, ∀ q k, slotPage b.val = some (q, k) → k < pageCount q := by
    have t : ∀ b : Fin 13, (slotPage b.val).all (fun x => decide (x.2 < pageCount x.1)) = true := by decide
    intro b q k e
    simpa [e] using t b
  unfold pageAt at h
  dsimp only at h
  split at h
  · rename_i hb
    split at h
    · rename_i q k e
      cases h
      exact slots ⟨a / 0x1000, by omega⟩ _ _ e
    · cases h
  · (repeat' split at h) <;> simp only [Option.some.injEq, Prod.mk.injEq, reduceCtorEq] at h <;> obtain ⟨rfl, rfl, -⟩ := h <;>
      simp only [pageCount] <;> omega

/-- The index of a register in an array is below the array's count. -/
theorem findReg_index {rs : List RSpec} (h : findReg rs o = some (r, j)) (hs : r.stride ≠ 0) : j < r.count := by
  induction rs with
  | nil => cases h
  | cons a rs ih =>
    unfold findReg at h
    split at h
    · rename_i k hk
      cases h
      unfold regIndexAt at hk
      dsimp only at hk
      rw [if_neg hs] at hk
      by_cases hc : (o - r.off) / r.stride < r.count
      · split at hk
        · cases hk
        · split at hk <;> simp_all
      · simp [hc] at hk
    · exact ih h

/-- Fields of one register that begin at the same bit are the same. -/
theorem field_of_lsb (hr : regOf p i o = some (r, j)) {x y : FSpec} (hx : x ∈ r.fields) (hy : y ∈ r.fields)
    (h : x.fld.lsb = y.fld.lsb) : x = y := List.inj_on_of_nodup_map (regOf_ok hr).1 hx hy h

/-- Different fields of one register have different keys. -/
theorem field_key_ne (hr : regOf p i o = some (r, j)) {x y : FSpec} (hx : x ∈ r.fields) (hy : y ∈ r.fields) (h : x ≠ y) :
    x.fld.key i j ≠ y.fld.key i j :=
  key_ne ((regOf_ok hr).2 x hx).1 ((regOf_ok hr).2 y hy).1 (fun e => h (field_of_lsb hr hx hy e))

theorem statusTable : ∀ p : Page, (regsHdr p).all (fun r => decide (r.off = 0x10 → r.stride = 0 ∧
    r.fields = [⟨R.HDR_EVT_STATUS_STATUS p, .w1c, 0, 0xffffffff, true, false⟩])) = true := by
  intro p; cases p <;> decide +kernel

/-- The register at offset 0x10 is EVT_STATUS (R407). -/
theorem regOf_status (hr : regOf p i o = some (r, j)) (h : r.off = 0x10) :
    j = 0 ∧ r.fields = [⟨R.HDR_EVT_STATUS_STATUS p, .w1c, 0, 0xffffffff, true, false⟩] := by
  have hm : r ∈ regsHdr p := (mem_of_regOf hr).resolve_right (fun m => page_high p r m (by omega))
  obtain ⟨hs, hf⟩ := of_decide_eq_true (List.all_eq_true.1 (statusTable p) r hm) h
  exact ⟨regOf_j0 hr hs, hf⟩

/-- The fields of a watermark's register (R346). -/
def wmFields : List FSpec :=
  [⟨R.EVENT_WM_CUR, .ro, 0, 1, true, false⟩, ⟨R.EVENT_WM_STICKY, .w1c, 0, 1, true, false⟩, ⟨R.EVENT_WM_MARK, .rws, 0, 1023, true, false⟩]

theorem watermarkTable : (pageRegs .event).all (fun r => decide (r.off = 0x130 → r.stride = 4 ∧ r.count = 4 ∧ r.fields = wmFields)) = true := by
  decide +kernel

/-- The registers from offset 0x130 of EVENT on are the four watermarks. -/
theorem regOf_watermark (hr : regOf .event i o = some (r, j)) (h : r.off = 0x130) : j < 4 ∧ r.fields = wmFields := by
  have hm : r ∈ pageRegs .event := (mem_of_regOf hr).resolve_left (fun m => by have := hdr_low .event r m; omega)
  obtain ⟨hs, hc, hf⟩ := of_decide_eq_true (List.all_eq_true.1 watermarkTable r hm) h
  refine ⟨?_, hf⟩
  unfold regOf at hr
  split at hr
  · cases hr
  · unfold regAt at hr
    rw [← hc]
    split at hr
    · exact findReg_index hr (by omega)
    · exact findReg_index hr (by omega)

/-! One bit, and the bits of one field. -/

theorem hwBit_status (x : FSpec) (b : Nat) (h : r.off = 0x10) : s.hwBit p i r j x b = s.raise p i b := by simp [State.hwBit, h]

/-- A watermark that was clear sets STICKY and raises WM (R346). -/
theorem hwBit_watermark (x : FSpec) (b : Nat) (h : r.off = 0x130) (hs : s.on R.EVENT_WM_STICKY 0 j = false) :
    s.hwBit .event i r j x b = (s.wr R.EVENT_WM_STICKY 1 0 j).raise .event 0 2 := by simp [State.hwBit, h, hs]

theorem hwBit_plain (x : FSpec) (b : Nat) (h : r.off ≠ 0x10) (hw : p = .event → r.off = 0x130 → s.on R.EVENT_WM_STICKY 0 j = true) :
    s.hwBit p i r j x b = s.wr x.fld (setBit (s.rd x.fld i j) (b - x.fld.lsb)) i j := by
  unfold State.hwBit
  rw [if_neg h, if_neg]
  simp only [Prod.mk.injEq, Bool.and_eq_true, decide_eq_true_eq, Bool.not_eq_true', not_and, and_imp]
  intro hp ho
  simp [hw hp ho]

theorem hwBit_reports (x : FSpec) (b : Nat) : s.Reports (s.hwBit p i r j x b) := by
  unfold State.hwBit
  exact .ite _ (State.raise_reports ..) (.ite _ ((State.wr_reports ..).trans (State.raise_reports ..)) (State.wr_reports ..))

/-- The bits `ks` of field `x` are set. -/
def State.setBits (s : State) (x : FSpec) (i j : Nat) (ks : List Nat) : State :=
  ks.foldl (fun s k => s.wr x.fld (setBit (s.rd x.fld i j) k) i j) s

theorem setBits_other (x : FSpec) (ks : List Nat) {g : Fld} {k l : Nat} (h : g.key k l ≠ x.fld.key i j) :
    (s.setBits x i j ks).rd g k l = s.rd g k l := by
  induction ks generalizing s with
  | nil => rfl
  | cons b ks ih => exact ih.trans (State.rd_wr_ne _ _ h)

theorem setBits_sets (x : FSpec) (ks : List Nat) {b : Nat} (hb : b < x.fld.width)
    (h : b ∈ ks ∨ (s.rd x.fld i j).testBit b = true) : ((s.setBits x i j ks).rd x.fld i j).testBit b = true := by
  induction ks generalizing s with
  | nil => simpa [State.setBits] using h
  | cons k ks ih =>
    refine ih (s := s.wr x.fld (setBit (s.rd x.fld i j) k) i j) ?_
    rw [State.rd_wr_same, Nat.testBit_mod_two_pow, decide_eq_true hb, Bool.true_and]
    rcases h with h | h
    · rcases List.mem_cons.1 h with rfl | h
      · exact .inr (testBit_setBit _ _)
      · exact .inl h
    · exact .inr (setBit_grows k h)

/-- Bits of several fields: every field has its bits set, and a field that is none of them stands. -/
theorem setBits_fold (ks : FSpec → List Nat) (l : List FSpec) (hl : l.Pairwise (fun x y => x.fld.key i j ≠ y.fld.key i j)) :
    let t := l.foldl (fun s x => s.setBits x i j (ks x)) s
    (∀ g : Fld, (∀ x ∈ l, g.key i j ≠ x.fld.key i j) → t.rd g i j = s.rd g i j) ∧
    (∀ x ∈ l, ∀ b ∈ ks x, b < x.fld.width → (t.rd x.fld i j).testBit b = true) := by
  induction l generalizing s with
  | nil => exact ⟨fun _ _ => rfl, fun x hx => nomatch hx⟩
  | cons x l ih =>
    obtain ⟨hx, hl⟩ := List.pairwise_cons.1 hl
    obtain ⟨others, sets⟩ := ih (s := s.setBits x i j (ks x)) hl
    refine ⟨fun g hg => (others g (fun y hy => hg y (by simp [hy]))).trans (setBits_other x _ (hg x (by simp))), fun y hy b hb hw => ?_⟩
    rcases List.mem_cons.1 hy with rfl | hy
    · have e := others y.fld hx
      simp only [List.foldl_cons]
      rw [e]
      exact setBits_sets y _ hw (.inl hb)
    · exact sets y hy b hb hw

/-! All bits of a register. -/

/-- The places in field `x` of the bits of the word `set` that lie in it. -/
def fieldBits (set : Nat) (x : FSpec) : List Nat := (List.range x.fld.width).filter (fun k => set.testBit (x.fld.lsb + k))

theorem mem_fieldBits {set k : Nat} {x : FSpec} : k ∈ fieldBits set x ↔ k < x.fld.width ∧ set.testBit (x.fld.lsb + k) = true := by
  simp [fieldBits]

/-- The fields of a register that clear by writing 1. -/
def w1cFields (r : RSpec) : List FSpec := r.fields.filter (fun x => x.acc == .w1c)

theorem hwSet_served {a : Nat} (set : Nat) (hp : pageAt a = some (p, i, o)) (hr : regOf p i o = some (r, j)) (hs : s.served p i = true) :
    s.hwSet a set = (w1cFields r).foldl (fun s x => (fieldBits (if r.off = 0x10 then set % 2 ^ pageEvents p else set) x).foldl
      (fun s k => s.hwBit p i r j x (x.fld.lsb + k)) s) s := by
  simp [State.hwSet, hp, hr, hs, w1cFields, fieldBits]

theorem hwSet_reports (a set : Nat) : s.Reports (s.hwSet a set) := by
  unfold State.hwSet
  split
  · exact .refl s
  · refine .ite _ (.refl s) ?_
    split
    · exact .refl s
    · exact .foldl _ _ (fun s x => .foldl _ _ (fun s k => hwBit_reports x _))

theorem filter_range_below (q : Nat → Bool) {m n : Nat} (h : m ≤ n) :
    (List.range n).filter (fun k => decide (k < m) && q k) = (List.range m).filter q := by
  obtain ⟨d, rfl⟩ := Nat.exists_eq_add_of_le h
  rw [List.range_add, List.filter_append, List.filter_map]
  have none : (List.range d).filter ((fun k => decide (k < m) && q k) ∘ (m + ·)) = [] := by simp
  rw [none, List.map_nil, List.append_nil]
  exact List.filter_congr (fun k hk => by simp [List.mem_range.1 hk])

theorem pageEvents_le : ∀ p : Page, pageEvents p ≤ 32 := by intro p; cases p <;> decide

/-- The events of page `p` among the bits of `set`. -/
def eventBits (p : Page) (set : Nat) : List Nat := (List.range (pageEvents p)).filter (fun b => set.testBit b)

/-- In an event status every bit is raised as the event that it is. -/
theorem hwSet_status {a : Nat} (set : Nat) (hp : pageAt a = some (p, i, o)) (hr : regOf p i o = some (r, j)) (hs : s.served p i = true)
    (h : r.off = 0x10) : s.hwSet a set = s.raiseAll p i (eventBits p set) := by
  have hf : fieldBits (set % 2 ^ pageEvents p) ⟨R.HDR_EVT_STATUS_STATUS p, .w1c, 0, 0xffffffff, true, false⟩ = eventBits p set := by
    unfold fieldBits eventBits
    rw [← filter_range_below _ (pageEvents_le p)]
    simp [R.HDR_EVT_STATUS_STATUS, Nat.testBit_mod_two_pow]
  rw [hwSet_served set hp hr hs, if_pos h, w1cFields, (regOf_status hr h).2]
  simp only [beq_self_eq_true, List.filter_cons_of_pos, List.filter_nil, List.foldl_cons, List.foldl_nil, hf]
  unfold State.raiseAll
  congr 1
  funext s b
  rw [hwBit_status _ _ h]
  simp [R.HDR_EVT_STATUS_STATUS]

/-- In a register that is neither an event status nor a watermark the bits are set, and nothing else happens. -/
theorem hwSet_plain {a : Nat} (set : Nat) (hp : pageAt a = some (p, i, o)) (hr : regOf p i o = some (r, j)) (hs : s.served p i = true)
    (h : r.off ≠ 0x10) (hw : ¬ (p = .event ∧ r.off = 0x130)) :
    s.hwSet a set = (w1cFields r).foldl (fun s x => s.setBits x i j (fieldBits set x)) s := by
  rw [hwSet_served set hp hr hs, if_neg h]
  congr 1
  funext s x
  unfold State.setBits
  congr 1
  funext s k
  rw [hwBit_plain x _ h (fun e1 e2 => absurd ⟨e1, e2⟩ hw), Nat.add_sub_cancel_left]

/-- The one bit of a watermark that clears by writing 1. -/
theorem hwSet_watermark {a : Nat} (set : Nat) (hp : pageAt a = some (.event, i, o)) (hr : regOf .event i o = some (r, j))
    (hs : s.served .event i = true) (h : r.off = 0x130) :
    s.hwSet a set = if set.testBit 30 then s.hwBit .event i r j ⟨R.EVENT_WM_STICKY, .w1c, 0, 1, true, false⟩ 30 else s := by
  have hl : w1cFields r = [⟨R.EVENT_WM_STICKY, .w1c, 0, 1, true, false⟩] := by
    rw [w1cFields, (regOf_watermark hr h).2]; decide
  rw [hwSet_served set hp hr hs, if_neg (by omega), hl]
  cases hb : set.testBit 30 <;> simp [fieldBits, R.EVENT_WM_STICKY, List.range_succ, hb]

/-! A bit that is set ends set; what is not set stands. -/

section
variable {a : Nat} (set : Nat) (hp : pageAt a = some (p, i, o)) (hr : regOf p i o = some (r, j)) (hs : s.served p i = true)
include hp hr hs

theorem hwSet_plain_spec (h : r.off ≠ 0x10) (hw : ¬ (p = .event ∧ r.off = 0x130)) :
    (∀ x ∈ r.fields, x.acc ≠ .w1c → (s.hwSet a set).rd x.fld i j = s.rd x.fld i j) ∧
    (∀ x ∈ r.fields, x.acc = .w1c → ∀ b ∈ fieldBits set x, ((s.hwSet a set).rd x.fld i j).testBit b = true) := by
  have apart : (w1cFields r).Pairwise (fun x y => x.fld.key i j ≠ y.fld.key i j) :=
    ((List.Nodup.of_map _ (regOf_ok hr).1).filter _).imp_of_mem
      (fun hx hy n => field_key_ne hr (List.mem_of_mem_filter hx) (List.mem_of_mem_filter hy) n)
  obtain ⟨others, sets⟩ := setBits_fold (s := s) (fieldBits set) (w1cFields r) apart
  rw [hwSet_plain set hp hr hs h hw]
  refine ⟨fun x hx hn => others x.fld (fun y hy => ?_), fun x hx hacc b hb => ?_⟩
  · obtain ⟨hy, hacc⟩ := List.mem_filter.1 hy
    exact field_key_ne hr hx hy (fun e => hn (e ▸ beq_iff_eq.1 hacc))
  · exact sets x (List.mem_filter.2 ⟨hx, beq_iff_eq.2 hacc⟩) b hb (mem_fieldBits.1 hb).1

theorem hwSet_status_sets (h : r.off = 0x10) {x : FSpec} (hx : x ∈ r.fields) {b : Nat} (hb : b ∈ fieldBits set x)
    (he : x.fld.lsb + b < pageEvents p) : ((s.hwSet a set).rd x.fld i j).testBit b = true := by
  obtain ⟨rfl, hf⟩ := regOf_status hr h
  obtain rfl := List.mem_singleton.1 (hf ▸ hx)
  obtain ⟨hw, hb⟩ := mem_fieldBits.1 hb
  simp only [R.HDR_EVT_STATUS_STATUS, Nat.zero_add] at hb he
  rw [hwSet_status set hp hr hs h]
  refine raiseAll_sets p _ (pageAt_lt_count hp) ?_ b (by simp [eventBits, hb, he]) hw
  simp only [State.served, Bool.and_eq_true] at hs
  exact hs.2
end

section
variable {a : Nat} (set : Nat) (hp : pageAt a = some (.event, i, o)) (hr : regOf .event i o = some (r, j))
  (hs : s.served .event i = true) (h : r.off = 0x130)
include hp hr hs h

/-- A watermark that was clear raises WM (R346). -/
theorem hwSet_watermark_clear (hb : set.testBit 30 = true) (hc : s.on R.EVENT_WM_STICKY 0 j = false) :
    s.hwSet a set = (s.wr R.EVENT_WM_STICKY 1 0 j).raise .event 0 2 := by
  rw [hwSet_watermark set hp hr hs h, if_pos hb, hwBit_watermark _ _ h hc]

/-- What a watermark's register becomes is written by reports, or it is STICKY alone that is set. -/
theorem hwSet_watermark_path : ReportPath s (s.hwSet a set) ∨
    s.hwSet a set = s.wr R.EVENT_WM_STICKY (setBit (s.rd R.EVENT_WM_STICKY i j) 0) i j := by
  rw [hwSet_watermark set hp hr hs h]
  cases hc : s.on R.EVENT_WM_STICKY 0 j with
  | false =>
    rw [hwBit_watermark _ _ h hc]
    have hj := (regOf_watermark hr h).1
    exact .inl (.ite _ (.trans (.write (.sticky j hj)) (raise_path .event 0 2 (by decide))) (.refl s))
  | true =>
    rw [hwBit_plain _ _ (by omega) (fun _ _ => hc)]
    split
    · exact .inr rfl
    · exact .inl (.refl s)

theorem hwSet_watermark_others {x : FSpec} (hx : x ∈ r.fields) (hn : x.acc ≠ .w1c) :
    (s.hwSet a set).rd x.fld i j = s.rd x.fld i j := by
  obtain ⟨hj, hf⟩ := regOf_watermark hr h
  obtain rfl := pageAt_i0 hp rfl
  have place : x.fld.Placed 0 j ∧ x.fld.off = 0x130 ∧ x.fld.stride = 4 ∧ x.fld.lsb ≠ 30 := by
    rw [hf] at hx
    simp only [wmFields, List.mem_cons, List.not_mem_nil, or_false] at hx
    rcases hx with rfl | rfl | rfl
    · exact ⟨⟨by decide, by simp only [R.EVENT_WM_CUR]; omega, by decide⟩, rfl, rfl, by decide⟩
    · exact absurd rfl hn
    · exact ⟨⟨by decide, by simp only [R.EVENT_WM_MARK]; omega, by decide⟩, rfl, rfl, by decide⟩
  obtain ⟨hg, ho, hst, hl⟩ := place
  rcases hwSet_watermark_path set hp hr hs h with path | e
  · exact path.watermark_other hg ho hst hj hl
  · rw [e]
    exact State.rd_wr_ne _ _ (key_ne hg.2.2 (by decide) hl)

theorem hwSet_watermark_sets {x : FSpec} (hx : x ∈ r.fields) (hacc : x.acc = .w1c) {b : Nat} (hb : b ∈ fieldBits set x) :
    ((s.hwSet a set).rd x.fld i j).testBit b = true := by
  obtain ⟨hj, hf⟩ := regOf_watermark hr h
  obtain rfl := pageAt_i0 hp rfl
  have sticky : x.fld = R.EVENT_WM_STICKY := by
    rw [hf] at hx
    simp only [wmFields, List.mem_cons, List.not_mem_nil, or_false] at hx
    rcases hx with rfl | rfl | rfl
    · cases hacc
    · rfl
    · cases hacc
  obtain ⟨hw, hb⟩ := mem_fieldBits.1 hb
  rw [sticky] at hw hb ⊢
  obtain rfl : b = 0 := by simp only [R.EVENT_WM_STICKY] at hw; omega
  have hb : set.testBit 30 = true := hb
  cases hc : s.on R.EVENT_WM_STICKY 0 j with
  | false =>
    rw [hwSet_watermark_clear set hp hr hs h hb hc,
      (raise_path .event 0 2 (by decide)).sticky_stays hj (State.rd_wr_same _ _ _ _ _)]
    rfl
  | true =>
    rw [hwSet_watermark set hp hr hs h, if_pos hb, hwBit_plain _ _ (by omega) (fun _ _ => hc), State.rd_wr_same,
      Nat.testBit_mod_two_pow]
    exact Bool.and_eq_true_iff.2 ⟨rfl, testBit_setBit _ 0⟩
end

/-- Settles O52: an event status, a watermark and any other register each by the lemmas of its kind. -/
theorem w1cSettingWins : Obligations.W1cSettingWins := by
  intro addr v set s p i o j r u hp hr hs
  refine ⟨u.hwSet addr.toNat set.toNat, rfl, hwSet_reports _ _, ?sets, ?others, fun h => ?events, ?watermark⟩
  case sets =>
    intro x hx hacc b hb hset he
    have hb := mem_fieldBits.2 ⟨hb, hset⟩
    by_cases h : r.off = 0x10
    · exact hwSet_status_sets _ hp hr hs h hx hb (he h)
    · by_cases hw : p = .event ∧ r.off = 0x130
      · obtain ⟨rfl, ho⟩ := hw
        exact hwSet_watermark_sets _ hp hr hs ho hx hacc hb
      · exact (hwSet_plain_spec _ hp hr hs h hw).2 x hx hacc b hb
  case others =>
    intro x hx hn
    by_cases h : r.off = 0x10
    · rw [(regOf_status hr h).2] at hx
      exact absurd (congrArg FSpec.acc (List.mem_singleton.1 hx)) hn
    · by_cases hw : p = .event ∧ r.off = 0x130
      · obtain ⟨rfl, ho⟩ := hw
        exact hwSet_watermark_others _ hp hr hs ho hx hn
      · exact (hwSet_plain_spec _ hp hr hs h hw).1 x hx hn
  case events => exact hwSet_status _ hp hr hs h
  case watermark =>
    rintro rfl ho hb hc
    exact hwSet_watermark_clear _ hp hr hs ho hb hc

end Sys2Proof.Machine

/-! The transmitted frame of a lane (R45 to R51, R65). -/
namespace Sys2Proof.Machine
open Sys2Proof

variable {s : State} {bits : Nat}

theorem frameTickHorale_frames {n : Nat} (h : s.laneDrive n = .frames) : s.frameTickHorale n bits = (s.txClose n bits).txStart n := by
  simp only [State.frameTickHorale, h]

/-- A lane whose pins carry no frames sends none, and drives them (R65, R404). -/
theorem frameTickHorale_idle {n : Nat} (h : s.laneDrive n ≠ .frames) : s.frameTickHorale n bits =
    (s.updLane n (fun l => { l with ohead := none })).emit (.laneIdle (.horale (Fin.ofNat 64 n)) (s.laneDrive n)) := by
  unfold State.frameTickHorale
  split
  · exact absurd ‹_› h
  · rfl

theorem txClose_none {n : Nat} (h : (s.lane n).ohead = none) : s.txClose n bits = s := by
  simp only [State.txClose, h]

/-- The frame of overhead `lo`, closed on the tick (R45 to R49). -/
theorem txClose_some {n : Nat} {lo : List Byte} (h : (s.lane n).ohead = some lo) : s.txClose n bits =
    (let region := scramble scrInit (bytesToBits (lo ++ s.txPayload n lo))
     let st := stuffCount false 0 region
     let fill := bits - (64 + region.length + st)
     let u := (s.loopSent n).updLane n (fun l =>
       { l with bipTx := bip16 0 0 region, lastTx := some (stuff false 0 region, fill),
                ltx := ((64 + region.length + st + fill) :: l.ltx).take 64, ohead := none })
     let v := (u.wr R.LANEP_FILL_TX_COUNT fill n).wr R.LANEP_STUFF_TX_COUNT st n
     (v.count .lanep n 1 st).emit (.lane (.horale (Fin.ofNat 64 n)) fasWord (stuff false 0 region) fill (v.txInv n))) := by
  simp only [State.txClose, h]

/-- Settles O11, by what drives the pins of the lane, and then by whether a frame is being sent. -/
theorem frameTickSendsTheFrame : Obligations.FrameTickSendsTheFrame := by
  intro n bits s
  have tick : exec (.frameTick (.horale n) bits) s = .next (s.start.frameTickHorale n.val bits) := rfl
  have lane : Fin.ofNat 64 n.val = n := Fin.ofNat_val_eq_self n
  rw [tick]
  refine ⟨?idle, ?first, ?sends⟩
  case idle =>
    rintro d rfl hd
    rw [frameTickHorale_idle (s := s.start) hd, lane, State.start_laneDrive]
  case first =>
    intro hd ho
    rw [frameTickHorale_frames (s := s.start) hd, txClose_none (s := s.start) ho]
  case sends =>
    intro hd lo ho
    rw [frameTickHorale_frames (s := s.start) hd, txClose_some (s := s.start) ho, lane]
    rfl

end Sys2Proof.Machine

/-! The hinge, and the control cycles between hinges (R20, R23 to R27; log entry 1). -/
namespace Sys2Proof.Machine
open Sys2Proof

variable {s old : State}

theorem exec_hinge (i : HingeIn) (hd : s.domUp 2 = true) (hp : s.pow.phase = .running ∨ s.pow.phase = .soft) :
    exec (.hinge i) s = .next (s.start.hingeTurn i) :=
  if_pos (by simpa [hd] using hp)

theorem exec_hinge_none (i : HingeIn) (h : s.domUp 2 = false ∨ s.pow.phase = .unpowered ∨ s.pow.phase = .resetN) :
    exec (.hinge i) s = .next s.start :=
  if_neg (by rcases h with h | h | h <;> simp [h])

/-- The changes due stop at the mode when it leaves the management or the timing domain off. -/
theorem changes_off (h : s.modeHinge.domUp 1 = false ∨ s.modeHinge.domUp 2 = false) : State.changes old s = s.modeHinge :=
  if_pos (by rcases h with h | h <;> simp [h])

/-- The first two changes of R25: role and mode, then the commit. -/
def State.modeAndCommit (s : State) : State := s.modeHinge.commitHinge s.modeHinge.frame s.modeHinge.epoch

/-- With both domains usable the rest of R25 follows the commit: the traffic, or without it the power and the scheduled actions, then
the clock outputs. -/
theorem changes_on (h₁ : s.modeHinge.domUp 1 = true) (h₂ : s.modeHinge.domUp 2 = true) : State.changes old s =
    (if trafficMode s.modeAndCommit.mode then State.trafficHinge old s.modeAndCommit
      else s.modeAndCommit.powerHinge.actions).clockTurn.readyChk.notifyTurn :=
  if_neg (by simp [h₁, h₂])

theorem changes_traffic (h₁ : s.modeHinge.domUp 1 = true) (h₂ : s.modeHinge.domUp 2 = true)
    (hm : trafficMode s.modeAndCommit.mode = true) :
    State.changes old s = (State.trafficHinge old s.modeAndCommit).clockTurn.readyChk.notifyTurn := by
  rw [changes_on h₁ h₂, if_pos hm]

theorem changes_noTraffic (h₁ : s.modeHinge.domUp 1 = true) (h₂ : s.modeHinge.domUp 2 = true)
    (hm : trafficMode s.modeAndCommit.mode = false) :
    State.changes old s = s.modeAndCommit.powerHinge.actions.clockTurn.readyChk.notifyTurn := by
  rw [changes_on h₁ h₂, if_neg (ne_true_of_eq_false hm)]

/-- A hinge begins the next frame at its cycle 0. -/
theorem hingeTurn_clk (s : State) (i : HingeIn) : (s.hingeTurn i).clk = ⟨s.frame + 1, 0⟩ := by
  simp [State.hingeTurn, State.nextFrameBegins, State.frame]

theorem tick_unpowered (h : s.pow.phase = .unpowered) : s.tick = s.start := if_pos h

/-- Within a frame the cycle counts. -/
theorem tick_counts (hp : s.pow.phase ≠ .unpowered) (hc : s.cyc < 74999) : s.tick.clk = ⟨s.frame, s.cyc + 1⟩ := by
  simp [State.tick, hp, hc, State.cyc]

/-- The last cycle of a frame waits for HINGE. -/
theorem tick_waits (hp : s.pow.phase ≠ .unpowered) (hc : 74999 ≤ s.cyc) (hd : s.domUp 2 = true) : s.tick = s.start := by
  rw [State.tick, if_neg hp, if_neg (by omega), if_pos hd]

/-- Without the timing domain no HINGE comes, and the next frame begins by itself. -/
theorem tick_endsFrame (hp : s.pow.phase ≠ .unpowered) (hc : 74999 ≤ s.cyc) (hd : s.domUp 2 = false) :
    s.tick.clk = ⟨s.frame + 1, 0⟩ := by
  simp [State.tick, hp, hd, Nat.not_lt.2 hc, State.frame]

theorem step_idle (h : s.pending = []) : step s = .next s.tick := by
  unfold step; rw [h]

/-- Settles O55: a hinge by what begins the frame and what its changes are, a step on an empty queue by the branches of the tick. -/
theorem hingeAndCycles : Obligations.HingeAndCycles := by
  refine ⟨fun i s => ⟨fun hd hp => ?hinge, exec_hinge_none i⟩, fun s hq => ?cycle⟩
  case hinge =>
    have clk := hingeTurn_clk s.start i
    exact ⟨s.start.hingeTurn i, exec_hinge i hd hp, congrArg (·.frame) clk, congrArg (·.cyc) clk, State.hingeTurn_sp _ i,
      State.hingeTurn_pending _ i, fun h₁ h₂ => ⟨changes_traffic h₁ h₂, changes_noTraffic h₁ h₂⟩, changes_off⟩
  case cycle =>
    refine ⟨s.tick, step_idle hq, (State.tick_pending s).trans hq, State.tick_sp s, tick_unpowered, fun hp =>
      ⟨fun hc => ?_, tick_waits hp, fun hc hd => ?_⟩⟩
    · exact ⟨congrArg (·.frame) (tick_counts hp hc), congrArg (·.cyc) (tick_counts hp hc)⟩
    · exact ⟨congrArg (·.frame) (tick_endsFrame hp hc hd), congrArg (·.cyc) (tick_endsFrame hp hc hd)⟩

end Sys2Proof.Machine

/-! Lane control: what writes of EN, RATE and LOOP do (R43, R57, R60, R195). -/
namespace Sys2Proof.Machine
open Sys2Proof

variable {s : State} {n : Nat}

/-- Without a running scan there is nothing to abort (R59). -/
theorem eyeStop_idle (h : s.on R.LANEP_EYE_STAT_BUSY n = false) : s.eyeStop n = s := by simp [State.eyeStop, h]

/-- A running scan ends with ABORTED and its event (R59). -/
theorem eyeStop_busy (h : s.on R.LANEP_EYE_STAT_BUSY n = true) :
    s.eyeStop n = ((s.wr R.LANEP_EYE_STAT_BUSY 0 n).wr R.LANEP_EYE_STAT_ABORTED 1 n).raise .lanep n 5 := by simp [State.eyeStop, h]

theorem mayEnable_eq_false_iff : s.mayEnable n = false ↔ s.on R.LANEP_EQ_STAT_LOADED n = false ∨
    recordValid ((s.lane n).recs.getD (s.rd R.LANEP_CTL_RATE n) []) = false := Bool.and_eq_false_iff

theorem laneEnSet_enabled (h : s.on R.LANEP_CTL_EN n = true) : s.laneEnSet n = s := if_pos h

theorem laneEnSet_stored (h : s.on R.LANEP_CTL_EN n = false) (hm : s.mayEnable n = true) :
    s.laneEnSet n = (s.wr R.LANEP_CTL_EN 1 n).eqShow n := by simp [State.laneEnSet, h, hm]

theorem laneEnSet_refused (h : s.on R.LANEP_CTL_EN n = false) (hm : s.mayEnable n = false) :
    s.laneEnSet n = s.wr R.LANEP_STAT_EN_REFUSED 1 n := by simp [State.laneEnSet, h, hm]

/-- EN = 0 follows the abort of a running scan, and notes the stop of a lane that ran (R43, R59). -/
theorem laneEnClear_eq : s.laneEnClear n =
    (((s.eyeStop n).wr R.LANEP_CTL_EN 0 n).updLane n (fun l => { l with stopDue := s.running n })).eqShow n := rfl

theorem rateWrite_same {r : Nat} (h : s.rd R.LANEP_CTL_RATE n = r) : s.rateWrite n r = s := if_pos h

theorem rateWrite_refused {r : Nat} (h : s.rd R.LANEP_CTL_RATE n ≠ r) (hr : s.on R.LANEP_CTL_EN n = true ∨ s.inGroup n = true) :
    s.rateWrite n r = s.wr R.LANEP_STAT_RATE_REFUSED 1 n := by rw [State.rateWrite, if_neg h, if_pos hr]

theorem rateWrite_stored {r : Nat} (h : s.rd R.LANEP_CTL_RATE n ≠ r) (he : s.on R.LANEP_CTL_EN n = false) (hg : s.inGroup n = false) :
    s.rateWrite n r = (s.wr R.LANEP_CTL_RATE r n).eqShow n := by
  rw [State.rateWrite, if_neg h, if_neg (by simp [he, hg])]

theorem loopWrite_stored {l : Nat} (h : l = 0 ∨ s.mode = mMAINT) : s.loopWrite n l = s.wr R.LANEP_CTL_LOOP l n :=
  if_neg (fun ⟨hl, hm⟩ => h.elim hl hm)

theorem loopWrite_refused {l : Nat} (hl : l ≠ 0) (hm : s.mode ≠ mMAINT) : s.loopWrite n l = s.wr R.LANEP_STAT_LOOP_REFUSED 1 n :=
  if_pos ⟨hl, hm⟩

/-- Settles O3: each write by what it finds: EN and the held record, a running scan, RATE with EN and the group, LOOP with the mode. -/
theorem laneControlWrites : Obligations.LaneControlWrites := by
  intro n s hs
  have en : exec (.laneEnSet n) s = .next (s.start.laneEnSet n) := State.onPage_served (f := (·.laneEnSet n)) hs
  have stop : exec (.laneEnClear n) s = .next (s.start.laneEnClear n) := State.onPage_served (f := (·.laneEnClear n)) hs
  have rate (r : BitVec 2) : exec (.rateWrite n r) s = .next (s.start.rateWrite n r.toNat) :=
    State.onPage_served (f := (·.rateWrite n r.toNat)) hs
  have loop (l : BitVec 2) : exec (.loopWrite n l) s = .next (s.start.loopWrite n l.toNat) :=
    State.onPage_served (f := (·.loopWrite n l.toNat)) hs
  refine ⟨fun he hl hv => ?stored, fun he hr => ?refused, fun he => ?enabled, ⟨fun hb => ?idle, fun hb => ?scanning⟩,
    fun r hr => ?sameRate, fun r hr he hg => ?newRate, fun r hr hb => ?rateRefused, fun l hl => ?loops, fun l hl hm => ?loopRefused⟩
  case stored => rw [en, laneEnSet_stored (s := s.start) he (Bool.and_eq_true_iff.2 ⟨hl, hv⟩)]
  case refused => rw [en, laneEnSet_refused (s := s.start) he (mayEnable_eq_false_iff.2 hr)]
  case enabled => rw [en, laneEnSet_enabled (s := s.start) he]
  case idle => rw [stop, laneEnClear_eq, eyeStop_idle (s := s.start) hb, State.start_running]
  case scanning => rw [stop, laneEnClear_eq, eyeStop_busy (s := s.start) hb, State.start_running]
  case sameRate => rw [rate, rateWrite_same (s := s.start) hr]
  case newRate => rw [rate, rateWrite_stored (s := s.start) hr he hg]
  case rateRefused => rw [rate, rateWrite_refused (s := s.start) hr hb]
  case loops => rw [loop, loopWrite_stored (s := s.start) (hl.imp_left (congrArg BitVec.toNat))]
  case loopRefused => rw [loop, loopWrite_refused (s := s.start) (fun h => hl (BitVec.eq_of_toNat_eq h)) hm]

end Sys2Proof.Machine

/-! The eye scan of a lane (R58, R59). -/
namespace Sys2Proof.Machine
open Sys2Proof

variable {s : State} {n : Nat}

theorem eyeStart_busy (h : s.on R.LANEP_EYE_STAT_BUSY n = true) : s.eyeStart n = s.wr R.LANEP_EYE_STAT_REFUSED 1 n := if_pos h

theorem eyeStart_idle (h : s.on R.LANEP_EYE_STAT_BUSY n = false) (he : s.on R.LANEP_CTL_EN n = true) :
    s.eyeStart n = (s.wr R.LANEP_EYE_STAT_BUSY 1 n).wr R.LANEP_EYE_STAT_POINT 0 n := by simp [State.eyeStart, h, he]

/-- A point's count is written and POINT advances (R59): what every end of a point does. -/
def State.eyePoint (s : State) (n count : Nat) : State :=
  (s.spWrite (s.rd R.LANEP_EYE_DEST_BLOCK n * 16384 + 2 * s.rd R.LANEP_EYE_STAT_POINT n) (leBytes 2 (min count 0xFFFF))).wr
    R.LANEP_EYE_STAT_POINT (s.rd R.LANEP_EYE_STAT_POINT n + 1) n

/-- The end of a point of a running scan: the scan goes on, or with the last point is done (R59). -/
theorem exec_eyePointDone (n : Fin 64) (count : Nat) (h : s.on R.LANEP_EYE_STAT_BUSY n = true)
    (hc : count ≤ 2 ^ s.rd R.LANEP_EYE_CTL_DWELL_LOG2 n) : exec (.eyePointDone n count) s = .next
      (if s.rd R.LANEP_EYE_STAT_POINT n + 1 < 8192 then s.start.eyePoint n count
       else (((s.start.eyePoint n count).wr R.LANEP_EYE_STAT_BUSY 0 n).wr R.LANEP_EYE_STAT_DONE 1 n).raise .lanep n 4) := by
  have run : (!s.on R.LANEP_EYE_STAT_BUSY n || decide (2 ^ s.rd R.LANEP_EYE_CTL_DWELL_LOG2 n < count)) = false := by
    simp [h, Nat.not_lt.2 hc]
  show execEyePointDone n count s = _
  exact (if_neg (ne_true_of_eq_false run)).trans (apply_ite Host.Outcome.next _ _ _).symm

/-- Settles O4, by whether a scan runs, and for the end of a point by whether it is the last. -/
theorem eyeScanCommands : Obligations.EyeScanCommands := by
  intro n s
  have start (hs : s.served .lanep n = true) : exec (.eyeStart n) s = .next (s.start.eyeStart n) :=
    State.onPage_served (f := (·.eyeStart n)) hs
  have abort (hs : s.served .lanep n = true) : exec (.eyeAbort n) s = .next (s.start.eyeStop n) :=
    State.onPage_served (f := (·.eyeStop n)) hs
  refine ⟨fun hs hb => ⟨?refused, ?aborted⟩, fun hs hb => ⟨?nothing, fun he => ?started⟩, fun count hb hc hp => ?point,
    fun count hb hc hp => ?last⟩
  case refused => rw [start hs, eyeStart_busy (s := s.start) hb]
  case aborted => rw [abort hs, eyeStop_busy (s := s.start) hb]
  case nothing => rw [abort hs, eyeStop_idle (s := s.start) hb]
  case started => rw [start hs, eyeStart_idle (s := s.start) hb he]
  case point => rw [exec_eyePointDone n count hb hc, if_pos (by omega)]; rfl
  case last => rw [exec_eyePointDone n count hb hc, if_neg (by omega)]; rfl

end Sys2Proof.Machine

/-! The load of a lane's equalisation records (R53, R55, R56, R359). -/
namespace Sys2Proof.Machine
open Sys2Proof

variable {s : State}

theorem eqLoad_busy {n : Nat} (h : s.on R.LANEP_EQ_STAT_BUSY n = true) : s.eqLoad n = s := if_pos h

theorem eqLoad_idle {n : Nat} (h : s.on R.LANEP_EQ_STAT_BUSY n = false) : s.eqLoad n =
    (((s.wr R.LANEP_EQ_STAT_BUSY 1 n).wr R.LANEP_EQ_STAT_FMT_ERR 0 n).wr R.LANEP_EQ_STAT_CRC_ERR 0 n).wr
      R.LANEP_EQ_STAT_RANGE_ERR 0 n := if_neg (ne_true_of_eq_false h)

/-- The image in the scratchpad has the magic and the version of a table (R53). -/
def State.eqFormat (s : State) : Prop := ofLe (s.spBytes eqImage 4) = 0x3834365A ∧ ofLe (s.spBytes (eqImage + 4) 2) = 1

/-- The four records that the image has for lane `n` (R53). -/
def State.eqRecords (s : State) (n : Nat) : List (List Byte) :=
  (List.range 4).map (fun i => s.spBytes (eqImage + 0x20 + 16 * (4 * n + i)) 16)

section
variable {n : Fin 64} (hb : s.on R.LANEP_EQ_STAT_BUSY n = true) (hi : s.on R.SECURE_SP_STAT_INIT_DONE = true)
  (hd : s.spDetect eqImage 8 = none)
include hb hi hd

/-- A wrong magic or version ends a load before anything else is read (R56). -/
theorem exec_eqLoadDone_format (hf : ¬ s.eqFormat) : exec (.eqLoadDone n) s =
    .next ((s.start.wr R.LANEP_EQ_STAT_BUSY 0 n).eqFail n R.LANEP_EQ_STAT_FMT_ERR) := by
  have runs : ¬ (!s.on R.LANEP_EQ_STAT_BUSY n ∨ !s.on R.SECURE_SP_STAT_INIT_DONE) := by simp [hb, hi]
  have head : (s.start.wr R.LANEP_EQ_STAT_BUSY 0 n).spDetect eqImage 8 = none := hd
  refine (if_neg runs).trans ?_
  simp only [head]
  exact if_pos (not_and_or.1 hf)

/-- Behind a right magic and version the whole image is judged: its CRC, then the records of the lane (R55, R56). -/
theorem exec_eqLoadDone_image (hf : s.eqFormat) (hw : s.spDetect eqImage 4132 = none) :
    let u := s.start.wr R.LANEP_EQ_STAT_BUSY 0 n
    exec (.eqLoadDone n) s =
      if crc32 (s.spBytes eqImage 0x1020) ≠ ofLe (s.spBytes (eqImage + 0x1020) 4) then .next (u.eqFail n R.LANEP_EQ_STAT_CRC_ERR)
      else if (s.eqRecords n).all recordOk then .next (u.eqTake n (s.eqRecords n)) else .next (u.eqFail n R.LANEP_EQ_STAT_RANGE_ERR) := by
  have runs : ¬ (!s.on R.LANEP_EQ_STAT_BUSY n ∨ !s.on R.SECURE_SP_STAT_INIT_DONE) := by simp [hb, hi]
  have head : (s.start.wr R.LANEP_EQ_STAT_BUSY 0 n).spDetect eqImage 8 = none := hd
  have whole : (s.start.wr R.LANEP_EQ_STAT_BUSY 0 n).spDetect eqImage 4132 = none := hw
  refine (if_neg runs).trans ?_
  simp only [head]
  refine (if_neg (not_or.2 ⟨not_not_intro hf.1, not_not_intro hf.2⟩)).trans ?_
  simp only [whole]
  rfl

end

/-- Settles O5: LOAD by BUSY, and the end of a load by R56's checks in order. -/
theorem equalisationLoad : Obligations.EqualisationLoad := by
  intro n s
  have load (hs : s.served .lanep n = true) : exec (.eqLoad n) s = .next (s.start.eqLoad n) :=
    State.onPage_served (f := (·.eqLoad n)) hs
  refine ⟨fun hs hb => ?starts, fun hs hb => ?ignored, fun hb hi hd => ⟨fun hf => ?format, fun hf hw hc => ?crc,
    fun hf hw hc hr => ?range, fun hf hw hc hr => ?taken⟩⟩
  case starts => rw [load hs, eqLoad_idle (s := s.start) hb]
  case ignored => rw [load hs, eqLoad_busy (s := s.start) hb]
  case format => exact exec_eqLoadDone_format hb hi hd hf
  case crc => exact (exec_eqLoadDone_image hb hi hd hf hw).trans (if_pos hc)
  case range =>
    exact (exec_eqLoadDone_image hb hi hd hf hw).trans ((if_neg (not_not_intro hc)).trans (if_neg (ne_true_of_eq_false hr)))
  case taken => exact (exec_eqLoadDone_image hb hi hd hf hw).trans ((if_neg (not_not_intro hc)).trans (if_pos hr))

end Sys2Proof.Machine

/-! The clocks of a lane: CDR lock, PLL lock and reference offset (R42, R91, R289). -/
namespace Sys2Proof.Machine
open Sys2Proof

variable {s : State}

@[simp] theorem State.setDxRx_dx (l : Nat) (r : DxRx) : (s.setDxRx l r).dx = s.dx := by
  unfold State.setDxRx; split <;> rfl

@[simp] theorem State.dxRx_setDxRx_same (l : Nat) (r : DxRx) : (s.setDxRx l r).dxRx l = r := by
  by_cases h : l = 0 <;> simp [State.setDxRx, State.dxRx, h]

@[simp] theorem State.setDxRx_setDxRx (l : Nat) (r r' : DxRx) : (s.setDxRx l r).setDxRx l r' = s.setDxRx l r' := by
  by_cases h : l = 0 <;> simp [State.setDxRx, h]

/-- A Dexgor framer that takes `r` keeps it while signal and clock are there, and else is in SEARCH without candidates (R82, R289). -/
theorem State.dxJudge_setDxRx (l : Nat) (r : DxRx) : (s.setDxRx l r).dxJudge l =
    if r.sig && r.cdr && s.dx.pll && !s.dx.refRange then s.setDxRx l r
    else s.setDxRx l { r with sync := false, cands := [], errFas := 0 } := by
  simp only [State.dxJudge, State.dxSound, State.dxRx_setDxRx_same, State.setDxRx_dx, State.setDxRx_setDxRx]

/-- A change of CDR lock of a lane whose PMA domain is usable; only a loss stops a scan and raises CDR_LOL (R59, R91). -/
theorem State.cdrLock_horale {n : Fin 64} (hd : s.domUp (20 + n.val / 4) = true) (locked : Bool) : s.cdrLock (.horale n) locked =
    (if s.on R.LANEP_STAT_CDR_LOCK n && !locked then ((s.wrB R.LANEP_STAT_CDR_LOCK locked n).eyeStop n).raise .lanep n 2
     else s.wrB R.LANEP_STAT_CDR_LOCK locked n).judgeLol n := by
  simp only [State.cdrLock, hd, Bool.not_true, Bool.false_eq_true, if_false]

theorem State.cdrLock_dexgor {l : Fin 2} (hd : s.domUp 3 = true) (locked : Bool) :
    s.cdrLock (.dexgor l) locked = (s.setDxRx l { s.dxRx l with cdr := locked }).dxJudge l := by
  simp only [State.cdrLock, hd, Bool.not_true, Bool.false_eq_true, if_false]

/-- A measured offset within ±1,000 ppm fits its 20 bits and is stored as it is (R42). -/
theorem refOffsetLane_within {off : Int} (h₁ : -100000 ≤ off) (h₂ : off ≤ 100000) :
    State.refOffsetLane off = fun t n => t.wr R.LANEP_REF_OFFSET_OFFSET (ofSigned 20 off) n := by
  have fits : clampInt (-524288) 524287 off = off := by rw [clampInt, if_neg (by omega), if_neg (by omega)]
  funext t n
  simp only [State.refOffsetLane, fits]
  exact if_neg (by omega)

/-- One outside declares REF_RANGE (R42). -/
theorem refOffsetLane_outside {off : Int} (h : off < -100000 ∨ 100000 < off) : State.refOffsetLane off = fun t n =>
    (t.wr R.LANEP_REF_OFFSET_OFFSET (ofSigned 20 (clampInt (-524288) 524287 off)) n).refRangeLane n :=
  funext₂ fun _ _ => if_pos h

section
variable {q : Fin 16} (hd : s.domUp (20 + q.val) = true)
include hd

/-- A quad whose PMA domain is usable takes each of the three events lane by lane (R42). -/
theorem exec_quadPllLockChange (locked : Bool) : exec (.quadPllLockChange (.quad q) locked) s =
    .next ((quadLanes q.val).foldl (State.pllLane locked) s.start).readyChk := if_neg (by simp [hd])

theorem exec_refOffsetUpdate (off : Int) : exec (.refOffsetUpdate (.quad q) off) s =
    .next ((quadLanes q.val).foldl (State.refOffsetLane off) s.start) := if_neg (by simp [hd])

theorem exec_refRangeClear : exec (.refRangeClear (.quad q)) s =
    .next ((quadLanes q.val).foldl State.refRangeClearLane s.start) := if_neg (by simp [hd])

end

/-- Settles O8: the lane, the quad lane by lane, and the Dexgor lanes with their reference. -/
theorem laneClockChanges : Obligations.LaneClockChanges := by
  intro s
  refine ⟨fun n hd => ?lane, fun q hd => ?quad, fun l locked hd => ?dexgorLane, fun _ => rfl, fun _ => rfl,
    fun hp h₁ h₂ => if_pos ⟨hp, h₁, h₂⟩⟩
  case lane =>
    have change (locked : Bool) : exec (.cdrLockChange (.horale n) locked) s = .next (s.start.cdrLock (.horale n) locked) := rfl
    refine ⟨?_, fun hl => ?_, fun hl => ?_⟩
    · rw [change, State.cdrLock_horale (s := s.start) hd, if_neg (by simp)]; rfl
    · rw [change, State.cdrLock_horale (s := s.start) hd, if_pos (by simp [hl])]; rfl
    · rw [change, State.cdrLock_horale (s := s.start) hd, if_neg (by simp [hl])]; rfl
  case quad =>
    refine ⟨exec_quadPllLockChange hd true, exec_quadPllLockChange hd false, fun off h₁ h₂ => ?_, fun off h => ?_,
      exec_refRangeClear hd⟩
    · rw [exec_refOffsetUpdate hd, refOffsetLane_within h₁ h₂]
    · rw [exec_refOffsetUpdate hd, refOffsetLane_outside h]
  case dexgorLane =>
    have change : exec (.cdrLockChange (.dexgor l) locked) s = .next (s.start.cdrLock (.dexgor l) locked) := rfl
    rw [change, State.cdrLock_dexgor (s := s.start) hd, State.dxJudge_setDxRx]
    rfl

end Sys2Proof.Machine

/-! The frame received in SYNC (R50, R51, R55, R71, R72, R85). -/
namespace Sys2Proof.Machine
open Sys2Proof

variable {s : State} {n : Nat}

/-- A lane in SYNC outside a near-end loop takes the frame that its pins bring, in the polarity RX_INV asks for (R55, R61). -/
theorem laneRxHorale_pins {f : RxFrame} (hr : s.running n = true) (hy : s.inSync n = true) (hl : s.nearLoop n = false) :
    s.laneRxHorale n f = s.rxFrame n (polarity (s.rxInv n) f.bits) f.rowSkew.val := by
  simp [State.laneRxHorale, hr, hy, hl]

/-- Bits in which a FAS ends a frame are delivered first, and then the FAS is judged (R85). -/
theorem rxFrame_some {bs : List Bool} {k : Nat} {g : LineFrame} (h : lineFrame (s.rate n) bs = some g) :
    s.rxFrame n bs k = some ((s.rxDeliver n g k).rxFas n g.errored) := by
  simp [State.rxFrame, h]

/-- Settles O12: the frame is taken from the pins and read off the line; what its delivery and its FAS do stands in the statement. -/
theorem frameReceivedInSync : Obligations.FrameReceivedInSync := by
  intro n f s hr hy hl g hg
  have taken : s.start.laneRx (.horale n) f = some ((s.start.rxDeliver n g f.rowSkew.val).rxFas n g.errored) :=
    (laneRxHorale_pins (s := s.start) hr hy hl).trans (rxFrame_some (s := s.start) hg)
  have rx : exec (.laneFrameRx (.horale n) f) s = .next ((s.start.laneRx (.horale n) f).getD s.start) := rfl
  rw [rx, taken]
  rfl

end Sys2Proof.Machine

/-! The received signal of a lane (R82, R85, R91, R289). -/
namespace Sys2Proof.Machine
open Sys2Proof

variable {s : State} {n : Nat}

/-- A field of the PMA page of a lane has another key than one of its framer page. -/
theorem lanep_key_ne_lanef {f g : Fld} {i k : Nat} (hf : f.Placed i 0) (hg : g.Placed k 0) (hp : f.page = .lanep) (hq : g.page = .lanef) :
    f.key i 0 ≠ g.key k 0 := by
  intro e
  have pages := (Fld.key_inj hf hg e).1
  simp [hp, hq] at pages

theorem nearLoop_wrB_sigDet (b : Bool) : (s.wrB R.LANEP_STAT_SIG_DET b n).nearLoop n = s.nearLoop n := by
  have loop : (s.wrB R.LANEP_STAT_SIG_DET b n).rd R.LANEP_STAT_LOOP_ACTIVE n = s.rd R.LANEP_STAT_LOOP_ACTIVE n :=
    State.rd_wr_ne _ _ (key_ne (by decide) (by decide) (by decide))
  simp only [State.nearLoop, loop]

theorem running_wrB_sigDet (b : Bool) : (s.wrB R.LANEP_STAT_SIG_DET b n).running n = s.running n :=
  State.on_wr_ne _ _ (key_ne (by decide) (by decide) (by decide))

/-- With SIG_DET written `b`, LOS holds when neither a signal nor a near-end loop is there (R61, R91). -/
theorem losCond_wrB_sigDet (b : Bool) : (s.wrB R.LANEP_STAT_SIG_DET b n).losCond n = (!s.nearLoop n && !b) := by
  rw [State.losCond, nearLoop_wrB_sigDet, State.on_wrB_same _ _ _ _ _ rfl]

theorem judgeLos_ends (h : s.losCond n = false) : s.judgeLos n = s.setRawDef n 0 false := if_neg (ne_true_of_eq_false h)

theorem judgeLos_holds (h : s.losCond n = true) : s.judgeLos n = (s.setRawDef n 0 true).enterSearch n := if_pos h

/-- LOS and the entry to SEARCH leave the fields of the lane's PMA page. -/
theorem searchOnLos_rd {g : Fld} (hn : n < 64) (hg : g.Placed n 0) (hp : g.page = .lanep) (ho : 0x100 ≤ g.off) :
    ((s.setRawDef n 0 true).enterSearch n).rd g n = s.rd g n := by
  have apart {f : Fld} (hf : f.page = .lanef) (hoff : f.off < 0x1000) (hs : f.stride = 0) (hl : f.lsb < 64) : g.key n 0 ≠ f.key n 0 :=
    lanep_key_ne_lanef hg (Fld.placed_lane hn (.inl hf) hoff hs hl) hp hf
  have raw : g.key n 0 ≠ R.LANEF_DEF_RAW_DEFECTS.key n 0 := apart rfl (by decide) rfl (by decide)
  rw [State.enterSearch_rd hn hg ho (by simp [hp]) (apart rfl (by decide) rfl (by decide)) (apart rfl (by decide) rfl (by decide))
    (apart rfl (by decide) rfl (by decide)) raw (apart rfl (by decide) rfl (by decide)), State.setRawDef_rd _ _ raw]

theorem running_setRawDef (hn : n < 64) (b : Nat) (v : Bool) : (s.setRawDef n b v).running n = s.running n := by
  have apart : R.LANEP_STAT_RUNNING.key n 0 ≠ R.LANEF_DEF_RAW_DEFECTS.key n 0 :=
    lanep_key_ne_lanef (Fld.placed_lane hn (.inr rfl) (by decide) rfl (by decide)) (Fld.placed_lane hn (.inl rfl) (by decide) rfl (by decide))
      rfl rfl
  simp only [State.running, State.on, State.setRawDef_rd b v apart]

/-- LOS of a running lane holds together with OOF, whose raw condition the entry to SEARCH sets (R85, R91). -/
theorem searchOnLos_raw (hn : n < 64) (hr : s.running n = true) :
    (((s.setRawDef n 0 true).enterSearch n).laneRaw n).testBit 0 = true ∧
    (((s.setRawDef n 0 true).enterSearch n).laneRaw n).testBit 2 = true := by
  obtain ⟨-, -, -, -, raw⟩ := State.enterSearch_does hn ((running_setRawDef hn 0 true).trans hr)
  have los : ((s.setRawDef n 0 true).laneRaw n).testBit 0 = true := by
    rw [State.setRawDef_raw 0 true hr, Nat.testBit_mod_two_pow, testBit_putBit]; rfl
  have low {m b : Nat} (hb : b < 11) (h : m.testBit b = true) : (m % 2 ^ 11).testBit b = true := by
    rw [Nat.testBit_mod_two_pow, h, decide_eq_true hb]; rfl
  rw [raw]
  exact ⟨low (by decide) (setBit_grows 3 (low (by decide) (setBit_grows 2 los))),
    low (by decide) (setBit_grows 3 (low (by decide) (testBit_setBit _ 2)))⟩

/-- A change of amplitude of a lane whose PMA domain is usable is shown and judged. -/
theorem State.sigDet_horale {n : Fin 64} (hd : s.domUp (20 + n.val / 4) = true) (present : Bool) :
    s.sigDet (.horale n) present = (s.wrB R.LANEP_STAT_SIG_DET present n).judgeLos n := by
  simp only [State.sigDet, hd, Bool.not_true, Bool.false_eq_true, if_false]

theorem State.sigDet_dexgor {l : Fin 2} (hd : s.domUp 3 = true) (present : Bool) :
    s.sigDet (.dexgor l) present = (s.setDxRx l { s.dxRx l with sig := present }).dxJudge l := by
  simp only [State.sigDet, hd, Bool.not_true, Bool.false_eq_true, if_false]

/-- Settles O7: SIG_DET is written, and LOS then judged by it and the loop; a Dexgor lane is judged by its own record. -/
theorem signalLossStartsSearch : Obligations.SignalLossStartsSearch := by
  have change (l : LaneId) (present : Bool) (s : State) : exec (.sigDetChange l present) s = .next (s.start.sigDet l present) := rfl
  refine ⟨fun n s hd hr hl => ?lost, fun n present s hd h => ?ends, fun l present s hd => ?dexgor⟩
  case lost =>
    let u := s.start.wrB R.LANEP_STAT_SIG_DET false n
    have los : u.losCond n = true := by rw [losCond_wrB_sigDet, State.start_nearLoop, hl]; rfl
    have run : u.running n = true := (running_wrB_sigDet false).trans hr
    have shown : R.LANEP_STAT_SIG_DET.Placed n 0 := Fld.placed_lane n.isLt (.inr rfl) (by decide) rfl (by decide)
    obtain ⟨sync, cand, cands, oof, -⟩ := State.enterSearch_does n.isLt ((running_setRawDef n.isLt 0 true).trans run)
    obtain ⟨raw0, raw2⟩ := searchOnLos_raw n.isLt run
    refine ⟨(u.setRawDef n 0 true).enterSearch n, ?_, ?_, raw0, raw2, oof, sync, cands, cand⟩
    · rw [change, State.sigDet_horale (s := s.start) hd, judgeLos_holds los]
    · rw [State.on, searchOnLos_rd n.isLt shown rfl (by decide)]
      exact State.on_wrB_same _ _ _ _ _ rfl
  case ends =>
    have los : (s.start.wrB R.LANEP_STAT_SIG_DET present n).losCond n = false := by
      rw [losCond_wrB_sigDet, State.start_nearLoop]
      rcases h with rfl | hl
      · exact Bool.and_false _
      · rw [hl]; rfl
    rw [change, State.sigDet_horale (s := s.start) hd, judgeLos_ends los]
  case dexgor =>
    rw [change, State.sigDet_dexgor (s := s.start) hd, State.dxJudge_setDxRx]
    rfl

end Sys2Proof.Machine

/-! The integrators of lane and drawer defects (R89, R92, R115, R116). -/
namespace Sys2Proof.Machine
open Sys2Proof

variable {s : State} {n b c : Nat}

theorem laneDefBit_eq_two_iff {d : LaneDefect} : laneDefBit d = 2 ↔ d = .oof := by cases d <;> decide

/-- A lane defect may be declared when its lane runs, its raw condition holds, and neither it nor one that suppresses it stands. -/
theorem mayDeclare_iff : s.mayDeclare n b = true ↔ s.running n = true ∧ b ≠ 2 ∧ (s.laneRaw n).testBit b = true ∧
    (s.laneDef n).testBit b = false ∧ (laneUnsuppressed (setBit (s.laneDef n) b)).testBit b = true := by
  simp [State.mayDeclare, laneSuppressed, and_assoc]

theorem mayClear_iff : s.mayClear n b = true ↔ b ≠ 2 ∧ (s.laneDef n).testBit b = true ∧ (s.laneRaw n).testBit b = false := by
  simp [State.mayClear, and_assoc]

theorem mayDeclareDrw_iff : s.mayDeclareDrw n c b = true ↔ s.running n = true ∧ (s.drw n c).monEn = true ∧
    (s.drw n c).raw.testBit b = true ∧ (s.drw n c).declared.testBit b = false ∧
    (drwUnsuppressed (setBit (s.drw n c).declared b) (s.actionB n)).testBit b = true := by
  simp [State.mayDeclareDrw, drwSuppressed, and_assoc]

theorem mayClearDrw_iff : s.mayClearDrw n c b = true ↔ (s.drw n c).declared.testBit b = true ∧ (s.drw n c).raw.testBit b = false := by
  simp [State.mayClearDrw]

/-- An integrator that has reached SET notes the declaration (R89). -/
theorem integJudge_declares (h : s.mayDeclare n b = true) (ht : s.rd R.LANEF_INTEG_SET n b ≤ s.laneRun n b) :
    s.integJudge n b = s.setLane n { s.lane n with pendSet := setBit (s.lane n).pendSet b } := if_pos ⟨h, ht⟩

/-- One that has reached CLEAR notes the clearance: what may clear stands, and so is not to be declared. -/
theorem integJudge_clears (h : s.mayClear n b = true) (ht : s.rd R.LANEF_INTEG_CLEAR n b ≤ s.laneRun n b) :
    s.integJudge n b = s.setLane n { s.lane n with pendClr := setBit (s.lane n).pendClr b } := by
  have stands : ¬ (s.mayDeclare n b = true ∧ s.rd R.LANEF_INTEG_SET n b ≤ s.laneRun n b) := by
    rintro ⟨d, -⟩
    simp [(mayClear_iff.1 h).2.1, mayDeclare_iff] at d
  exact (if_neg stands).trans (if_pos ⟨h, ht⟩)

theorem integJudgeDrw_declares (h : s.mayDeclareDrw n c b = true) (ht : s.rd R.LANEF_DINTEG_SET n b ≤ s.drwRun n c b) :
    s.integJudgeDrw n c b = s.setDrw n c { s.drw n c with pendSet := setBit (s.drw n c).pendSet b } := if_pos ⟨h, ht⟩

theorem integJudgeDrw_clears (h : s.mayClearDrw n c b = true) (ht : s.rd R.LANEF_DINTEG_CLEAR n b ≤ s.drwRun n c b) :
    s.integJudgeDrw n c b = s.setDrw n c { s.drw n c with pendClr := setBit (s.drw n c).pendClr b } := by
  have stands : ¬ (s.mayDeclareDrw n c b = true ∧ s.rd R.LANEF_DINTEG_SET n b ≤ s.drwRun n c b) := by
    rintro ⟨d, -⟩
    simp [(mayClearDrw_iff.1 h).1, mayDeclareDrw_iff] at d
  exact (if_neg stands).trans (if_pos ⟨h, ht⟩)

/-! An event that names what its integrator shows has it judged (log entry 69). -/

section
variable {n : Fin 64}

theorem exec_laneDefectDeclare {d : LaneDefect} (h : s.mayDeclare n (laneDefBit d) = true) :
    exec (.laneDefectDeclare n d (s.laneRun n (laneDefBit d))) s = .next (s.start.integJudge n (laneDefBit d)) := if_pos ⟨h, rfl⟩

theorem exec_laneDefectClear {d : LaneDefect} (h : s.mayClear n (laneDefBit d) = true) :
    exec (.laneDefectClear n d (s.laneRun n (laneDefBit d))) s = .next (s.start.integJudge n (laneDefBit d)) := if_pos ⟨h, rfl⟩

theorem exec_drawerDefectDeclare {c : BitVec 13} {d : DrawerDefect} (h : s.mayDeclareDrw n c.toNat (drwDefBit d) = true) :
    exec (.drawerDefectDeclare n c d (s.drwRun n c.toNat (drwDefBit d))) s = .next (s.start.integJudgeDrw n c.toNat (drwDefBit d)) :=
  if_pos ⟨h, rfl⟩

theorem exec_drawerDefectClear {c : BitVec 13} {d : DrawerDefect} (h : s.mayClearDrw n c.toNat (drwDefBit d) = true) :
    exec (.drawerDefectClear n c d (s.drwRun n c.toNat (drwDefBit d))) s = .next (s.start.integJudgeDrw n c.toNat (drwDefBit d)) :=
  if_pos ⟨h, rfl⟩
end

/-- Settles O6: each event by what may be declared or cleared and by the time its integrator has run. -/
theorem defectIntegration : Obligations.DefectIntegration := by
  intro n s
  refine ⟨fun d hr hd raw decl sup ht => ?declare, fun d hd decl raw ht => ?clear, fun c d hr hm raw decl sup ht => ?drwDeclare,
    fun c d decl raw ht => ?drwClear, fun d run h => ⟨if_neg fun e => h e.2, if_neg fun e => h e.2⟩,
    fun c d run h => ⟨if_neg fun e => h e.2, if_neg fun e => h e.2⟩⟩
  case declare =>
    have may : s.mayDeclare n (laneDefBit d) = true := mayDeclare_iff.2 ⟨hr, mt laneDefBit_eq_two_iff.1 hd, raw, decl, sup⟩
    rw [exec_laneDefectDeclare may, integJudge_declares (s := s.start) may ht, State.start_lane]
  case clear =>
    have may : s.mayClear n (laneDefBit d) = true := mayClear_iff.2 ⟨mt laneDefBit_eq_two_iff.1 hd, decl, raw⟩
    rw [exec_laneDefectClear may, integJudge_clears (s := s.start) may ht, State.start_lane]
  case drwDeclare =>
    have may : s.mayDeclareDrw n c.toNat (drwDefBit d) = true := mayDeclareDrw_iff.2 ⟨hr, hm, raw, decl, sup⟩
    rw [exec_drawerDefectDeclare may, integJudgeDrw_declares (s := s.start) may ht, State.start_drw]
  case drwClear =>
    have may : s.mayClearDrw n c.toNat (drwDefBit d) = true := mayClearDrw_iff.2 ⟨decl, raw⟩
    rw [exec_drawerDefectClear may, integJudgeDrw_clears (s := s.start) may ht, State.start_drw]

end Sys2Proof.Machine

/-! The error estimate of a lane, and the writes of its integrators (R89, R90, R91). -/
namespace Sys2Proof.Machine
open Sys2Proof

variable {s : State} {n : Nat}

/-- The check of a running lane closes its block and judges SD, EXC and STV, one after the other (R90, R91). -/
theorem exec_fillerBerCheck {n : Fin 64} (h : s.running n = true) : exec (.fillerBerCheck n) s = .next
    (let l := s.lane n
     let bl := if l.blkPart then [] else ((l.fillNow, l.diffNow) :: l.blocks).take 10000
     let e := s.rd R.LANEF_CTL_SD_EXP n
     let u := s.start.setLane n { l with blocks := bl, fillNow := 0, diffNow := 0, violNow := 0, blkPart := false }
     ((u.setRawDef n 7 (overThreshold bl (sdBlocks e) e)).setRawDef n 8 (overThreshold bl 1 3)).setRawDef n 10
       (decide (16 ≤ l.violNow))) := if_neg (by simp [h])

/-- A lane integrator other than INTEG[2] stores its times and is judged by them (R89). -/
theorem integWrite_lane {d : LaneDefect} (h : d ≠ .oof) (set clr : Nat) : s.integWrite n (.lane d) set clr =
    ((s.wr R.LANEF_INTEG_SET set n (laneDefBit d)).wr R.LANEF_INTEG_CLEAR clr n (laneDefBit d)).integJudge n (laneDefBit d) :=
  if_neg (mt laneDefBit_eq_two_iff.1 h)

theorem integWrite_oof (set clr : Nat) : s.integWrite n (.lane .oof) set clr = s := by
  simp [State.integWrite, laneDefBit]

/-- Settles O9: the check of a running lane, and each write of an integrator by what it is the integrator of. -/
theorem errorEstimateAndIntegrators : Obligations.ErrorEstimateAndIntegrators := by
  intro n s
  have write (hs : s.served .lanef n = true) (r : IntegReg) (set clear : Byte) :
      exec (.integWrite n r set clear) s = .next (s.start.integWrite n r set.toNat clear.toNat) :=
    State.onPage_served (f := (·.integWrite n r set.toNat clear.toNat)) hs
  refine ⟨exec_fillerBerCheck, fun hs d set clear hd => ?lane, fun hs set clear => ?oof, fun hs d set clear => ?drawer⟩
  case lane => rw [write hs, integWrite_lane hd]
  case oof => rw [write hs, integWrite_oof]
  case drawer => exact write hs (.drawer d) set clear

end Sys2Proof.Machine

/-! The candidates of the framer in SEARCH, and the framer timers (R82, R83, R84, R289, R404). -/
namespace Sys2Proof.Machine
open Sys2Proof

variable {s : State} {p q stuff diff c : Nat}

section
variable {n : Fin 64} (hs : s.searching n = true)
include hs

/-- A Horale framer opens a candidate while fewer than four are open, and else counts the match that it discards (R82). -/
theorem candOpen_horale : s.candOpen (.horale n) p = if (s.lane n).cands.length < 4 then
    (s.setLane n { s.lane n with cands := (s.lane n).cands ++ [(p, 0)] }).showCands n else s.count .lanef n 5 := if_neg (by simp [hs])

/-- A candidate of a Horale framer that is confirmed brings SYNC at CONF_N, and else moves (R83, R84). -/
theorem candConfirm_horale (hc : mget? (s.lane n).cands p = some c) (hq : confirms (s.rate n) p q stuff diff = true) :
    s.candConfirm (.horale n) p q stuff diff = if s.rd R.LANEF_CTL_CONF_N n ≤ c + 1 then s.enterSync n
      else (s.setLane n { s.lane n with cands := moveCand (s.lane n).cands p q }).showCands n := by
  simp only [State.candConfirm, hc]
  exact if_neg (by simp [hs, hq])
end

section
variable {l : Fin 2} (hs : s.dxSearching l = true)
include hs

/-- A Dexgor framer discards the match beyond four candidates uncounted (R82, R289). -/
theorem candOpen_dexgor : s.candOpen (.dexgor l) p = if 4 ≤ (s.dxRx l).cands.length then s
    else s.setDxRx l { s.dxRx l with cands := (s.dxRx l).cands ++ [(p, 0)] } := by
  simp [State.candOpen, hs]

/-- Its candidates bring SYNC at the third confirmation (R289). -/
theorem candConfirm_dexgor (hc : mget? (s.dxRx l).cands p = some c) (hq : confirms 2 p q stuff diff = true) :
    s.candConfirm (.dexgor l) p q stuff diff = if 3 ≤ c + 1 then s.setDxRx l { s.dxRx l with sync := true, cands := [], errFas := 0 }
      else s.setDxRx l { s.dxRx l with cands := moveCand (s.dxRx l).cands p q } := by
  simp only [State.candConfirm, hc]
  exact if_neg (by simp [hs, hq])
end

/-- The receive timer acts on a lane in SYNC when two frames have passed since the last one delivered (R404). -/
theorem exec_rxFramerTimeout {n : Fin 64} (hr : s.running n = true) (hy : s.inSync n = true) (ht : s.ran (.frame n) 150000 = true) :
    exec (.rxFramerTimeout n) s = .next (((s.start.enterSearch n).count .lanef n 0xE).recover 7 n) :=
  if_neg (by simp [hr, hy, ht])

theorem exec_txFramerTimeout {n : Fin 64} (hr : s.running n = true) : exec (.txFramerTimeout n) s =
    .next (((s.start.setLane n { s.lane n with txHeld := true, ohead := none }).count .lanef n 0xE).recover 8 n) :=
  if_neg (by simp [hr])

/-- Settles O10: the framer of a Horale lane, that of a Dexgor lane, and the two timers. -/
theorem frameAlignmentCandidates : Obligations.FrameAlignmentCandidates := by
  have opens (l : LaneId) (p : Nat) (s : State) : exec (.fasCandidateOpen l p) s = .next (s.start.candOpen l p) := rfl
  have confirm (l : LaneId) (p q stuff diff : Nat) (s : State) :
      exec (.fasCandidateConfirm l p q stuff diff) s = .next (s.start.candConfirm l p q stuff diff) := rfl
  refine ⟨⟨fun n s hs => ?horale, fun l s hs => ?dexgor⟩, fun n s hr => ⟨exec_rxFramerTimeout hr, exec_txFramerTimeout hr⟩⟩
  case horale =>
    refine ⟨fun p hl => ?_, fun p hl => ?_, fun p q stuff diff c hc hq => ⟨fun hn => ?_, fun hn => ?_⟩, fun p => rfl⟩
    · rw [opens, candOpen_horale (s := s.start) hs]; exact congrArg _ (if_pos hl)
    · rw [opens, candOpen_horale (s := s.start) hs]; exact congrArg _ (if_neg (Nat.not_lt.2 hl))
    · rw [confirm, candConfirm_horale (s := s.start) hs hc hq]; exact congrArg _ (if_neg (Nat.not_le.2 hn))
    · rw [confirm, candConfirm_horale (s := s.start) hs hc hq]; exact congrArg _ (if_pos hn)
  case dexgor =>
    refine ⟨fun p hl => ?_, fun p hl => ?_, fun p q stuff diff c hc hq => ⟨fun hn => ?_, fun hn => ?_⟩, fun p => rfl⟩
    · rw [opens, candOpen_dexgor (s := s.start) hs]; exact congrArg _ (if_neg (Nat.not_le.2 hl))
    · rw [opens, candOpen_dexgor (s := s.start) hs]; exact congrArg _ (if_pos hl)
    · rw [confirm, candConfirm_dexgor (s := s.start) hs hc hq]; exact congrArg _ (if_neg (Nat.not_le.2 hn))
    · rw [confirm, candConfirm_dexgor (s := s.start) hs hc hq]; exact congrArg _ (if_pos hn)

end Sys2Proof.Machine

/-! The CRC-6 of a connection word (R132): the register as a remainder, and the errors that it detects. -/
namespace Sys2Proof.Machine
open Sys2Proof

/-! The register of the code. -/

theorem crc6_append (bs : List Bool) (b : Bool) : crc6 (bs ++ [b]) = crcBit 6 0x03 (crc6 bs) b := List.foldl_concat ..

theorem crcBit6_lt (r : Nat) (b : Bool) : crcBit 6 0x03 r b < 2 ^ 6 := by
  have shifted : (2 * r) % 2 ^ 6 < 2 ^ 6 := Nat.mod_lt _ (by decide)
  unfold crcBit
  dsimp only
  split
  · exact Nat.xor_lt_two_pow shifted (by decide)
  · exact shifted

theorem crc6_lt (bs : List Bool) : crc6 bs < 2 ^ 6 := by
  cases bs using List.reverseRecOn with
  | nil => decide
  | append_singleton bs b => rw [crc6_append]; exact crcBit6_lt _ b

/-- What the bit that leaves the register feeds back: the generator without its highest term. -/
def feedback6 (b : Bool) : Nat := if b then 0x03 else 0

theorem crcBit6_eq (r : Nat) (b : Bool) : crcBit 6 0x03 r b = (2 * r) % 2 ^ 6 ^^^ feedback6 (r.testBit 5 ^^ b) := by
  change (if r.testBit 5 ^^ b then _ else _) = _
  cases r.testBit 5 ^^ b
  · exact (Nat.xor_zero _).symm
  · rfl

theorem feedback6_xor (b b' : Bool) : feedback6 (b ^^ b') = feedback6 b ^^^ feedback6 b' := by
  cases b <;> cases b' <;> rfl

/-- A bit goes into the sum of two registers as its summands go into each. -/
theorem crcBit6_xor (r r' : Nat) (b b' : Bool) :
    crcBit 6 0x03 (r ^^^ r') (b ^^ b') = crcBit 6 0x03 r b ^^^ crcBit 6 0x03 r' b' := by
  have doubled : 2 * (r ^^^ r') = 2 * r ^^^ 2 * r' := by
    simpa [Nat.shiftLeft_eq, Nat.mul_comm] using Nat.shiftLeft_xor_distrib (i := 1) (a := r) (b := r')
  simp only [crcBit6_eq, doubled, Nat.xor_mod_two_pow, Nat.testBit_xor, feedback6_xor]
  ac_rfl

/-- The code can be run backwards: only the register 0 goes on to 0 over a 0 bit. -/
theorem crcBit6_eq_zero {r : Nat} (hr : r < 2 ^ 6) (h : crcBit 6 0x03 r false = 0) : r = 0 :=
  (by decide : ∀ r < 2 ^ 6, crcBit 6 0x03 r false = 0 → r = 0) r hr h

/-! Bits of a number, most significant first. -/

theorem beBits_succ (w n : Nat) : beBits (w + 1) n = beBits w (n / 2) ++ [n.testBit 0] := by
  unfold beBits
  rw [List.range_succ, List.map_append]
  congr 1
  · refine List.map_congr_left fun i hi => ?_
    have hi := List.mem_range.1 hi
    rw [Nat.testBit_div_two, show w - 1 - i + 1 = w + 1 - 1 - i by omega]
  · simp

theorem beBits_append (a b n : Nat) : beBits (a + b) n = beBits a (n / 2 ^ b) ++ beBits b n := by
  induction b generalizing n with
  | zero => simp [beBits]
  | succ b ih => rw [← Nat.add_assoc, beBits_succ, ih, beBits_succ b, Nat.div_div_eq_div_mul, Nat.pow_succ', List.append_assoc]

theorem beBits_mod (w n : Nat) : beBits w (n % 2 ^ w) = beBits w n := by
  refine List.map_congr_left fun i hi => ?_
  have hi := List.mem_range.1 hi
  rw [Nat.testBit_mod_two_pow, decide_eq_true (by omega), Bool.true_and]

theorem beBits_length (w n : Nat) : (beBits w n).length = w := by simp [beBits]

theorem ofBits_append (bs : List Bool) (b : Bool) : ofBits (bs ++ [b]) = 2 * ofBits bs + b2n b := List.foldl_concat ..

theorem ofBits_beBits (w n : Nat) : ofBits (beBits w n) = n % 2 ^ w := by
  induction w generalizing n with
  | zero => simp [beBits, ofBits, Nat.mod_one]
  | succ w ih =>
    have low : b2n (n.testBit 0) = n % 2 := by rw [Nat.testBit_zero]; unfold b2n; split <;> simp_all
    rw [beBits_succ, ofBits_append, ih, low, Nat.pow_succ', Nat.mod_mul, Nat.add_comm]

/-- The 48 bits that DET covers, as one number: bits 25 to 0 of word `w`, then the index of `k` (R132). -/
def detMessage (k w : Nat) : Nat := w % 2 ^ 26 * 2 ^ 22 + k % 2 ^ 22

theorem detMessage_lt (k w : Nat) : detMessage k w < 2 ^ 48 := by unfold detMessage; omega

theorem detCode_eq (k w : Nat) : detCode k w = crc6 (beBits 48 (detMessage k w)) := by
  have word : detMessage k w / 2 ^ 22 = w % 2 ^ 26 := by unfold detMessage; omega
  have index : detMessage k w % 2 ^ 22 = k % 2 ^ 22 := by unfold detMessage; omega
  rw [beBits_append 26 22, word, beBits_mod, ← beBits_mod 22 (detMessage k w), index, detCode]

/-! Message and code together are a product of the generator. -/

/-- The product of the generator x^6 + x + 1 and the polynomial whose coefficients are `q`, highest first. -/
def generatorTimes (q : List Bool) : Nat := q.foldl (fun a b => (2 * a) ^^^ (if b then 0b1000011 else 0)) 0

theorem generatorTimes_append (q : List Bool) (b : Bool) :
    generatorTimes (q ++ [b]) = (2 * generatorTimes q) ^^^ (if b then 0b1000011 else 0) := List.foldl_concat ..

/-- A sum with a number of `w` bits leaves the bits above. -/
theorem mul_add_xor (m : Nat) {w y z : Nat} (hy : y < 2 ^ w) (hz : z < 2 ^ w) : (m * 2 ^ w + y) ^^^ z = m * 2 ^ w + (y ^^^ z) := by
  have pos : 0 < 2 ^ w := Nat.two_pow_pos w
  have high : ((m * 2 ^ w + y) ^^^ z) / 2 ^ w = m := by
    rw [Nat.xor_div_two_pow, Nat.div_eq_of_lt hz, Nat.xor_zero, Nat.mul_comm, Nat.mul_add_div pos, Nat.div_eq_of_lt hy, Nat.add_zero]
  have low : ((m * 2 ^ w + y) ^^^ z) % 2 ^ w = y ^^^ z := by
    rw [Nat.xor_mod_two_pow, Nat.mod_eq_of_lt hz, Nat.mul_comm, Nat.mul_add_mod, Nat.mod_eq_of_lt hy]
  rw [← Nat.div_add_mod ((m * 2 ^ w + y) ^^^ z) (2 ^ w), high, low, Nat.mul_comm]

/-- The step of the division: the bit that leaves the register is the next coefficient of the quotient. -/
theorem crcBit6_divides (m : Nat) {r : Nat} (hr : r < 2 ^ 6) (b : Bool) :
    (2 * (m * 64 + r)) ^^^ (if r.testBit 5 != b then 0b1000011 else 0) = (2 * m + b2n b) * 64 + crcBit 6 0x03 r b := by
  have digit : ∀ r < 2 ^ 6, ∀ b : Bool, (2 * r) ^^^ (if r.testBit 5 != b then 0b1000011 else 0) = b2n b * 64 + crcBit 6 0x03 r b := by
    decide
  have small : (if r.testBit 5 != b then 0b1000011 else 0) < 2 ^ 7 := by split <;> decide
  have sum := mul_add_xor m (w := 7) (y := 2 * r) (by omega) small
  rw [digit r hr b] at sum
  rw [show 2 * (m * 64 + r) = m * 2 ^ 7 + 2 * r by omega, sum]
  omega

theorem crc6_divides (bs : List Bool) : ∃ q : List Bool, q.length = bs.length ∧ ofBits bs * 64 + crc6 bs = generatorTimes q := by
  induction bs using List.reverseRecOn with
  | nil => exact ⟨[], rfl, rfl⟩
  | append_singleton bs b ih =>
    obtain ⟨q, length, product⟩ := ih
    refine ⟨q ++ [(crc6 bs).testBit 5 != b], by simp [length], ?_⟩
    rw [generatorTimes_append, ← product, crcBit6_divides _ (crc6_lt bs), ofBits_append, crc6_append]

/-- The 54 bits that belong to word `w` of index `k`: the message followed by DET (R132). -/
def detCodeword (k w : Nat) : Nat := detMessage k w * 64 + detCode k w

theorem detCodeword_lt (k w : Nat) : detCodeword k w < 2 ^ 54 := by
  have message := detMessage_lt k w
  have code := crc6_lt (beBits 48 (detMessage k w))
  rw [← detCode_eq] at code
  unfold detCodeword
  omega

theorem detCodeword_divides (k w : Nat) : ∃ q : List Bool, q.length = 48 ∧ detCodeword k w = generatorTimes q := by
  obtain ⟨q, length, product⟩ := crc6_divides (beBits 48 (detMessage k w))
  rw [ofBits_beBits, Nat.mod_eq_of_lt (detMessage_lt k w), ← detCode_eq] at product
  exact ⟨q, length.trans (beBits_length ..), product⟩

/-! The register over a whole number: it is linear, 0 over a product of the generator, and not 0 over an error that R132 names. -/

theorem crc6_beBits_succ (w n : Nat) : crc6 (beBits (w + 1) n) = crcBit 6 0x03 (crc6 (beBits w (n / 2))) (n.testBit 0) := by
  rw [beBits_succ, crc6_append]

theorem crc6_beBits_xor (w m n : Nat) : crc6 (beBits w (m ^^^ n)) = crc6 (beBits w m) ^^^ crc6 (beBits w n) := by
  induction w generalizing m n with
  | zero => simp [beBits, crc6, crcBits]
  | succ w ih => rw [crc6_beBits_succ, Nat.testBit_xor, Nat.xor_div_two, ih, crcBit6_xor, ← crc6_beBits_succ, ← crc6_beBits_succ]

theorem crc6_beBits_zero (w : Nat) : crc6 (beBits w 0) = 0 := by
  simpa using crc6_beBits_xor w 0 0

theorem crc6_beBits_double (w n : Nat) : crc6 (beBits (w + 1) (2 * n)) = crcBit 6 0x03 (crc6 (beBits w n)) false := by
  rw [crc6_beBits_succ, Nat.mul_div_cancel_left n (by decide), Nat.testBit_zero, Nat.mul_mod_right]
  rfl

/-- The generator itself leaves 0. -/
theorem crc6_beBits_generator (w : Nat) : crc6 (beBits (w + 7) 0b1000011) = 0 := by
  simp only [crc6_beBits_succ, Nat.reduceDiv, crc6_beBits_zero]
  decide

theorem crc6_generatorTimes (q : List Bool) (w : Nat) (h : q.length + 6 ≤ w) : crc6 (beBits w (generatorTimes q)) = 0 := by
  induction q using List.reverseRecOn generalizing w with
  | nil => exact crc6_beBits_zero w
  | append_singleton q b ih =>
    rw [List.length_append, List.length_singleton] at h
    obtain ⟨w, rfl⟩ : ∃ v, w = v + 7 := ⟨w - 7, by omega⟩
    have last : crc6 (beBits (w + 7) (if b then 0b1000011 else 0)) = 0 := by
      cases b
      · exact crc6_beBits_zero _
      · exact crc6_beBits_generator w
    rw [generatorTimes_append, crc6_beBits_xor, crc6_beBits_double, ih _ (by omega), last]
    rfl

/-- An error is detected wherever it begins. -/
theorem crc6_shifted_eq_zero {w n : Nat} (i : Nat) (h : crc6 (beBits (w + i) (n * 2 ^ i)) = 0) : crc6 (beBits w n) = 0 := by
  induction i with
  | zero => simpa using h
  | succ i ih =>
    rw [← Nat.add_assoc, show n * 2 ^ (i + 1) = 2 * (n * 2 ^ i) by ring, crc6_beBits_double] at h
    exact ih (crcBit6_eq_zero (crc6_lt _) h)

theorem crc6_burst_ne_zero {b : Nat} (hpos : 0 < b) (hb : b < 2 ^ 6) : crc6 (beBits 54 b) ≠ 0 :=
  (by decide +kernel : ∀ b < 2 ^ 6, 0 < b → crc6 (beBits 54 b) ≠ 0) b hb hpos

/-- The generator divides no x^d + 1 shorter than a codeword. -/
theorem crc6_pair_ne_zero {d : Nat} (hpos : 0 < d) (hd : d < 54) : crc6 (beBits 54 (1 ^^^ 2 ^ d)) ≠ 0 :=
  (by decide +kernel : ∀ d < 54, 0 < d → crc6 (beBits 54 (1 ^^^ 2 ^ d)) ≠ 0) d hd hpos

/-! What two codewords differ in. -/

section
variable {k w l v : Nat}

/-- The difference of two codewords leaves 0 in the register, however many 0 bits come before it. -/
theorem crc6_detCodeword_xor (i : Nat) : crc6 (beBits (54 + i) (detCodeword k w ^^^ detCodeword l v)) = 0 := by
  obtain ⟨q, hq, product⟩ := detCodeword_divides k w
  obtain ⟨q', hq', product'⟩ := detCodeword_divides l v
  rw [crc6_beBits_xor, product, product', crc6_generatorTimes q _ (by omega), crc6_generatorTimes q' _ (by omega)]
  rfl

theorem detCodeword_xor_ne_burst {b : Nat} (i : Nat) (hpos : 0 < b) (hb : b < 2 ^ 6) :
    detCodeword k w ^^^ detCodeword l v ≠ b * 2 ^ i := by
  intro h
  exact crc6_burst_ne_zero hpos hb (crc6_shifted_eq_zero i (h ▸ crc6_detCodeword_xor i))

theorem detCodeword_xor_ne_pair_of_lt {i j : Nat} (hij : i < j) : detCodeword k w ^^^ detCodeword l v ≠ 2 ^ i ^^^ 2 ^ j := by
  intro h
  have inside : j < 54 := by
    by_contra hj
    have high : (detCodeword k w ^^^ detCodeword l v).testBit j = false :=
      Nat.testBit_lt_two_pow (Nat.lt_of_lt_of_le (Nat.xor_lt_two_pow (detCodeword_lt k w) (detCodeword_lt l v))
        (Nat.pow_le_pow_right (by decide) (by omega)))
    simp [h, Nat.testBit_xor, hij.ne] at high
  have shifted : 2 ^ i ^^^ 2 ^ j = (1 ^^^ 2 ^ (j - i)) * 2 ^ i := by
    rw [← Nat.shiftLeft_eq, Nat.shiftLeft_xor_distrib, Nat.shiftLeft_eq, Nat.shiftLeft_eq, Nat.one_mul, ← Nat.pow_add,
      Nat.sub_add_cancel hij.le]
  exact crc6_pair_ne_zero (d := j - i) (by omega) (by omega) (crc6_shifted_eq_zero i (shifted ▸ h ▸ crc6_detCodeword_xor i))

theorem detCodeword_xor_ne_pair {i j : Nat} (hij : i ≠ j) : detCodeword k w ^^^ detCodeword l v ≠ 2 ^ i ^^^ 2 ^ j := by
  rcases Nat.lt_or_gt_of_ne hij with h | h
  · exact detCodeword_xor_ne_pair_of_lt h
  · rw [Nat.xor_comm (2 ^ i)]
    exact detCodeword_xor_ne_pair_of_lt h

end

/-- Settles O60: message and code divide by the generator, and no error of R132 does. -/
theorem detCatchesErrors : Obligations.DetCatchesErrors := by
  refine ⟨fun k w => ⟨?code, detCodeword_divides k w⟩,
    fun k w l v => ⟨fun i => ?one, fun i j hij => ?two, fun b i hpos hb => ?burst⟩⟩
  case code => rw [detCode_eq]; exact crc6_lt _
  case one => exact fun h => detCodeword_xor_ne_burst i Nat.one_pos (by decide) (h.trans (Nat.one_mul _).symm)
  case two => exact detCodeword_xor_ne_pair hij
  case burst => exact detCodeword_xor_ne_burst i hpos hb

end Sys2Proof.Machine

/-! Pushed requests and request lists (R129, R287, R296, R370 to R372). -/
namespace Sys2Proof.Machine
open Sys2Proof

variable {s : State}

/-! A request pushed. -/

/-- REQ_HI holds nothing that opens the compiler. -/
theorem compilerOpen_wr_reqHi (v : Nat) : (s.wr R.MAPC_REQ_HI_WORD v).compilerOpen = s.compilerOpen := by
  have ready : (s.wr R.MAPC_REQ_HI_WORD v).on R.MAPC_STAT_READY = s.on R.MAPC_STAT_READY := s.on_wr_ne v (by decide)
  have mode : (s.wr R.MAPC_REQ_HI_WORD v).mode = s.mode := s.rd_wr_ne v (by decide)
  rw [State.compilerOpen, State.hostDecides, ready, mode]
  rfl

theorem listBusy_wr_reqHi (v : Nat) : (s.wr R.MAPC_REQ_HI_WORD v).on R.MAPC_STAT_LIST_BUSY = s.on R.MAPC_STAT_LIST_BUSY :=
  s.on_wr_ne v (by decide)

theorem reqLo_wr_reqHi (v : Nat) : (s.wr R.MAPC_REQ_HI_WORD v).rd R.MAPC_REQ_LO_WORD = s.rd R.MAPC_REQ_LO_WORD :=
  s.rd_wr_ne v (by decide)

theorem reqPush_refused (hi : Nat) (h : s.compilerOpen = false ∨ s.on R.MAPC_STAT_LIST_BUSY = true) :
    s.reqPush hi = (s.wr R.MAPC_REQ_HI_WORD hi).mapRefused := by
  refine if_pos ?_
  rw [compilerOpen_wr_reqHi, listBusy_wr_reqHi]
  rcases h with h | h <;> simp [h]

section
variable (ho : s.compilerOpen = true) (hb : s.on R.MAPC_STAT_LIST_BUSY = false)
include ho hb

/-- What a write of REQ_HI does to a compiler that takes it goes by the room in the queue. -/
theorem reqPush_taken (hi : Nat) : s.reqPush hi =
    let u := s.wr R.MAPC_REQ_HI_WORD hi
    if 256 ≤ s.pushFill then (u.wr R.MAPC_REJ_INFO_OVERRUN 1).raise .mapc 0 1
    else (u.submit (BitVec.ofNat 64 (hi % 2 ^ 32 * 2 ^ 32 + s.rd R.MAPC_REQ_LO_WORD)) false false).queueMark := by
  rw [← reqLo_wr_reqHi hi]
  refine if_neg ?_
  rw [compilerOpen_wr_reqHi, listBusy_wr_reqHi, ho, hb]
  decide

theorem reqPush_overrun (hi : Nat) (hf : 256 ≤ s.pushFill) :
    s.reqPush hi = ((s.wr R.MAPC_REQ_HI_WORD hi).wr R.MAPC_REJ_INFO_OVERRUN 1).raise .mapc 0 1 :=
  (reqPush_taken ho hb hi).trans (if_pos hf)

theorem reqPush_submits (hi : W32) (hf : s.pushFill < 256) : s.reqPush hi.toNat =
    ((s.wr R.MAPC_REQ_HI_WORD hi.toNat).submit (BitVec.ofNat 64 (hi.toNat * 2 ^ 32 + s.rd R.MAPC_REQ_LO_WORD)) false false).queueMark := by
  rw [reqPush_taken ho hb, Nat.mod_eq_of_lt hi.isLt]
  exact if_neg (Nat.not_le.2 hf)
end

/-! A list started and aborted. -/

theorem listStart_refused (h : s.compilerOpen = false ∨ s.on R.MAPC_STAT_LIST_BUSY = true ∨ s.pushFill ≠ 0 ∨
    s.rd R.MAPC_LIST_LEN_LEN = 0) : s.listStart = s.mapRefused := by
  refine if_pos ?_
  rcases h with h | h | h | h <;> simp [h]

/-- A start that is allowed, without enforcement: the list is read request by request, and no copy of it is made. -/
theorem listStart_unenforced (ho : s.compilerOpen = true) (hb : s.on R.MAPC_STAT_LIST_BUSY = false) (hf : s.pushFill = 0)
    (hn : s.rd R.MAPC_LIST_LEN_LEN ≠ 0) (he : s.enforced = false) :
    s.listStart = { (s.wr R.MAPC_STAT_LIST_BUSY 1).wr R.MAPC_LIST_DONE_DONE 0 with
      mc := { s.mc with fetched := 0, stopping := false, buf := [], tag := [], checking := false, listAuth := true } } := by
  have free : ((s.wr R.MAPC_STAT_LIST_BUSY 1).wr R.MAPC_LIST_DONE_DONE 0).enforced = false :=
    ((State.on_wr_ne _ 0 (by decide)).trans (State.on_wr_ne _ 1 (by decide))).trans he
  exact (if_neg (by simp [ho, hb, hf, hn, he])).trans (if_pos (congrArg not free))

/-! The check of a copied list. -/

/-- The commits that waited for the check are checked in the order they were written (R371). -/
def State.checkAsks (s : State) : State := s.mc.asks.foldl State.commitAsk { s with mc := { s.mc with asks := [] } }

theorem exec_listTagCheckDone (h : s.mc.checking = true) : exec .listTagCheckDone s = .next s.start.listChecked.checkAsks :=
  if_neg (by simp [h])

theorem listChecked_notCopied (h : s.mc.buf = []) :
    s.listChecked = (s.rejectAll (List.replicate (s.rd R.MAPC_LIST_LEN_LEN) 0) 7).listEnd := if_pos (by simp [h])

/-- The check of the tag of a copied list: the state after it, and whether the tag is right (R372). -/
def State.listTag (s : State) : State × Bool :=
  s.checkTag (tagHeader 0x4C 0 s.authSeq s.mc.buf.length) (s.mc.buf.flatMap (fun w => leBytes 8 w.toNat)) s.mc.tag

section
variable (hb : s.mc.buf ≠ [])
include hb

theorem listChecked_tagRight (ht : s.listTag.2 = true) :
    s.listChecked = { s.listTag.1 with mc := { s.listTag.1.mc with checking := false } } :=
  (if_neg (by simpa using hb)).trans (if_pos ht)

theorem listChecked_tagWrong (ht : s.listTag.2 = false) : s.listChecked =
    ((s.listTag.1.rejectAll (s.mc.buf.map (fun w => w.toNat)) 5).wr R.MAPC_LIST_DONE_DONE s.mc.buf.length).listEnd :=
  (if_neg (by simpa using hb)).trans (if_neg (ne_true_of_eq_false ht))
end

/-! The next request of a list. -/

section
variable (hd : s.fetchDue = true)
include hd

theorem exec_listRequestFetch_buffer {w : W64} (hw : s.mc.buf[s.mc.fetched]? = some w) : exec .listRequestFetch s =
    .next ({ s.start with mc := { s.mc with fetched := s.mc.fetched + 1 } }.submit w s.mc.listAuth true) := by
  refine (if_neg (by simp [hd])).trans ?_
  simp only [State.start_mc, hw]
  rfl

/-- A request that the buffer does not hold is read from memory, and an error response ends the list (R129). -/
theorem exec_listRequestFetch_memory (hw : s.mc.buf[s.mc.fetched]? = none) : exec .listRequestFetch s =
    let r := s.start.listRead (s.rd R.MAPC_LIST_ADDR_ADDR * 8 + 8 * s.mc.fetched) 8
    if r.cause = 0 then
      .next ({ r.s with mc := { r.s.mc with fetched := s.mc.fetched + 1 } }.submit (BitVec.ofNat 64 (ofLe r.data)) false true)
    else .next (r.s.reject 0 7).listEnd := by
  refine (if_neg (by simp [hd])).trans ?_
  simp only [State.start_mc, hw]
  rfl
end

/-- Settles O13: a push and a start by what the compiler takes, the check by what was copied, the fetch by where the request lies. -/
theorem pushesAndLists : Obligations.PushesAndLists := by
  refine ⟨fun s hs => ?host, fun s => ⟨fun hc hb => ?notCopied, fun hc hb => ⟨fun ht => ?tagRight, fun ht => ?tagWrong⟩,
      fun w hd hw => exec_listRequestFetch_buffer hd hw, fun hd hw => ⟨fun hr => ?read, fun hr => ?error⟩⟩⟩
  case host =>
    have push (hi : W32) : exec (.reqPush hi) s = .next (s.start.reqPush hi.toNat) := State.onPage_served (f := (·.reqPush hi.toNat)) hs
    have start : exec .listStart s = .next s.start.listStart := State.onPage_served (f := State.listStart) hs
    have abort : exec .listAbort s = .next s.start.listAbort := State.onPage_served (f := State.listAbort) hs
    refine ⟨fun hi => ⟨fun h => ?refused, fun ho hb hf => ?overrun, fun ho hb hf => ?submitted⟩, fun h => ?noStart,
      fun ho hb hf hn he => ?starts, fun hb => ?aborts, fun hb => ?idle⟩
    case refused => rw [push, reqPush_refused (s := s.start) _ h]
    case overrun => rw [push, reqPush_overrun (s := s.start) ho hb _ hf]
    case submitted => rw [push, reqPush_submits (s := s.start) ho hb hi hf]; rfl
    case noStart => rw [start, listStart_refused (s := s.start) h]
    case starts => rw [start, listStart_unenforced (s := s.start) ho hb hf hn he]; rfl
    case aborts => exact abort.trans (congrArg _ (if_pos hb))
    case idle => exact abort.trans (congrArg _ (if_neg (ne_true_of_eq_false hb)))
  case notCopied => rw [exec_listTagCheckDone hc, listChecked_notCopied (s := s.start) hb]; rfl
  case tagRight => rw [exec_listTagCheckDone hc, listChecked_tagRight (s := s.start) hb ht]; rfl
  case tagWrong => rw [exec_listTagCheckDone hc, listChecked_tagWrong (s := s.start) hb ht]; rfl
  case read => exact (exec_listRequestFetch_memory hd hw).trans (if_pos hr)
  case error => exact (exec_listRequestFetch_memory hd hw).trans (if_neg hr)

end Sys2Proof.Machine

/-! The request at the head of the map compiler (R119, R123 to R127, R154 to R156). -/
namespace Sys2Proof.Machine
open Sys2Proof

variable {s : State} {w : Nat}

/-! A head that is well formed, authorised and of the step's own OP is taken with the step's effect. -/

section
variable {r : Req} {rest : List Req} {f : Nat → Effect} (hq : s.mc.queue = r :: rest) (ht : s.mayTake r = true)
  (hc : commonReason r s.enforced = 0)
include hq ht hc

theorem takeRequest_rejects {c : Nat} (hf : f r.word.toNat = .reject c) :
    s.takeRequest (rqOp r.word.toNat) f = ((s.reject r.word.toNat c).dequeue r).queueMark := by
  simp [State.takeRequest, hq, ht, hc, hf]

theorem takeRequest_completes {b : Bank} {placed released : Nat} (hf : f r.word.toNat = .done b placed released) :
    s.takeRequest (rqOp r.word.toNat) f = ((s.accept b placed released).dequeue r).queueMark := by
  simp [State.takeRequest, hq, ht, hc, hf]
end

/-! The effect of CONNECT (R119, R123, R124, R126, R127). -/

theorem connect_voidOutput (h : s.void (rqOut w) = true) : s.connect w = .reject 2 := if_pos h

section
variable (ho : s.void (rqOut w) = false)
include ho

theorem connect_voidSource (h : s.void (rqIn w) = true) : s.connect w = .reject 3 :=
  (if_neg (ne_true_of_eq_false ho)).trans (if_pos h)

variable (hi : s.void (rqIn w) = false)
include hi

theorem connect_present (h : s.mc.edit.source (rqOut w) (rqProt w) = .drawer (rqIn w)) : s.connect w = .done s.mc.edit 0 0 :=
  (if_neg (ne_true_of_eq_false ho)).trans ((if_neg (ne_true_of_eq_false hi)).trans (if_pos h))

/-- A source that the output does not have yet: the old route is released before a route is looked for. -/
theorem connect_changes (h : s.mc.edit.source (rqOut w) (rqProt w) ≠ .drawer (rqIn w)) :
    let u := setOut s.mc.edit (rqOut w) (rqProt w) unequippedWord
    (∀ t, u.1.routeOf (rqIn w) (portOf (rqOut w)) = some t →
      s.connect w = .done (u.1.put (outKey (rqOut w) (rqProt w)) (routeWord t)) 0 u.2) ∧
    (u.1.routeOf (rqIn w) (portOf (rqOut w)) = none →
      (∀ b t, u.1.place s.allowedGroups (rqIn w) (portOf (rqOut w)) = some (b, t) →
        s.connect w = .done (b.put (outKey (rqOut w) (rqProt w)) (routeWord t)) 1 u.2) ∧
      (u.1.place s.allowedGroups (rqIn w) (portOf (rqOut w)) = none → s.connect w = .reject 4)) := by
  refine ⟨fun t hr => ?shared, fun hr => ⟨fun b t hp => ?placed, fun hp => ?blocked⟩⟩
  case shared => simp [State.connect, ho, hi, h, hr]
  case placed => simp [State.connect, ho, hi, h, hr, hp]
  case blocked => simp [State.connect, ho, hi, h, hr, hp]
end

/-! UNEQ and AIS (R126). -/

theorem setPlain_voidOutput (new : Nat) (h : s.void (rqOut w) = true) : s.setPlain new w = .reject 2 := if_pos h

theorem setPlain_writes (new : Nat) (h : s.void (rqOut w) = false) : s.setPlain new w =
    .done (setOut s.mc.edit (rqOut w) (rqProt w) new).1 0 (setOut s.mc.edit (rqOut w) (rqProt w) new).2 :=
  if_neg (ne_true_of_eq_false h)

/-- Settles O14: what the head does goes by the effect of its OP. -/
theorem drawerRequests : Obligations.DrawerRequests := by
  intro s r rest hq ht hc w a src rej acc u
  have rejects {f : Nat → Effect} {c : Nat} (hf : f w = .reject c) :
      ok (s.start.takeRequest (rqOp w) f) = .next ((s.start.reject w c).dequeue r).queueMark :=
    congrArg ok (takeRequest_rejects (s := s.start) hq ht hc hf)
  have completes {f : Nat → Effect} {b : Bank} {p q : Nat} (hf : f w = .done b p q) :
      ok (s.start.takeRequest (rqOp w) f) = .next ((s.start.accept b p q).dequeue r).queueMark :=
    congrArg ok (takeRequest_completes (s := s.start) hq ht hc hf)
  refine ⟨fun hop => ?connect, fun hop => ?uneq, fun hop => ?ais⟩
  case connect =>
    have step : exec .mapConnect s = ok (s.start.takeRequest (rqOp w) s.connect) := by rw [hop]; rfl
    refine ⟨fun ho => step.trans (rejects (connect_voidOutput ho)), fun ho hi => step.trans (rejects (connect_voidSource ho hi)),
      fun ho hi h => step.trans (completes (connect_present ho hi h)), fun ho hi h => ?_⟩
    obtain ⟨shared, unshared⟩ := connect_changes ho hi h
    refine ⟨fun t hr => step.trans (completes (shared t hr)), fun hr => ?_⟩
    obtain ⟨placed, blocked⟩ := unshared hr
    exact ⟨fun b t hp => step.trans (completes (placed b t hp)), fun hp => step.trans (rejects (blocked hp))⟩
  case uneq =>
    have step : exec .mapUneq s = ok (s.start.takeRequest (rqOp w) (s.setPlain unequippedWord)) := by rw [hop]; rfl
    exact ⟨fun ho => step.trans (rejects (setPlain_voidOutput _ ho)), fun ho => step.trans (completes (setPlain_writes _ ho))⟩
  case ais =>
    have step : exec .mapAis s = ok (s.start.takeRequest (rqOp w) (s.setPlain aisWord)) := by rw [hop]; rfl
    exact ⟨fun ho => step.trans (rejects (setPlain_voidOutput _ ho)), fun ho => step.trans (completes (setPlain_writes _ ho))⟩

/-! The effects of SLOT, CONST, PARTY and HEAR (R126, R127, R154 to R156). -/

theorem slotReq_voidOutput (h : s.quarterOn (slotQuarter (rqSlotOut w)) = false) : s.slotReq w = .reject 2 := if_pos (by simp [h])

theorem slotReq_voidSource (ho : s.quarterOn (slotQuarter (rqSlotOut w)) = true) (hi : s.quarterOn (slotQuarter (rqSlotIn w)) = false) :
    s.slotReq w = .reject 3 := by simp [State.slotReq, ho, hi]

theorem slotReq_writes (ho : s.quarterOn (slotQuarter (rqSlotOut w)) = true) (hi : s.quarterOn (slotQuarter (rqSlotIn w)) = true) :
    s.slotReq w = .done (s.mc.edit.put (slotKey (rqSlotOut w)) (slotWord (rqProt w) (rqSlotIn w))) 0 0 := by
  simp [State.slotReq, ho, hi]

theorem constReq_voidOutput (h : s.quarterOn (slotQuarter (rqSlotOut w)) = false) : s.constReq w = .reject 2 := if_pos (by simp [h])

theorem constReq_writes (h : s.quarterOn (slotQuarter (rqSlotOut w)) = true) :
    s.constReq w = .done (s.mc.edit.put (slotKey (rqSlotOut w)) (constWord w)) 0 0 := if_neg (by simp [h])

theorem hearReq_void (h : s.quarterOn (slotQuarter (rqSlotOut w)) = false ∨ s.quarterOn (bridgeQuarter (rqLegBridge w)) = false) :
    s.hearReq w = .reject 2 := if_pos (by simpa using h)

theorem hearReq_writes (ho : s.quarterOn (slotQuarter (rqSlotOut w)) = true)
    (hb : s.quarterOn (bridgeQuarter (rqLegBridge w)) = true) : s.hearReq w =
      .done (s.mc.edit.put (slotKey (rqSlotOut w)) (legWord (rqProt w) (rqLegBridge w) (rqLegParty w))) 0 0 := if_neg (by simp [ho, hb])

/-- PARTY reads its source: a party that joins and is not muted. -/
def partyReads (w : Nat) : Prop := rqJoin w = true ∧ rqMute w = false

/-- PARTY adds a joined party to its quarter. -/
def State.partyJoins (s : State) (w : Nat) : Prop :=
  rqJoin w = true ∧ wJoined (s.mc.edit.word (partyKey (rqBridge w) (rqParty w))) = false

theorem partyReq_voidBridge (h : s.quarterOn (bridgeQuarter (rqBridge w)) = false) : s.partyReq w = .reject 2 := if_pos (by simp [h])

section
variable (hq : s.quarterOn (bridgeQuarter (rqBridge w)) = true)
include hq

theorem partyReq_voidSource (hn : partyReads w) (hi : s.quarterOn (slotQuarter (rqSlotIn w)) = false) : s.partyReq w = .reject 3 := by
  obtain ⟨join, mute⟩ := hn
  simp [State.partyReq, hq, join, mute, hi]

variable (hi : ¬ partyReads w ∨ s.quarterOn (slotQuarter (rqSlotIn w)) = true)
include hi

/-- A party whose source is there, or is not read, goes by the count of joined parties. -/
theorem partyReq_sourced : s.partyReq w =
    if (rqJoin w && !wJoined (s.mc.edit.word (partyKey (rqBridge w) (rqParty w)))) &&
      decide (16384 ≤ s.mc.edit.joined (bridgeQuarter (rqBridge w))) then .reject 6
    else .done (s.mc.edit.put (partyKey (rqBridge w) (rqParty w)) (partyWord (rqJoin w) (rqMute w) (rqProt w) (rqSlotIn w))) 0 0 := by
  have sourced : ¬ (rqJoin w && !rqMute w && !s.quarterOn (slotQuarter (rqSlotIn w))) = true := by
    rcases hi with h | h
    · rw [partyReads] at h; simp_all
    · simp [h]
  exact (if_neg (by simp [hq])).trans (if_neg sourced)

theorem partyReq_full (hj : s.partyJoins w) (hf : 16384 ≤ s.mc.edit.joined (bridgeQuarter (rqBridge w))) : s.partyReq w = .reject 6 := by
  obtain ⟨join, absent⟩ := hj
  exact (partyReq_sourced hq hi).trans (if_pos (by simp [join, absent, hf]))

theorem partyReq_writes (h : ¬ s.partyJoins w ∨ s.mc.edit.joined (bridgeQuarter (rqBridge w)) < 16384) : s.partyReq w =
    .done (s.mc.edit.put (partyKey (rqBridge w) (rqParty w)) (partyWord (rqJoin w) (rqMute w) (rqProt w) (rqSlotIn w))) 0 0 := by
  refine (partyReq_sourced hq hi).trans (if_neg ?_)
  rcases h with h | h
  · rw [State.partyJoins] at h; simp_all
  · simp [h]
end

/-- Settles O15: what the head does goes by the effect of its OP. -/
theorem slotRequests : Obligations.SlotRequests := by
  intro s r rest hq ht hc w rej acc so si
  have rejects {f : Nat → Effect} {c : Nat} (hf : f w = .reject c) : ok (s.start.takeRequest (rqOp w) f) = rej c :=
    congrArg ok (takeRequest_rejects (s := s.start) hq ht hc hf)
  have writes {f : Nat → Effect} {b : Bank} (hf : f w = .done b 0 0) : ok (s.start.takeRequest (rqOp w) f) = acc b :=
    congrArg ok (takeRequest_completes (s := s.start) hq ht hc hf)
  refine ⟨fun hop => ?slot, fun hop => ?const, fun hop => ?party, fun hop => ?hear⟩
  case slot =>
    have step : exec .slot s = ok (s.start.takeRequest (rqOp w) s.slotReq) := by rw [hop]; rfl
    exact ⟨fun ho => step.trans (rejects (slotReq_voidOutput ho)), fun ho hi => step.trans (rejects (slotReq_voidSource ho hi)),
      fun ho hi => step.trans (writes (slotReq_writes ho hi))⟩
  case const =>
    have step : exec .const s = ok (s.start.takeRequest (rqOp w) s.constReq) := by rw [hop]; rfl
    exact ⟨fun ho => step.trans (rejects (constReq_voidOutput ho)), fun ho => step.trans (writes (constReq_writes ho))⟩
  case party =>
    have step : exec .party s = ok (s.start.takeRequest (rqOp w) s.partyReq) := by rw [hop]; rfl
    exact ⟨fun hb => step.trans (rejects (partyReq_voidBridge hb)), fun hb hn hi => step.trans (rejects (partyReq_voidSource hb hn hi)),
      fun hb hi hj hf => step.trans (rejects (partyReq_full hb hi hj hf)),
      fun hb hi hf => step.trans (writes (partyReq_writes hb hi hf))⟩
  case hear =>
    have step : exec .hear s = ok (s.start.takeRequest (rqOp w) s.hearReq) := by rw [hop]; rfl
    exact ⟨fun h => step.trans (rejects (hearReq_void h)), fun ho hb => step.trans (writes (hearReq_writes ho hb))⟩

end Sys2Proof.Machine

/-! What keeps the connection memories: PLANE_EN, initialisation, repairs, bursts and the end of a catch-up (R134, R136, R167, R173,
R177, R179, R180, R183, R211; log entry 43 for routes re-placed after the catch-up). -/
namespace Sys2Proof.Machine
open Sys2Proof

variable {s : State}

/-! PLANE_EN. `v` is what is written, and the groups that it removes are those of the old value that it lacks. -/

section
variable {v : Nat}

theorem planeEnWrite_removesNone (h : andNot 8 (s.rd R.MAPC_CTL_PLANE_EN) v = 0) : s.planeEnWrite v = s.wr R.MAPC_CTL_PLANE_EN v := if_pos h

theorem planeEnWrite_held (h : andNot 8 (s.rd R.MAPC_CTL_PLANE_EN) v ≠ 0) (hh : (s.wr R.MAPC_CTL_PLANE_EN v).editHeld = true) :
    s.planeEnWrite v = { s.wr R.MAPC_CTL_PLANE_EN v with
      mc := { s.mc with placeDue := s.mc.placeDue ||| andNot 8 (s.rd R.MAPC_CTL_PLANE_EN) v } } := (if_neg h).trans (if_pos hh)

theorem planeEnWrite_replaces (h : andNot 8 (s.rd R.MAPC_CTL_PLANE_EN) v ≠ 0) (hh : (s.wr R.MAPC_CTL_PLANE_EN v).editHeld = false) :
    s.planeEnWrite v = (s.wr R.MAPC_CTL_PLANE_EN v).replaceGroups (andNot 8 (s.rd R.MAPC_CTL_PLANE_EN) v) :=
  (if_neg h).trans (if_neg (ne_true_of_eq_false hh))
end

/-! The end of initialisation. -/

theorem exec_mapInitDone_ready (hf : s.fabricOn = true) (hi : s.mc.inited = false) (hp : s.pow.phase = .running) :
    exec .mapInitDone s = .next s.start.mapInit.readyChk := if_pos (by simp [hf, hi, hp])

theorem exec_mapInitDone_idle (h : s.fabricOn = false ∨ s.mc.inited = true ∨ s.pow.phase ≠ .running) :
    exec .mapInitDone s = .next s.start := by
  refine if_neg ?_
  rcases h with h | h | h <;> simp [h]

/-! Words that failed their code, and centres that were lost. -/

section
variable {w : WordRef} (altered : List (Nat × List Byte))

theorem exec_wordRecompute_failed (he : wordExists (w.fabric == .slot) w.index.toNat = true) (hi : s.mc.inited = true)
    (hb : (mget? (s.bank w.edit).bad (refKey w)).isSome = true) :
    exec (.wordRecompute w altered) s = .next ((s.start.upset altered).rebuild w.edit (refKey w)) :=
  if_neg (by simp [he, hi, Option.isSome_iff_ne_none.1 hb])

theorem exec_wordRecompute_sound (h : wordExists (w.fabric == .slot) w.index.toNat = false ∨ s.mc.inited = false ∨
    mget? (s.bank w.edit).bad (refKey w) = none) : exec (.wordRecompute w altered) s = .next s.start := by
  refine if_pos ?_
  rcases h with h | h | h <;> simp [h]
end

theorem exec_centreLossSweep_none (h : s.mc.sweeps = []) : exec .centreLossSweep s = .next s.start := by
  change execCentreLossSweep s = _
  simp only [execCentreLossSweep, State.start_mc, h]
  rfl

/-- The oldest loss is swept, and only then forgotten. -/
theorem exec_centreLossSweep_oldest {edit : Bool} {t : Nat} {r : List (Bool × Nat)} (h : s.mc.sweeps = (edit, t) :: r) :
    exec .centreLossSweep s = .next { s.start.sweepSlot edit t with mc := { (s.start.sweepSlot edit t).mc with sweeps := r } } := by
  change execCentreLossSweep s = _
  simp only [execCentreLossSweep, State.start_mc, h]
  rfl

/-! Bursts of the images. -/

/-- Burst `burst` of a fabric's part of an image, counted over the image; none where the part has no such burst (R178, R211). -/
def fabricBurst (f : Fabric) (burst : Nat) : Nat :=
  match f with
  | .drawer => if burst < 153600 then burst else imageBursts
  | .slot => 153600 + burst

theorem exec_routeBurstWrite (f : Fabric) (edit : Bool) (burst : Nat) : exec (.routeBurstWrite f edit burst) s =
    if s.dramReady && s.mc.inited && s.oldestDirty edit (fabricBurst f burst) then .next (s.start.routeWrite edit (fabricBurst f burst))
    else .next s.start := by
  cases f <;> rfl

/-- Settles O19: each step by where it applies. -/
theorem fabricMaintenance : Obligations.FabricMaintenance := by
  intro s
  have planeEn (v : BitVec 8) (hs : s.served .mapc 0 = true) : exec (.planeEnWrite v) s = .next (s.start.planeEnWrite v.toNat) :=
    State.onPage_served (f := (·.planeEnWrite v.toNat)) hs
  refine ⟨fun v hs => ⟨fun h => ?keeps, fun h hh => ?held, fun h hh => ?replaces⟩,
    ⟨exec_mapInitDone_ready, exec_mapInitDone_idle⟩,
    fun w altered => ⟨exec_wordRecompute_failed altered, exec_wordRecompute_sound altered⟩,
    exec_centreLossSweep_none, fun edit t r h => exec_centreLossSweep_oldest h, ?bursts,
    fun h => if_pos h, fun h => if_neg (ne_true_of_eq_false h)⟩
  case keeps => rw [planeEn v hs, planeEnWrite_removesNone (s := s.start) h]
  case held => rw [planeEn v hs, planeEnWrite_held (s := s.start) h hh]; rfl
  case replaces => rw [planeEn v hs, planeEnWrite_replaces (s := s.start) h hh]; rfl
  case bursts =>
    intro f edit burst x
    have place : x = fabricBurst f burst := by cases f <;> rfl
    rw [exec_routeBurstWrite, ← place]
    refine ⟨fun hd hi ho => if_pos (by simp [hd, hi, ho]), fun h => if_neg ?_⟩
    rcases h with h | h | h <;> simp [h]

end Sys2Proof.Machine

/-! Commits asked for (R164 to R166, R168, R170, R172, R287, R296, R370, R371). -/
namespace Sys2Proof.Machine
open Sys2Proof

variable {s : State}

/-! What a write of COMMIT_CTL asks for, and when that is checked. -/

/-- Value `v` of COMMIT_CTL asks for a commit or for a cancellation, and for no scan. -/
def asksCommit (v : Nat) : Bool := (v.testBit 0 || v.testBit 1 || v.testBit 2) && !(v.testBit 4 || v.testBit 5)

/-- NOW, ARM, DROP_LATE and CANCEL of `v`, as an `Ask` orders them. -/
def askedBits (v : Nat) : Nat := v % 4 + 4 * b2n (v.testBit 3) + 8 * b2n (v.testBit 2)

/-- An `Ask` with control bits `ctl`, and COMMIT_EPOCH and COMMIT_TAG as they stand. -/
def State.askOf (s : State) (ctl : Nat) : Ask :=
  { ctl := ctl, epoch := s.rd R.MAPC_COMMIT_EPOCH_EPOCH, tag := s.tagBytes R.MAPC_COMMIT_TAG_TAG }

section
variable {v : Nat} (ha : asksCommit v = true)
include ha

theorem commitCtlWrite_asks : s.commitCtlWrite v = (s.wr R.MAPC_COMMIT_CTL_DROP_LATE (v / 8)).commitWrite v := by
  obtain ⟨asks, noScan⟩ := Bool.and_eq_true_iff.1 ha
  refine (if_neg (by simpa using noScan)).trans ?_
  exact if_pos asks

theorem commitCtlWrite_checking (hc : s.mc.checking = true) :
    let u := s.wr R.MAPC_COMMIT_CTL_DROP_LATE (v / 8)
    s.commitCtlWrite v = { u.clearWords R.MAPC_COMMIT_TAG_TAG 4 with mc := { s.mc with asks := s.mc.asks ++ [u.askOf (askedBits v)] } } :=
  (commitCtlWrite_asks ha).trans (if_pos hc)

theorem commitCtlWrite_unchecked (hc : s.mc.checking = false) :
    let u := s.wr R.MAPC_COMMIT_CTL_DROP_LATE (v / 8)
    s.commitCtlWrite v = (u.clearWords R.MAPC_COMMIT_TAG_TAG 4).commitAsk (u.askOf (askedBits v)) :=
  (commitCtlWrite_asks ha).trans (if_neg (ne_true_of_eq_false hc))
end

/-! A commit or a cancellation whose turn has come. -/

/-- Control bits of an `Ask` for one commit: NOW or ARM, not both, and no CANCEL. -/
def bitsCommit (ctl : Nat) : Bool := (ctl.testBit 0 ^^ ctl.testBit 1) && !ctl.testBit 3

theorem bitsCommit_parts {ctl : Nat} (h : bitsCommit ctl = true) :
    (ctl.testBit 0 || ctl.testBit 1) = true ∧ (ctl.testBit 0 && ctl.testBit 1) = false ∧ ctl.testBit 3 = false :=
  (by decide : ∀ now arm cancel : Bool, ((now ^^ arm) && !cancel) = true →
    (now || arm) = true ∧ (now && arm) = false ∧ cancel = false) _ _ _ h

/-- What such bits ask for: a commit at the next hinge, or one at the hinge of `epoch`. -/
def bitsKind (ctl epoch : Nat) : CommitKind := if ctl.testBit 0 then .now else .arm epoch (ctl.testBit 2)

/-- Control bits of an `Ask` for a cancellation and no commit. -/
def bitsCancel (ctl : Nat) : Bool := !(ctl.testBit 0 || ctl.testBit 1) && ctl.testBit 3

section
variable {a : Ask}

theorem commitAsk_tagWrong (ht : (s.commitTag a).2 = false) :
    s.commitAsk a = ((s.commitTag a).1.wr R.MAPC_COMMIT_STAT_AUTH_FAIL 1).commitRefused := if_pos (by simp [ht])

theorem commitAsk_commit (ht : (s.commitTag a).2 = true) (hn : bitsCommit a.ctl = true) :
    s.commitAsk a = (s.commitTag a).1.commitNew a := by
  obtain ⟨commit, -, noCancel⟩ := bitsCommit_parts hn
  simp only [State.commitAsk, ht, commit, noCancel]
  rfl

theorem commitAsk_cancel (ht : (s.commitTag a).2 = true) (hc : bitsCancel a.ctl = true) : s.commitAsk a = (s.commitTag a).1.cancelAsk := by
  obtain ⟨noCommit, cancel⟩ := Bool.and_eq_true_iff.1 hc
  simp only [State.commitAsk, ht, Bool.not_eq_eq_eq_not.1 noCommit, Bool.not_true, cancel]
  rfl

theorem commitNew_refused (h : s.compilerOpen = false ∨ s.mc.commit.isSome = true) : s.commitNew a = s.commitRefused := by
  refine if_pos ?_
  rcases h with h | h <;> simp [h]

theorem mode_commitPend (kind : CommitKind) (held : Bool) : (s.commitPend kind held).mode = s.mode :=
  State.rd_wr_ne (s := { s with mc := _ }) _ (by decide)

section
variable (hn : bitsCommit a.ctl = true) (ho : s.compilerOpen = true) (hc : s.mc.commit = none)
include hn ho hc

/-- A commit that is not refused becomes pending, and in PRIMARY also waits for its RELEASE (R164, R296). -/
theorem commitNew_accepted : s.commitNew a =
    let u := s.commitPend (bitsKind a.ctl a.epoch) (s.mode == mPRIMARY)
    if s.mode = mPRIMARY then u.commitHold (a.ctl.testBit 0) (a.ctl.testBit 1) (a.ctl.testBit 2) false a.epoch else u := by
  obtain ⟨-, notBoth, -⟩ := bitsCommit_parts hn
  have accepted : ¬ ((a.ctl.testBit 0 && a.ctl.testBit 1) || !s.compilerOpen || s.mc.commit.isSome) = true := by
    rw [notBoth, ho, hc]
    decide
  refine (if_neg accepted).trans ?_
  change (if (s.commitPend (bitsKind a.ctl a.epoch) (s.mode == mPRIMARY)).mode = mPRIMARY then _ else _) = _
  rw [mode_commitPend]
  rfl

theorem commitNew_pends (hm : s.mode ≠ mPRIMARY) : s.commitNew a = s.commitPend (bitsKind a.ctl a.epoch) false := by
  rw [commitNew_accepted hn ho hc, beq_eq_false_iff_ne.2 hm]
  exact if_neg hm

theorem commitNew_holds (hm : s.mode = mPRIMARY) : s.commitNew a =
    (s.commitPend (bitsKind a.ctl a.epoch) true).commitHold (a.ctl.testBit 0) (a.ctl.testBit 1) (a.ctl.testBit 2) false a.epoch := by
  rw [commitNew_accepted hn ho hc, beq_iff_eq.2 hm]
  exact if_pos hm
end
end

theorem cancelAsk_closed (ho : s.compilerOpen = false) : s.cancelAsk = s := if_pos (by simp [ho])

section
variable (ho : s.compilerOpen = true)
include ho

theorem cancelAsk_primary (hm : s.mode = mPRIMARY) : s.cancelAsk = s.commitHold false false false true 0 :=
  (if_neg (by simp [ho])).trans (if_pos hm)

theorem cancelAsk_alone (hm : s.mode ≠ mPRIMARY) : s.cancelAsk = s.commitCancel := (if_neg (by simp [ho])).trans (if_neg hm)
end

/-- Settles O16: the write by whether a list is being checked; what it asks for by its tag, the compiler and the mode. -/
theorem commitsAsked : Obligations.CommitsAsked := by
  intro s d hs stored ask clear waits asked
  -- Value `v` of COMMIT_CTL asks with control bits `ctl` and leaves `dl` in DROP_LATE.
  have written {c : Instr} {v ctl dl : Nat} (hx : exec c s = s.onPage .mapc 0 (·.commitCtlWrite v)) (ha : asksCommit v = true)
      (hctl : askedBits v = ctl) (hdl : v / 8 = dl) :
      waits c ctl dl ∧ (s.mc.checking = false → exec c s = .next ((clear dl).commitAsk (ask ctl dl))) := by
    subst hctl hdl
    have step := hx.trans (State.onPage_served hs)
    exact ⟨fun hc => step.trans (congrArg _ (commitCtlWrite_checking ha hc)),
      fun hc => step.trans (congrArg _ (commitCtlWrite_unchecked ha hc))⟩
  have commit {c : Instr} {now arm drop : Bool} {kind : CommitKind} {ctl dl : Nat}
      (hw : waits c ctl dl ∧ (s.mc.checking = false → exec c s = .next ((clear dl).commitAsk (ask ctl dl))))
      (hn : bitsCommit ctl = true) (h0 : ctl.testBit 0 = now) (h1 : ctl.testBit 1 = arm) (h2 : ctl.testBit 2 = drop)
      (hk : bitsKind ctl (ask ctl dl).epoch = kind) : asked c now arm drop kind ctl dl := by
    subst h0 h1 h2 hk
    obtain ⟨wait, run⟩ := hw
    refine ⟨wait, fun hk => ⟨fun ht => ?tagWrong, fun ht h => ?refused, fun ht ho hc hm => ?pends, fun ht ho hc hm => ?holds⟩⟩
    case tagWrong => rw [run hk, commitAsk_tagWrong ht]
    case refused => rw [run hk, commitAsk_commit ht hn, commitNew_refused h]
    case pends => rw [run hk, commitAsk_commit ht hn, commitNew_pends hn ho hc hm]
    case holds => rw [run hk, commitAsk_commit ht hn, commitNew_holds hn ho hc hm]
  refine ⟨commit (written rfl rfl rfl rfl) rfl rfl rfl rfl rfl, ?arm, fun hd => ?cancel⟩
  case arm => cases d <;> exact commit (written rfl rfl rfl rfl) rfl rfl rfl rfl rfl
  case cancel =>
    have parts : ∀ n < 2, asksCommit (4 + 8 * n) = true ∧ askedBits (4 + 8 * n) = 8 + 4 * n ∧ (4 + 8 * n) / 8 = n := by decide
    have cancels : ∀ n < 2, bitsCancel (8 + 4 * n) = true := by decide
    obtain ⟨asks, bits, drop⟩ := parts _ hd
    obtain ⟨wait, run⟩ := written (c := .commitCancel) rfl asks bits drop
    refine ⟨wait, fun hk => ⟨fun ht => ?tagWrong, fun ht ho => ?closed, fun ht ho hm => ?primary, fun ht ho hm => ?alone⟩⟩
    case tagWrong => rw [run hk, commitAsk_tagWrong ht]
    case closed => rw [run hk, commitAsk_cancel ht (cancels _ hd), cancelAsk_closed ho]
    case primary => rw [run hk, commitAsk_cancel ht (cancels _ hd), cancelAsk_primary ho hm]
    case alone => rw [run hk, commitAsk_cancel ht (cancels _ hd), cancelAsk_alone ho hm]

end Sys2Proof.Machine

/-! Commits taken and cut (R164, R165, R167, R168, R170, R171). -/
namespace Sys2Proof.Machine
open Sys2Proof

variable {s : State} {c : Commit}

/-- The compiler may take the commit `c`: nothing holds it, nothing precedes it, and no catch-up runs (R164, R165). -/
def State.mayTakeCommit (s : State) (c : Commit) : Prop :=
  c.held = false ∧ c.taken = false ∧ c.ahead = 0 ∧ c.list = false ∧ s.on R.MAPC_COMMIT_STAT_CATCHUP = false ∧ s.mc.inited = true

section
variable (hc : s.mc.commit = some c) (hm : s.mayTakeCommit c)
include hc hm

theorem commitTake_now (hk : c.kind = .now) :
    s.commitTake = { s with mc := { s.mc with commit := some { c with taken := true, due := some s.nextFrame } } } := by
  obtain ⟨held, taken, ahead, list, catchup, inited⟩ := hm
  simp [State.commitTake, hc, held, taken, ahead, list, catchup, inited, hk]

/-- An armed commit goes by how far its epoch is ahead of the next hinge that it can take (R170, R171). -/
theorem commitTake_arm {e : Nat} {drop : Bool} (hk : c.kind = .arm e drop) : s.commitTake =
    if epochStep (s.labelOf (s.nextFrame - s.frame)) e < 2 ^ 39 then { s with mc := { s.mc with commit := some { c with taken := true } } }
    else if drop then s.lateDrop
    else { s with mc := { s.mc with commit := some { c with taken := true, due := some s.nextFrame, late := true } } } := by
  obtain ⟨held, taken, ahead, list, catchup, inited⟩ := hm
  simp [State.commitTake, hc, held, taken, ahead, list, catchup, inited, hk]
end

theorem cutDue_eq (hc : s.mc.commit = some c) :
    s.cutDue = (c.dueAt (s.frame + 1) (s.labelOf 1) && decide (74400 ≤ s.cyc)) := by
  simp [State.cutDue, hc]

theorem exec_commitCut_due (h : s.cutDue = true) : exec .commitCut s = .next (s.start.wr R.MAPC_COMMIT_STAT_CUT 1) := if_pos h

theorem exec_commitCut_notDue (h : s.cutDue = false) : exec .commitCut s = .next s.start := if_neg (ne_true_of_eq_false h)

/-- Settles O17: the taking by the kind of the commit and how late its epoch is, the cut by whether it is due. -/
theorem commitsTakenAndCut : Obligations.CommitsTakenAndCut := by
  intro s c hc
  refine ⟨fun held taken ahead list catchup inited => ?take, fun hd hy => ?cut, fun h => ?uncut⟩
  case take =>
    have may : s.start.mayTakeCommit c := ⟨held, taken, ahead, list, catchup, inited⟩
    have arm {e : Nat} {drop : Bool} (hk : c.kind = .arm e drop) := congrArg ok (commitTake_arm (s := s.start) hc may hk)
    refine ⟨fun hk => congrArg ok (commitTake_now (s := s.start) hc may hk),
      fun e drop hk => ⟨fun ahead => ?early, fun late hd => ?dropped, fun late hd => ?applied⟩⟩
    case early => exact (arm hk).trans (congrArg ok (if_pos ahead))
    case dropped => exact (arm hk).trans (congrArg ok ((if_neg (Nat.not_lt.2 late)).trans (if_pos hd)))
    case applied => exact (arm hk).trans (congrArg ok ((if_neg (Nat.not_lt.2 late)).trans (if_neg (ne_true_of_eq_false hd))))
  case cut => exact exec_commitCut_due (by simp [cutDue_eq hc, hd, hy])
  case uncut =>
    refine exec_commitCut_notDue ((cutDue_eq hc).trans ?_)
    rcases h with h | h <;> simp [h]

end Sys2Proof.Machine

/-! Checksum scans (R176, R177). -/
namespace Sys2Proof.Machine
open Sys2Proof

variable {s : State}

section
variable {act edit : Bool}

theorem sumAsk_free (hb : s.on R.MAPC_COMMIT_STAT_SUM_BUSY = false) (hc : s.on R.MAPC_COMMIT_STAT_CATCHUP = false)
    (hi : s.mc.inited = true) :
    s.sumAsk act edit = { s with mc := { s.mc with sumAct := act, sumEdit := edit } }.wr R.MAPC_COMMIT_STAT_SUM_BUSY 1 :=
  if_neg (by simp [hb, hc, hi])

theorem sumAsk_refused (h : s.on R.MAPC_COMMIT_STAT_SUM_BUSY = true ∨ s.on R.MAPC_COMMIT_STAT_CATCHUP = true ∨ s.mc.inited = false) :
    s.sumAsk act edit = s.commitRefused := by
  refine if_pos ?_
  rcases h with h | h | h <;> simp [h]
end

/-- The last scan that was asked for ends: SUM_BUSY clears and SUM_DONE is raised. -/
def State.sumFinish (s : State) : State := (s.wr R.MAPC_COMMIT_STAT_SUM_BUSY 0).raise .mapc 0 12

section
variable (hb : s.on R.MAPC_COMMIT_STAT_SUM_BUSY = true)
include hb

/-- The scan of the active bank comes first, and the edit bank's goes on after it where both were asked for. -/
theorem exec_sumDone_active (ha : s.mc.sumAct = true) : exec .sumDone s =
    let u := s.start.sumActive
    let v := { u with mc := { u.mc with sumAct := false } }
    .next (if v.mc.sumEdit then v else v.sumFinish) :=
  (if_neg (by simp [hb])).trans (if_pos ha)

theorem exec_sumDone_edit (ha : s.mc.sumAct = false) : exec .sumDone s =
    let u := s.start.sumEditing
    .next { u with mc := { u.mc with sumEdit := false } }.sumFinish :=
  (if_neg (by simp [hb])).trans (if_neg (ne_true_of_eq_false ha))
end

/-- Settles O18: a scan asked for by whether it may start, a scan's end by the bank that was summed. -/
theorem checksumScans : Obligations.ChecksumScans := by
  intro s
  refine ⟨fun hs => ?asked, fun hb => ⟨fun ha => ?active, exec_sumDone_edit hb⟩⟩
  case asked =>
    have act : exec .sumAct s = .next (s.start.sumAsk true false) := State.onPage_served (f := (·.sumAsk true false)) hs
    have edit : exec .sumEdit s = .next (s.start.sumAsk false true) := State.onPage_served (f := (·.sumAsk false true)) hs
    rw [act, edit]
    exact ⟨fun hb hc hi => ⟨congrArg _ (sumAsk_free hb hc hi), congrArg _ (sumAsk_free hb hc hi)⟩,
      fun h => ⟨congrArg _ (sumAsk_refused h), congrArg _ (sumAsk_refused h)⟩⟩
  case active =>
    have ends := exec_sumDone_active hb ha
    exact ⟨fun he => ends.trans (congrArg _ (if_pos he)), fun he => ends.trans (congrArg _ (if_neg (ne_true_of_eq_false he)))⟩

end Sys2Proof.Machine

/-! Commands and settings of a lane-pair group (R16, R187, R195, R287). -/
namespace Sys2Proof.Machine
open Sys2Proof

variable {s : State} {g : Nat}

section
variable {k : Nat} (hk : cmdKnown k = true)
include hk

theorem grpCommand_accepted (hd : s.decides = true) (ha : (s.grp g).accepts (grpPar (s.grp g).cfg) k = true) :
    s.grpCommand g k = (s.setGrp g { s.grp g with cmdDue := some k }).mirrorGrp g := by
  simp [State.grpCommand, hk, hd, ha]

theorem grpCommand_refused (h : s.decides = false ∨ (s.grp g).accepts (grpPar (s.grp g).cfg) k = false) :
    s.grpCommand g k = (s.wr R.PROT_G_STAT_CMD_ERR 1 0 g).raise .prot 0 1 := by
  rcases h with h | h <;> simp [State.grpCommand, hk, h]
end

/-- G_CFG value `v` asks for an enable that R195 does not accept: of one lane twice, of lanes that differ in rate, or of a lane of
another enabled group. -/
def State.grpRefuses (s : State) (g v : Nat) : Bool :=
  v.testBit 0 && (grpW v == grpP v || s.rate (grpW v) != s.rate (grpP v) || s.grpHolds g (grpW v) || s.grpHolds g (grpP v))

/-- WTR and HOLDOFF as value `v` of G_CFG writes them: a reserved one keeps its value (R16). -/
def State.grpTimesWrite (s : State) (g v : Nat) : State :=
  let a := if bits v 22 10 ≤ 720 then s.wr R.PROT_G_CFG_WTR (bits v 22 10) 0 g else s
  if bits v 15 7 ≤ 100 then a.wr R.PROT_G_CFG_HOLDOFF (bits v 15 7) 0 g else a

section
variable {v : Nat}

theorem gCfgWrite_refused (h : s.grpRefuses g v = true) : s.gCfgWrite g v = s.wr R.PROT_G_STAT_CFG_ERR 1 0 g := if_pos h

theorem gCfgWrite_stored (h : s.grpRefuses g v = false) : s.gCfgWrite g v =
    ((((((s.grpTimesWrite g v).wr R.PROT_G_CFG_P_LANE (grpP v) 0 g).wr R.PROT_G_CFG_W_LANE (grpW v) 0 g).wr
      R.PROT_G_CFG_REVERT (v / 4) 0 g).wr R.PROT_G_CFG_DUAL (v / 2) 0 g).wr R.PROT_G_CFG_EN v 0 g).mirrorGrp g :=
  if_neg (ne_true_of_eq_false h)
end

/-- Settles O21: the five commands by whether the group takes them, the settings by whether their enable is accepted. -/
theorem groupCommands : Obligations.GroupCommands := by
  intro g s hs u good bad
  have command {c : Instr} {k : Nat} (hx : exec c s = s.onPage .prot 0 (·.grpCommand g k)) (hk : cmdKnown k = true) :
      good c k ∧ bad c k := by
    have step := hx.trans (State.onPage_served hs)
    exact ⟨fun hd ha => step.trans (congrArg _ (grpCommand_accepted (s := s.start) hk hd ha)),
      fun h => step.trans (congrArg _ (grpCommand_refused (s := s.start) hk h))⟩
  have config (v : W32) : exec (.gCfgWrite g v) s = .next (s.start.gCfgWrite g v.toNat) :=
    State.onPage_served (f := (·.gCfgWrite g v.toNat)) hs
  exact ⟨command rfl rfl, command rfl rfl, command rfl rfl, command rfl rfl, command rfl rfl, fun v =>
    ⟨fun h => (config v).trans (congrArg _ (gCfgWrite_refused (s := s.start) h)),
      fun h => (config v).trans (congrArg _ (gCfgWrite_stored (s := s.start) h))⟩⟩

end Sys2Proof.Machine

/-! Hold-off, wait-to-restore and APS mismatch (R186, R190, R202, R203; log entry 89 for the frames that a timer has run). -/
namespace Sys2Proof.Machine
open Sys2Proof

variable {s : State}

theorem wtrEnds_noted {u : Sel} {par : SelPar} {run : Nat} (hw : u.wtr = true) (hp : par.wtr ≤ run) (hr : 8000 * run ≤ u.wtrRan + 1) :
    u.wtrEnds par run = { u with wtrDue := true } := if_pos ⟨hw, hp, hr⟩

section
variable (ht : s.timersRun = true) (run : Nat)
include ht

theorem exec_holdoffExpire_out (a : BitVec 20) (side : Side) : exec (.holdoffExpire (.out a) side run) s =
    .next (s.start.setSel a.toNat ((s.sel a.toNat).holdoffEnds (selPar (s.sel a.toNat).cfg) side run)) := if_neg (by simp [ht])

theorem exec_holdoffExpire_group (g : Fin 32) (side : Side) : exec (.holdoffExpire (.group g) side run) s =
    .next (s.start.setGrp g ((s.grp g).holdoffEnds (grpPar (s.grp g).cfg) side run)) := if_neg (by simp [ht])

theorem exec_wtrExpire_out (a : BitVec 20) : exec (.wtrExpire (.out a) run) s =
    .next (s.start.setSel a.toNat ((s.sel a.toNat).wtrEnds (selPar (s.sel a.toNat).cfg) run)) := if_neg (by simp [ht])

theorem exec_wtrExpire_group (g : Fin 32) : exec (.wtrExpire (.group g) run) s =
    .next (s.start.setGrp g ((s.grp g).wtrEnds (grpPar (s.grp g).cfg) run)) := if_neg (by simp [ht])
end

section
variable {g : Nat} {v : Bool}

/-- APS_MM of an enabled group follows its cause, shows and raises its event. -/
theorem apsMm_changes (he : (grpPar (s.grp g).cfg).en = true) (hm : (s.grp g).mm = !v) (hc : s.apsCause g = v) :
    s.apsMm g v = ((s.setGrp g { s.grp g with mm := v }).showGrp g).raise .prot 0 3 := if_neg (by simp [he, hm, hc])

theorem apsMm_unchanged (h : (s.grp g).mm = v ∨ s.apsCause g = !v) : s.apsMm g v = s := by
  refine if_pos ?_
  rcases h with h | h <;> simp [h]
end

/-- Settles O22: each timer's end by what it times, a change of APS_MM by whether the group has it and its cause. -/
theorem protectionTimers : Obligations.ProtectionTimers := by
  intro s
  refine ⟨fun ht run => ⟨fun a => ⟨?outWorking, ?outProtect, fun hw hp hr => ?outRestore⟩,
      fun g => ⟨?groupWorking, ?groupProtect, fun hw hp hr => ?groupRestore⟩⟩,
    fun g he => ⟨fun hm hc => ?declared, fun hm hc => ?cleared, fun h => ?notDeclared, fun h => ?notCleared⟩⟩
  case outWorking => exact exec_holdoffExpire_out ht run a .working
  case outProtect => exact exec_holdoffExpire_out ht run a .protect
  case outRestore => rw [exec_wtrExpire_out ht, wtrEnds_noted hw hp hr]
  case groupWorking => exact exec_holdoffExpire_group ht run g .working
  case groupProtect => exact exec_holdoffExpire_group ht run g .protect
  case groupRestore => rw [exec_wtrExpire_group ht, wtrEnds_noted hw hp hr]
  case declared => exact congrArg ok (apsMm_changes (s := s.start) he hm hc)
  case cleared => exact congrArg ok (apsMm_changes (s := s.start) he hm hc)
  case notDeclared => exact congrArg ok (apsMm_unchanged (s := s.start) h)
  case notCleared => exact congrArg ok (apsMm_unchanged (s := s.start) h)

end Sys2Proof.Machine

/-! Training of a DRAM channel, and its timeouts (R206, R404; log entry 20 for the step at a timeout). -/
namespace Sys2Proof.Machine
open Sys2Proof

variable {s : State}

section
variable {c : Nat}

theorem dramCfgWrite_trained (v : Nat) (h : s.on R.DRAMC_STAT_TRAINED c = true) :
    s.dramCfgWrite c v = s.wr R.DRAMC_STAT_CFG_REFUSED 1 c := if_pos h

/-- The fields of CFG as value `v` writes them: SPEED or DENSITY with a reserved code keeps its value (R16). -/
def State.dramCfgFields (s : State) (c v : Nat) : State :=
  let a := if bits v 6 2 = 3 then s else s.wr R.DRAMC_CFG_SPEED (v / 64) c
  let b := if bits v 3 2 = 3 then a else a.wr R.DRAMC_CFG_DENSITY (v / 8) c
  ((b.wr R.DRAMC_CFG_WIDTH (v / 32) c).wr R.DRAMC_CFG_RANKS (v / 4) c).wr R.DRAMC_CFG_VALID v c

theorem dramCfgWrite_untrained (v : Nat) (h : s.on R.DRAMC_STAT_TRAINED c = false) : s.dramCfgWrite c v =
    let d := s.dramCfgFields c v
    ({ d with dramRsv := BitVec.ofNat 2 (putBit d.dramRsv.toNat c (cfgReserved v)) }.dramBringUp 0).dramBringUp 1 :=
  if_neg (ne_true_of_eq_false h)
end

variable {c : Fin 2}

/-! The end of a training that runs. -/

section
variable (hb : s.on R.DRAMC_STAT_TRAIN_BUSY c = true)
include hb

theorem exec_dramTrainDone : exec (.dramTrainDone c) s =
    .next (((s.start.wr R.DRAMC_STAT_TRAIN_BUSY 0 c).wr R.DRAMC_STAT_TRAINED 1 c).raise .dramc c 1).readyChk := if_neg (by simp [hb])

theorem exec_dramTrainFail (step : BitVec 4) : exec (.dramTrainFail c step) s = .next (s.start.trainFail c step.toNat) :=
  if_neg (by simp [hb])

theorem exec_dramTrainTimeout (hr : s.ran (.train c) trainLimit = true) : exec (.dramTrainTimeout c) s =
    .next ((s.start.takeFresh.trainFail c (Config.trainStep s.fresh).toNat).recover 10 c) := if_neg (by simp [hb, hr])
end

theorem exec_dramHotChange (hot : Bool) (hc : s.domUp (48 + c) = true) (hp : s.domUp (50 + c) = true) :
    exec (.dramHotChange c hot) s = .next (s.start.wrB R.DRAMC_STAT_HOT hot c) := if_neg (by simp [State.channelUp, hc, hp])

theorem exec_dramQueueTimeout (sub : Bool) (ht : s.on R.DRAMC_STAT_TRAINED c = true) : exec (.dramQueueTimeout c sub) s =
    .next (((s.start.count .dramc c 6).raise .dramc c 4).recover 6 (2 * c.val + b2n sub)) := if_neg (by simp [State.trained, ht])

/-- Settles O23: the write of CFG by whether the channel is trained, each end of a training by BUSY. -/
theorem dramTraining : Obligations.DramTraining := by
  intro c s
  refine ⟨fun hs v => ?config, fun hb => ⟨exec_dramTrainDone hb, exec_dramTrainFail hb, exec_dramTrainTimeout hb⟩, rfl,
    exec_dramHotChange, exec_dramQueueTimeout⟩
  have step : exec (.dramCfgWrite c v) s = .next (s.start.dramCfgWrite c v.toNat) :=
    State.onPage_served (f := (·.dramCfgWrite c v.toNat)) hs
  exact ⟨fun ht => step.trans (congrArg _ (dramCfgWrite_trained (s := s.start) _ ht)),
    fun ht => step.trans (congrArg _ (dramCfgWrite_untrained (s := s.start) _ ht))⟩

end Sys2Proof.Machine

/-! The windows onto device memory: their enables, and a write through one (R208, R209, R214, R326, R328, R333; log entry 63 for a
master that is not admitted). -/
namespace Sys2Proof.Machine
open Sys2Proof

variable {s : State}

/-! A window enabled. -/

/-- Window target `t` lies below the host's region or beyond the fitted memory (R210, R214). -/
def State.winOutside (s : State) (t : Nat) : Prop :=
  t * 2 ^ 25 < hostRegion ∨ (s.channelGiB 0 + s.channelGiB 1) * 2 ^ 30 < (t + 1) * 2 ^ 25

section
variable {w v : Nat}

theorem winWrite_refused (he : v.testBit 31 = true) (ho : s.winOutside (bits v 0 11)) : s.winWrite w v = s.raise .dramc 0 3 :=
  if_pos ⟨he, ho⟩

theorem winWrite_stored (h : v.testBit 31 = false ∨ ¬ s.winOutside (bits v 0 11)) : s.winWrite w v =
    ((s.wr R.DRAMC_WIN_EN (v / 2 ^ 31) 0 w).wr R.DRAMC_WIN_RO (v / 2 ^ 30) 0 w).wr R.DRAMC_WIN_TARGET (bits v 0 11) 0 w := by
  refine if_neg (fun ⟨he, ho⟩ => ?_)
  rcases h with h | h
  · simp [h] at he
  · exact h ho
end

/-! What a write does in T4. -/

section
variable {a : Nat} {data : List Byte} (hd : data ≠ [])
include hd

theorem winWriteBus_disabled (h : s.windowAddr a = none) : s.winWriteBus a data = ⟨s, [], cDEFAULT⟩ := by
  simp [State.winWriteBus, State.winStore, hd, h]

theorem winWriteBus_readOnly {d : Nat} (h : s.windowAddr a = some (d, true)) : s.winWriteBus a data = ⟨s, [], cDENIED⟩ := by
  simp [State.winWriteBus, State.winStore, hd, h]

/-- A write that ends in the window in which it begins is one write of device memory. -/
theorem winWriteBus_within {d : Nat} (h : s.windowAddr a = some (d, false)) (hl : data.length ≤ windowLeft a) : s.winWriteBus a data =
    let t := s.deviceWrite (data.length / 64 + 2) d data
    ⟨t.1, [], if t.2 then 0 else cDET⟩ := by
  have rest : data.drop (windowLeft a) = [] := List.drop_eq_nil_of_le hl
  simp only [State.winWriteBus, State.winStore, List.isEmpty_iff, hd, h, if_false, Bool.false_eq_true, Nat.min_eq_left hl,
    List.take_of_length_le hl, rest, if_true]
  exact (apply_ite (Resp.mk _ []) _ _ _).symm
end

/-! The record of its response. -/

section
variable {r : BusReq}

theorem noteErr_default : s.noteErr r cDEFAULT = s.busErr r.m defaultTarget r.addr cDEFAULT :=
  congrArg (fun t => s.busErr r.m t r.addr cDEFAULT) (if_pos (.inl rfl))

theorem noteErr_target {c : Nat} (hr : r.byDefault = false) (h0 : c ≠ 0) (h1 : c ≠ cDEFAULT) :
    s.noteErr r c = s.busErr r.m r.target r.addr c := by
  simp [State.noteErr, errNumber, hr, h0, h1]
end

/-! The write on the matrix. -/

/-- The state in which master `m` has been granted T4. -/
def State.windowGranted (s : State) (m : Nat) : State := { s with mx := { s.mx with last := mapSet 5 s.mx.last 4 m } }.count .matrix 0 1

/-- What asks for T4 beside the write `r` of a window: the next transaction of each master, or `r` where its own has none. -/
def State.windowRival (s : State) (r : BusReq) (m : Nat) : Option BusReq :=
  if m = r.m ∧ (s.nextAt m 4).isNone then (if s.targetBusy m 4 then none else some r) else s.candidate m 4

section
variable {r : BusReq} (ht : r.target = 4) (hw : r.write = true) (ha : admits r.m 4 true = true)
include ht hw ha

theorem byDefault_window : r.byDefault = false := by simp [BusReq.byDefault, ht, hw, ha, defaultTarget]

theorem atTarget_window : s.atTarget r = s.winWriteBus r.loc r.data := by simp [State.atTarget, ht, hw, ha, defaultTarget]

theorem windowAsk_wins (hb : s.bestOf 4 (s.windowRival r) = some r) : s.windowAsk r =
    let t := (s.windowGranted r.m).winWriteBus r.loc r.data
    t.s.noteErr r t.cause := by
  refine (if_pos hb).trans ?_
  simp only [State.windowTake, atTarget_window ht hw ha]
  rfl

theorem windowAsk_waits (hb : s.bestOf 4 (s.windowRival r) ≠ some r) (h1 : r.m ≠ 1) (h5 : r.m ≠ 5) :
    s.windowAsk r = { s with mx := { s.mx with waiting := s.mx.waiting ++ [r] } } :=
  calc s.windowAsk r
    _ = if r.m = 1 ∨ r.m = 5 then s else s.enter r := if_neg hb
    _ = s.enter r := if_neg (by simp [h1, h5])
    _ = _ := if_neg (by simp [byDefault_window ht hw ha])
end

theorem windowAsk_kept {r : BusReq} (hb : s.bestOf 4 (s.windowRival r) ≠ some r) (h : r.m = 1 ∨ r.m = 5) : s.windowAsk r = s :=
  (if_neg hb).trans (if_pos h)

section
variable {m : Master} {a : W32} {data : List Byte} (hb : s.busUp = true)
include hb

theorem exec_windowWrite_up : exec (.windowWrite m a data) s =
    let r := s.start.issue (masterNum m) a.toNat true data data.length
    if r.target ≠ 4 then ok (s.start.busErr r.m defaultTarget r.addr cDEFAULT)
    else if r.byDefault then ok (s.start.busErr r.m defaultTarget r.addr cDENIED)
    else ok (s.start.windowAsk r) := if_neg (by simp [hb])

theorem exec_windowWrite_outside (ht : (s.start.issue (masterNum m) a.toNat true data data.length).target ≠ 4) :
    exec (.windowWrite m a data) s = .next (s.start.busErr (masterNum m) defaultTarget a.toNat cDEFAULT) :=
  (exec_windowWrite_up hb).trans (if_pos ht)

section
variable (ht : (s.start.issue (masterNum m) a.toNat true data data.length).target = 4)
include ht

theorem exec_windowWrite_denied (ha : admits (masterNum m) 4 true = false) :
    exec (.windowWrite m a data) s = .next (s.start.busErr (masterNum m) defaultTarget a.toNat cDENIED) := by
  refine (exec_windowWrite_up hb).trans ((if_neg (not_not.2 ht)).trans (if_pos ?_))
  simp only [BusReq.byDefault, ht]
  simp [State.issue, ha]

theorem exec_windowWrite_asks (ha : admits (masterNum m) 4 true = true) :
    exec (.windowWrite m a data) s = .next (s.start.windowAsk (s.start.issue (masterNum m) a.toNat true data data.length)) :=
  (exec_windowWrite_up hb).trans ((if_neg (not_not.2 ht)).trans (if_neg (ne_true_of_eq_false (byDefault_window ht rfl ha))))
end
end

/-- Settles O24: the enable by where its target lies; the write by its target, its master, the arbiter, and then its window. -/
theorem dramWindows : Obligations.DramWindows := by
  intro s
  refine ⟨fun hs w v => ?enable, fun m a data hb => ?write⟩
  case enable =>
    have step : exec (.winEnable w v) s = .next (s.start.winWrite w v.toNat) := State.onPage_served (f := (·.winWrite w v.toNat)) hs
    exact ⟨fun he ho => step.trans (congrArg _ (winWrite_refused (s := s.start) he ho)),
      fun h => step.trans (congrArg _ (winWrite_stored (s := s.start) h))⟩
  case write =>
    intro k r asks u
    refine ⟨exec_windowWrite_outside hb, exec_windowWrite_denied hb, fun ht ha hn => ?loses, fun ht ha hw => ?wins⟩
    case loses =>
      have step := exec_windowWrite_asks hb ht ha
      exact ⟨fun h1 h5 => step.trans (congrArg _ (windowAsk_waits (r := r) ht rfl ha hn h1 h5)),
        fun h => step.trans (congrArg _ (windowAsk_kept (r := r) hn h))⟩
    case wins =>
      have admitted : r.byDefault = false := byDefault_window ht rfl ha
      have step : exec (.windowWrite m a data) s = .next ((u.winWriteBus r.loc data).s.noteErr r (u.winWriteBus r.loc data).cause) :=
        (exec_windowWrite_asks hb ht ha).trans (congrArg _ (windowAsk_wins (r := r) ht rfl ha hw))
      refine ⟨⟨_, rfl, step⟩, fun hd hn => ?disabled, fun d hd hn => ?readOnly, fun d hd hl hn => ?stored⟩
      case disabled => rw [step, winWriteBus_disabled hd hn, noteErr_default]; rfl
      case readOnly => rw [step, winWriteBus_readOnly hd hn, noteErr_target (c := cDENIED) admitted (by decide) (by decide), ht]; rfl
      case stored =>
        rw [step, winWriteBus_within hd hn hl]
        refine ⟨fun hg => ?answered, fun hf => ?detected⟩
        case answered => simp only [hg]; rfl
        case detected =>
          simp only [hf, Bool.false_eq_true, if_false]
          rw [noteErr_target admitted (by decide) (by decide), ht]
          rfl

end Sys2Proof.Machine

/-! The equaliser's measurement at a multiframe, and the release of a container (R216 to R221, R223 to R225; log entries 69 and
78). -/
namespace Sys2Proof.Machine
open Sys2Proof

variable {s : State}

/-! Measuring (R217). -/

section
variable {g : EqGroup} (live : Bool)

theorem eqMeasure_unaligned (h : g.cw.off = none ∨ g.cp.off = none) : eqMeasure g live =
    { g with agree := 0, inWin := 0, outWin := 0, absent := 0, cw := { g.cw with mf := false }, cp := { g.cp with mf := false } } := by
  unfold eqMeasure
  split
  case h_1 hw hp => simp [hw, hp] at h
  case h_2 => rfl

section
variable {ow op : Nat} (hw : g.cw.off = some ow) (hp : g.cp.off = some op)
include hw hp

theorem eqMeasure_waits (h : (g.cw.mf && g.cp.mf) = false) : eqMeasure g live = g := by
  unfold eqMeasure
  rw [hw, hp]
  exact if_neg (ne_true_of_eq_false h)

theorem eqMeasure_both (h : (g.cw.mf && g.cp.mf) = true) : eqMeasure g live =
    eqFollow (eqAligned { g with cw := { g.cw with mf := false }, cp := { g.cp with mf := false } } live ow op) := by
  unfold eqMeasure
  rw [hw, hp]
  exact if_pos h
end
end

variable {q : Fin 65536}

section
variable {side : Side} {tag : BitVec 16}

theorem exec_eqMultiframe_ignored (h : (s.eqg q).st = eqOFF ∨ ((s.eqg q).copy (side == .protect)).n ≠ 32 * tag.toNat) :
    exec (.eqMultiframe q side tag) s = .next s.start := if_pos h

theorem exec_eqMultiframe_measures (hs : (s.eqg q).st ≠ eqOFF) (hn : ((s.eqg q).copy (side == .protect)).n = 32 * tag.toNat) :
    exec (.eqMultiframe q side tag) s = .next (s.start.setEq q (eqMeasure (s.eqg q) (s.eqLive q))) := if_neg (by simp [hs, hn])
end

/-! The release of a container (R219). -/

section
variable {tag : BitVec 16} {i : Fin 32} (altered : List (Nat × List Byte))

theorem exec_eqContainerRelease_idle (h : (s.eqg q).path = false ∨ (s.eqg q).out.gen ≠ .run ∨
    ((s.eqg q).copy (s.eqg q).later).sight? (32 * tag.toNat + i) = none ∨
    (s.eqg q).out.rel.map (fun r => r.1) = some (32 * tag.toNat + i.val)) :
    exec (.eqContainerRelease q tag i altered) s = .next s.start := by
  refine if_pos ?_
  rcases h with h | h | h | h <;> simp [h]

theorem exec_eqContainerRelease_due {sl : EqSight} (hp : (s.eqg q).path = true) (hg : (s.eqg q).out.gen = .run)
    (hl : ((s.eqg q).copy (s.eqg q).later).sight? (32 * tag.toNat + i) = some sl)
    (hr : (s.eqg q).out.rel.map (fun r => r.1) ≠ some (32 * tag.toNat + i.val)) :
    exec (.eqContainerRelease q tag i altered) s = .next ((s.start.upset altered).eqRelease q (32 * tag.toNat + i)) :=
  if_neg (by simp [hp, hg, hl, hr])
end

/-- Settles O25: a multiframe by what the two copies have brought, a release by whether it is due. -/
theorem equalisedGroups : Obligations.EqualisedGroups := by
  intro q s g
  refine ⟨fun side tag => exec_eqMultiframe_ignored, fun side tag hs hn => ?measured, fun tag i altered => ?release⟩
  case measured =>
    have step := exec_eqMultiframe_measures hs hn
    refine ⟨fun h => ?unaligned, fun ow op hw hp => ⟨fun h => ?waits, fun h => ?both⟩⟩
    case unaligned => rw [step, eqMeasure_unaligned _ h]
    case waits => rw [step, eqMeasure_waits _ hw hp h]
    case both => rw [step, eqMeasure_both _ hw hp h]
  case release =>
    intro n late released
    refine ⟨exec_eqContainerRelease_idle altered, fun sl hp hg hl hr => ?_⟩
    obtain rfl : sl = late.getD {} := by rw [hl]; rfl
    exact exec_eqContainerRelease_due altered hp hg hl hr

end Sys2Proof.Machine

/-! The jitter buffer of a context: playout, and the bursts written and merged (R207, R208, R240, R241). -/
namespace Sys2Proof.Machine
open Sys2Proof

variable {s : State}

section
variable {n : Nat} (he : (s.ctx n).en = true) (hu : s.ctxUp n = true)
include he hu

theorem jbRuns_eq_dramReady : s.jbRuns n = s.dramReady := by simp [State.jbRuns, he, hu]

/-! A unit time. -/

theorem playout_run (h : (s.ctx n).st = xRUN) : s.playout n =
    if s.dramReady then s.playUnit n ((s.ctx n).play.getD 0) else s.setCtx n { s.ctx n with st := xFILL } := by
  simp only [State.playout, he, hu, h]
  cases s.dramReady <;> rfl

theorem playout_fill {f : Nat} (h : (s.ctx n).st = xFILL) (hm : s.dramReady = true) (hf : (s.ctx n).begin? = some f) : s.playout n =
    if (s.ctx n).filled f then (s.setCtx n { s.ctx n with st := xRUN, play := some f }).playUnit n f else s := by
  simp [State.playout, he, hu, h, hm, hf, xFILL, xRUN]
end

/-! A burst read for a late unit. -/

/-- The late unit leaves its place, and the burst that it belongs to is read. -/
def State.mergeRead (s : State) (n f : Nat) : State × Option (List Byte) :=
  (s.setCtx n { s.ctx n with late := mdel (s.ctx n).late f }).burstGet rgJitter (unitTag f) (unitBurst n f)

/-- What that read gives decides about the late unit `u`: it is merged and the burst written whole again, or it is discarded. -/
def mergeEnd (n f : Nat) (u : List Byte × Bool) (t : State × Option (List Byte)) : State :=
  match t.2 with
  | none => t.1.jbDet
  | some b => (t.1.setCtx n { t.1.ctx n with units := mput (t.1.ctx n).units f u.2 }).burstPut rgJitter (unitTag f) (unitBurst n f)
      (patchBytes b (32 * (f % 2)) u.1)

section
variable {n f : Nat} {u : List Byte × Bool} {t : State × Option (List Byte)}

theorem mergeEnd_lost (h : t.2 = none) : mergeEnd n f u t = t.1.jbDet := by simp only [mergeEnd, h]

theorem mergeEnd_merged {b : List Byte} (h : t.2 = some b) : mergeEnd n f u t =
    (t.1.setCtx n { t.1.ctx n with units := mput (t.1.ctx n).units f u.2 }).burstPut rgJitter (unitTag f) (unitBurst n f)
      (patchBytes b (32 * (f % 2)) u.1) := by
  simp only [mergeEnd, h]
end

/-! The two commands on bursts. -/

section
variable {n : Fin 16384} {f : Nat}

theorem exec_jbBurstWrite_due (hr : s.jbRuns n = true) (hd : (s.ctx n).burstDue (f / 2 * 2) = true) : exec (.jbBurstWrite n f) s =
    let c := s.ctx n
    let a := f / 2 * 2
    .next ((s.start.setCtx n { c with line := mdel (mdel c.line a) (a + 1), bursts := mput c.bursts (f / 2) 1 }).burstPut rgJitter
      (unitTag f) (unitBurst n f) (c.gathered a)) := if_neg (by simp [hr, hd])

theorem exec_jbBurstWrite_idle (h : s.jbRuns n = false ∨ (s.ctx n).burstDue (f / 2 * 2) = false) :
    exec (.jbBurstWrite n f) s = .next s.start := by
  refine if_pos ?_
  rcases h with h | h <;> simp [h]

theorem exec_jbMerge_none (h : mget? (s.ctx n).late f = none) : exec (.jbMerge n f) s = .next s.start := by
  change execJbMerge n f s = _
  simp only [execJbMerge, State.start_ctx, h]
  rfl

theorem exec_jbMerge_late {u : List Byte × Bool} (hr : s.jbRuns n = true) (hl : mget? (s.ctx n).late f = some u) :
    exec (.jbMerge n f) s = .next (mergeEnd n f u (s.start.mergeRead n f)) := by
  change execJbMerge n f s = _
  simp only [execJbMerge, State.mergeRead, State.start_ctx, State.start_jbRuns, hr, hl]
  generalize State.burstGet _ _ _ _ = t
  obtain ⟨t, none | b⟩ := t <;> rfl
end

/-- Settles O29: a unit time by the state of the buffer, a burst by whether it is due, a merge by what the read of its burst gives. -/
theorem pseudowirePlayout : Obligations.PseudowirePlayout := by
  intro n s he hu c plays
  have played {t : State} (h : s.start.playout n = t) : plays t := h ▸ rfl
  have runs := jbRuns_eq_dramReady he hu
  refine ⟨fun hs hm => played ?paused, fun hs hm => played ?plays, fun f hs hm hb hf => played ?starts,
    fun f hs hm hb hf => played ?waits, fun f => ⟨fun hm hd => ?written, fun h => ?unwritten⟩,
    fun f u hm hl => ⟨fun h => ?lost, fun b h => ?merged⟩, fun f => exec_jbMerge_none⟩
  case paused => exact (playout_run (s := s.start) he hu hs).trans (if_neg (ne_true_of_eq_false hm))
  case plays => exact (playout_run (s := s.start) he hu hs).trans (if_pos hm)
  case starts => exact (playout_fill (s := s.start) he hu hs hm hb).trans (if_pos hf)
  case waits => exact (playout_fill (s := s.start) he hu hs hm hb).trans (if_neg (ne_true_of_eq_false hf))
  case written => exact exec_jbBurstWrite_due (runs.trans hm) hd
  case unwritten => exact exec_jbBurstWrite_idle (runs.symm ▸ h)
  case lost => exact (exec_jbMerge_late (runs.trans hm) hl).trans (congrArg _ (mergeEnd_lost h))
  case merged => exact (exec_jbMerge_late (runs.trans hm) hl).trans (congrArg _ (mergeEnd_merged h))

end Sys2Proof.Machine

/-! A received Ethernet frame: the checks of its port, the receive queue, and where R238 sends it (R228, R230, R237 to R239, R245,
R272; log entry 99 for a frame that waits for the host ring). -/
namespace Sys2Proof.Machine
open Sys2Proof

/-! Where a frame is bound. What a port queues has no say in it. -/

section
variable (s : State) (p : Nat) (e : EthPort)

@[simp] theorem State.setEth_rxDest (q : Nat) (bs : List Byte) : (s.setEth p e).rxDest q bs = s.rxDest q bs := (rfl)
@[simp] theorem State.setEth_ringFull (q : Nat) : (s.setEth p e).ringFull q = s.ringFull q := (rfl)
end

/-- A frame that no check discards is for the host: no template of the port has its tags, or its headers name no context. -/
def State.RxForHost (s : State) (p : Nat) (bs : List Byte) : Prop :=
  (s.portTpls p).any (fun t => t.vids == vlanIds 3 bs 12) = false ∨ s.pwKey p bs (12 + 4 * (vlanIds 3 bs 12).length) = .none ∨
    ∃ enc k labels o stop, s.pwKey p bs (12 + 4 * (vlanIds 3 bs 12).length) = .key enc k labels o stop ∧ s.ctxFor p enc k labels = none

section
variable {s : State} {p : Nat} {bs : List Byte}

theorem rxDest_address (ha : s.daOk p bs = false) : s.rxDest p bs = .discard := if_pos (by simp [ha])

section
variable (ha : s.daOk p bs = true)
include ha

theorem rxDest_forHost (h : s.RxForHost p bs) : s.rxDest p bs = .host := by
  refine (if_neg (by simp [ha])).trans ?_
  rcases h with hv | hk | ⟨enc, k, labels, o, stop, hk, hc⟩
  · exact if_pos (by simp [hv])
  · simp [hk]
  · simp [hk, hc]

variable (hv : (s.portTpls p).any (fun t => t.vids == vlanIds 3 bs 12) = true)
include hv

theorem rxDest_fragment (hk : s.pwKey p bs (12 + 4 * (vlanIds 3 bs 12).length) = .frag) : s.rxDest p bs = .discard := by
  refine (if_neg (by simp [ha])).trans ((if_neg (by simp [hv])).trans ?_)
  rw [hk]

theorem rxDest_context {enc k labels o stop n : Nat} (hk : s.pwKey p bs (12 + 4 * (vlanIds 3 bs 12).length) = .key enc k labels o stop)
    (hc : s.ctxFor p enc k labels = some n) : s.rxDest p bs = .ctx n o stop := by
  refine (if_neg (by simp [ha])).trans ((if_neg (by simp [hv])).trans ?_)
  simp only [hk, hc]
end
end

/-! The receive queue. -/

section
variable {s : State} {p : Nat} {x : EthRx × Nat}

/-- The receive queue has room for `bs` beside what it holds: 512 entries and 128 KiB. -/
def EthPort.RxRoom (e : EthPort) (bs : List Byte) : Prop :=
  e.rxq.length < 512 ∧ (e.rxq.foldl (fun a y => a + y.1.bytes.length) 0) + bs.length ≤ 131072

/-- The state in which the receive queue of port `p` holds the frames `q`. -/
def State.withRxq (s : State) (p : Nat) (q : List (EthRx × Nat)) : State := s.setEth p { s.eth p with rxq := q }

theorem withRxq_rxq (q : List (EthRx × Nat)) : ((s.withRxq p q).eth p).rxq = q := by simp [State.withRxq]

theorem rxEnter_full (h : ¬ (s.eth p).RxRoom x.1.bytes) : s.rxEnter p x = (s.count .eth p 5).raise .eth p 3 := if_neg h

theorem rxEnter_room (h : (s.eth p).RxRoom x.1.bytes) : s.rxEnter p x =
    State.rxDrain ((s.eth p).rxq.length + 1) p (s.withRxq p ((s.eth p).rxq ++ [x])) := if_pos h

theorem rxDrain_single (hq : (s.eth p).rxq = [x]) :
    State.rxDrain 1 p s = if s.rxWaits p x then s else (s.withRxq p []).rxTake p x := by
  simp only [State.rxDrain, hq, State.withRxq]

section
variable (hq : (s.eth p).rxq = []) (hl : x.1.bytes.length ≤ 131072)
include hq hl

/-- A frame that enters an empty queue is the head at once: it waits there, or leaves it empty again. -/
theorem rxEnter_empty : s.rxEnter p x =
    let v := s.withRxq p ((s.eth p).rxq ++ [x])
    if v.rxWaits p x then v else (v.withRxq p []).rxTake p x := by
  have room : (s.eth p).RxRoom x.1.bytes := by simp [EthPort.RxRoom, hq, hl]
  rw [rxEnter_room room, hq]
  exact rxDrain_single (withRxq_rxq _)

theorem rxEnter_discard (hd : s.rxDest p x.1.bytes = .discard) :
    s.rxEnter p x = ((s.withRxq p ((s.eth p).rxq ++ [x])).withRxq p []).pwDiscard := by
  rw [rxEnter_empty hq hl]
  simp [State.rxWaits, State.rxTake, State.withRxq, hd]

theorem rxEnter_context {n o stop : Nat} (hd : s.rxDest p x.1.bytes = .ctx n o stop) :
    s.rxEnter p x = ((s.withRxq p ((s.eth p).rxq ++ [x])).withRxq p []).pwPacket n x.1.bytes o stop := by
  rw [rxEnter_empty hq hl]
  simp [State.rxWaits, State.rxTake, State.withRxq, hd]

section
variable (hd : s.rxDest p x.1.bytes = .host)
include hd

theorem rxEnter_host (hf : s.ringFull p = false) :
    s.rxEnter p x = ((s.withRxq p ((s.eth p).rxq ++ [x])).withRxq p []).toHost p x.1 x.2 := by
  rw [rxEnter_empty hq hl]
  simp [State.rxWaits, State.rxTake, State.withRxq, hd, hf]

theorem rxEnter_hostWaits (hf : s.ringFull p = true) : s.rxEnter p x = s.withRxq p ((s.eth p).rxq ++ [x]) := by
  rw [rxEnter_empty hq hl]
  simp [State.rxWaits, State.withRxq, hd, hf]
end
end
end

/-! The command. -/

/-- The state that has counted a frame on its port and at the time-stamp unit. -/
def State.rxCounted (s : State) (p : Nat) : State := (s.count .eth p 1).count .ntime 0 5

/-- A frame of these bytes and its FCS is shorter than 64 bytes or longer than the port takes. -/
def State.RxBadLength (s : State) (p : Nat) (bs : List Byte) : Prop :=
  bs.length + 4 < 64 ∨ s.rd R.ETH_CTL_MAX_LEN p < bs.length + 4

section
variable {s : State} {p : Fin 8} {f : EthRx} (hr : s.portRuns p = true) (hl : s.on R.ETH_STAT_LINK p = true)
include hr hl

theorem exec_ethFrameRx_badLength (hb : (s.start.rxCounted p).RxBadLength p f.bytes) :
    exec (.ethFrameRx p f) s = .next ((s.start.rxCounted p).count .eth p 4) :=
  congrArg ok ((if_neg (by simp [hr, hl])).trans (if_pos hb))

section
variable (hb : ¬ (s.start.rxCounted p).RxBadLength p f.bytes)
include hb

theorem exec_ethFrameRx_badFcs (hf : f.fcsOk = false) :
    exec (.ethFrameRx p f) s = .next ((s.start.rxCounted p).count .eth p 3) :=
  congrArg ok ((if_neg (by simp [hr, hl])).trans ((if_neg hb).trans (if_pos (by simp [hf]))))

variable (hf : f.fcsOk = true)
include hf

theorem exec_ethFrameRx_pause (hp : (s.start.rxCounted p).isPause p f.bytes = true) : exec (.ethFrameRx p f) s =
    let v := (s.start.rxCounted p).count .eth p 7
    .next (if v.on R.ETH_CTL_PAUSE_RX p then v.paused p (fieldBe f.bytes 16 2) else v) :=
  congrArg ok ((if_neg (by simp [hr, hl])).trans ((if_neg hb).trans ((if_neg (by simp [hf])).trans (if_pos hp))))

theorem exec_ethFrameRx_good (hp : (s.start.rxCounted p).isPause p f.bytes = false) : exec (.ethFrameRx p f) s =
    let u := s.start.rxCounted p
    .next (u.rxEnter p (f, u.stampNs p false f.sfdAgo f.fecPos)) :=
  congrArg ok ((if_neg (by simp [hr, hl])).trans ((if_neg hb).trans ((if_neg (by simp [hf])).trans
    (if_neg (ne_true_of_eq_false hp)))))
end
end

/-- Settles O26: the checks of the port in their order, then what the receive queue does with a good frame. -/
theorem ethernetFramesReceived : Obligations.EthernetFramesReceived := by
  intro p f s hr hl u len bad res
  refine ⟨exec_ethFrameRx_badLength hr hl, exec_ethFrameRx_badFcs hr hl, fun hb hf hp => ?pause, fun hb hf hp => ?good⟩
  case pause =>
    have step := exec_ethFrameRx_pause hr hl hb hf hp
    exact ⟨fun h => step.trans (congrArg _ (if_pos h)), fun h => step.trans (congrArg _ (if_neg (ne_true_of_eq_false h)))⟩
  case good =>
    intro stamp ids e room v w
    have step {t : State} (h : u.rxEnter p (f, stamp) = t) : res t := (exec_ethFrameRx_good hr hl hb hf hp).trans (congrArg _ h)
    have dest : u.rxDest p f.bytes = w.rxDest p f.bytes := by simp only [w, v, State.setEth_rxDest]
    have full : u.ringFull p = w.ringFull p := by simp only [w, v, State.setEth_ringFull]
    refine ⟨fun h => step (rxEnter_full h), fun h => step (rxEnter_room h), fun hq hlen => ⟨fun ha => ?address, fun ha => ?taken⟩⟩
    case address => exact step (rxEnter_discard hq hlen (dest.trans (rxDest_address ha)))
    case taken =>
      refine ⟨fun h hf => ?host, fun h hf => ?waits, fun hv => ⟨fun hk => ?fragment, fun enc k labels o stop n hk hc => ?context⟩⟩
      case host => exact step (rxEnter_host hq hlen (dest.trans (rxDest_forHost ha h)) (full.trans hf))
      case waits => exact step (rxEnter_hostWaits hq hlen (dest.trans (rxDest_forHost ha h)) (full.trans hf))
      case fragment => exact step (rxEnter_discard hq hlen (dest.trans (rxDest_fragment ha hv hk)))
      case context => exact step (rxEnter_context hq hlen (dest.trans (rxDest_context ha hv hk hc)))

end Sys2Proof.Machine

/-! Host transmit descriptors (R246). -/
namespace Sys2Proof.Machine
open Sys2Proof

section
variable {s : State} {p : Nat}

theorem hostTxDesc_idle (h : s.portRuns p = false ∨ s.on R.ETH_EN_HTX_EN p = false ∨ s.dramReady = false ∨
    (s.eth p).hold.isSome = true ∨
    (s.eth p).next % 2 ^ (s.rd R.ETH_HTX_SIZE_SIZE p + 1) = s.rd R.ETH_HTX_PTR_WR p % 2 ^ (s.rd R.ETH_HTX_SIZE_SIZE p + 1)) :
    s.hostTxDesc p = s := by
  refine if_pos ?_
  rcases h with h | h | h | h | h <;> simp [h]

/-- Device address of the descriptor that the engine of port `p` reads next. -/
def State.txDescAddr (s : State) (p : Nat) : Nat := descAddr (s.rd R.ETH_HTX_BASE_BASE p) (s.rd R.ETH_HTX_SIZE_SIZE p) (s.eth p).next

/-- A descriptor of port `p` is due: its engine and ring run, memory is ready, no frame is held, and the ring is not empty. -/
structure State.TxDescDue (s : State) (p : Nat) : Prop where
  runs : s.portRuns p = true
  enabled : s.on R.ETH_EN_HTX_EN p = true
  ready : s.dramReady = true
  free : (s.eth p).hold = none
  filled : (s.eth p).next % 2 ^ (s.rd R.ETH_HTX_SIZE_SIZE p + 1) ≠ s.rd R.ETH_HTX_PTR_WR p % 2 ^ (s.rd R.ETH_HTX_SIZE_SIZE p + 1)

theorem State.TxDescDue.not_idle (due : s.TxDescDue p) :
    ¬ (!s.portRuns p || !s.on R.ETH_EN_HTX_EN p || !s.dramReady || (s.eth p).hold.isSome ||
      (s.eth p).next % 2 ^ (s.rd R.ETH_HTX_SIZE_SIZE p + 1) == s.rd R.ETH_HTX_PTR_WR p % 2 ^ (s.rd R.ETH_HTX_SIZE_SIZE p + 1)) = true := by
  simp [due.runs, due.enabled, due.ready, due.free, due.filled]

/-- The state `u` once the engine of port `p` has passed a descriptor of `s`. -/
def State.txDescPassed (s : State) (p : Nat) (u : State) : State :=
  u.setEth p { u.eth p with next := ((s.eth p).next + 1) % 2 ^ (s.rd R.ETH_HTX_SIZE_SIZE p + 1) }

section
variable {t u : State} {b data : List Byte} (due : s.TxDescDue p)
include due

theorem hostTxDesc_unread (hd : s.hostRead (s.txDescAddr p) 32 = (t, none)) : s.hostTxDesc p = t := by
  refine (if_neg due.not_idle).trans ?_
  rw [← State.txDescAddr, hd]

variable (hd : s.hostRead (s.txDescAddr p) 32 = (t, some b))
include hd

theorem hostTxDesc_frameUnread (hf : t.hostRead (ofLe (sliceBytes b 0 5)) (ofLe (sliceBytes b 5 2)) = (u, none)) : s.hostTxDesc p =
    (s.txDescPassed p u).descDone p { bytes := [], desc := some (s.txDescAddr p), ctl := (b.getD 7 0).toNat % 8 } 0x80 none := by
  refine (if_neg due.not_idle).trans ?_
  rw [← State.txDescAddr, hd]
  simp only [hf]
  rfl

/-- What the engine does with the frame of a descriptor: without LAUNCH it waits for room in the transmit queue, and with LAUNCH for its
instant. -/
theorem hostTxDesc_frame (hf : t.hostRead (ofLe (sliceBytes b 0 5)) (ofLe (sliceBytes b 5 2)) = (u, some data)) : s.hostTxDesc p =
    let ctl := (b.getD 7 0).toNat % 8
    let x : TxItem := { bytes := padFrame data, desc := some (s.txDescAddr p), ctl := ctl }
    let v := s.txDescPassed p u
    if ctl.testBit 0 then
      if v.launchPassed (ofLe (sliceBytes b 8 5)) (b.getD 13 0).toNat then v.launchLate p x
      else v.setEth p { v.eth p with hold := some (x, ofLe (sliceBytes b 8 5), (b.getD 13 0).toNat) }
    else if (s.eth p).room x.bytes then v.queueHost p x else u := by
  refine (if_neg due.not_idle).trans ?_
  rw [← State.txDescAddr, hd]
  simp only [hf]
  cases ((b.getD 7 0).toNat % 8).testBit 0
  · cases (s.eth p).room (padFrame data) <;> rfl
  · rfl
end
end

/-- Settles O28: what the read of the descriptor gives, then that of its frame, then LAUNCH and the launch instant. -/
theorem hostTransmitDescriptors : Obligations.HostTransmitDescriptors := by
  intro p s hr he hm hh e size m hn d r res
  have due : s.start.TxDescDue p := ⟨hr, he, hm, hh, hn⟩
  have step {t : State} (h : s.start.hostTxDesc p = t) : res t := congrArg ok h
  refine ⟨fun h => step (hostTxDesc_unread due (Prod.ext rfl h)), fun b hb => ?read⟩
  intro ctl q u
  have read : s.start.hostRead (s.start.txDescAddr p) 32 = (r.1, some b) := Prod.ext rfl hb
  refine ⟨fun h => step (hostTxDesc_frameUnread due read (Prod.ext rfl h)), fun data hq => ?frame⟩
  intro x ep slot
  have frame := hostTxDesc_frame due read (Prod.ext rfl hq)
  refine ⟨fun hc h => step (frame.trans ?full), fun hc h => step (frame.trans ?queued), fun hc h => step (frame.trans ?late),
    fun hc h => step (frame.trans ?held)⟩
  case full => exact (if_neg (ne_true_of_eq_false hc)).trans (if_neg (ne_true_of_eq_false h))
  case queued => exact (if_neg (ne_true_of_eq_false hc)).trans (if_pos h)
  case late => exact (if_pos hc).trans (if_pos h)
  case held => exact (if_pos hc).trans (if_neg (ne_true_of_eq_false h))

end Sys2Proof.Machine

/-! Sent Ethernet frames, launch slots, the link of a port and its pauses (R228, R244, R246, R272, R274). -/
namespace Sys2Proof.Machine
open Sys2Proof

variable {s : State} {p : Fin 8}

theorem exec_ethFrameTx_sends {ago : Nat} {x : TxItem} {r : List TxItem} (hq : (s.eth p).txq = x :: r) (hr : s.portRuns p = true)
    (hl : s.on R.ETH_STAT_LINK p = true) (hp : s.on R.ETH_STAT_PAUSED p = false) : exec (.ethFrameTx p ago) s =
    let stamp := s.stampNs p true ago 0
    let b := s.txBytes p x stamp
    let u := ((s.start.setEth p { s.eth p with txq := r }).count .eth p 2).count .ntime 0 5
    .next ((u.emit (.eth p b.1)).descDone p x (b2n b.2 * 128) (if x.ctl.testBit 2 then some stamp else none)) := by
  refine congrArg ok ?_
  simp only [State.ethTx, State.start_eth, hq]
  exact if_neg (by simp [hr, hl, hp])

theorem exec_pauseExpire_early (h : s.ran (.pause p) (s.eth p).pauseTime = false) : exec (.pauseExpire p) s = .next s.start :=
  if_pos (by simp [h])

section
variable (hr : s.portRuns p = true)
include hr

theorem exec_pauseExpire_due (h : s.ran (.pause p) (s.eth p).pauseTime = true) :
    exec (.pauseExpire p) s = .next (s.start.wr R.ETH_STAT_PAUSED 0 p) := if_neg (by simp [hr, h])

theorem exec_ethLinkChange_gain (h : s.on R.ETH_STAT_LINK p = false) : exec (.ethLinkChange p true) s = .next
    ((((s.start.wr R.ETH_STAT_LINK 1 p).wr R.ETH_STAT_BLOCK_LOCK 1 p).wr R.ETH_STAT_FEC_LOCK
      (b2n ((s.eth p).speed && (s.eth p).fec)) p).raise .eth p 0) := if_neg (by simp [hr, h])

theorem exec_ethLinkChange_loss (h : s.on R.ETH_STAT_LINK p = true) : exec (.ethLinkChange p false) s = .next
    (((((s.start.wr R.ETH_STAT_LINK 0 p).wr R.ETH_STAT_BLOCK_LOCK 0 p).wr R.ETH_STAT_FEC_LOCK 0 p).wr R.ETH_STAT_PAUSED 0 p).raise
      .eth p 0) := if_neg (by simp [hr, h])
end

/-- Settles O27: the frame sent, then the launch slot as its command says, the pause and the link, and the descriptors left unread. -/
theorem ethernetFramesSent : Obligations.EthernetFramesSent := fun s =>
  ⟨fun _ _ _ _ => exec_ethFrameTx_sends, fun _ => rfl,
    fun _ hr => ⟨exec_pauseExpire_due hr, exec_pauseExpire_early, exec_ethLinkChange_gain hr, exec_ethLinkChange_loss hr⟩,
    fun _ h => congrArg ok (hostTxDesc_idle (s := s.start) h)⟩

end Sys2Proof.Machine

/-! The references of the timing unit: activity, hits, qualification, lockout and persistence (R252, R255 to R259). -/
namespace Sys2Proof.Machine
open Sys2Proof

variable {s : State} {r : Fin 13}

/-- Reference `r` with what its activity monitor reports (R252). -/
def State.activityShown (s : State) (r : Nat) : Activity → State
  | .active => s.wr R.TIMING_REF_STAT_ACTIVE 1 0 r
  | .inactive => s.wr R.TIMING_REF_STAT_ACTIVE 0 0 r
  | .unstable => (s.wr R.TIMING_REF_STAT_UNSTABLE 1 0 r).raise .timing 0 10

theorem refActivity_follows {n : Nat} (h : 8 ≤ n) (a : Activity) : s.refActivity n a = (s.refFollow n).refEvent n false := if_pos h

section
variable {n : Nat} (hn : n < 8)
include hn

theorem refActivity_disabled (he : s.on R.TIMING_REF_CFG_EN 0 n = false) (a : Activity) : s.refActivity n a = s :=
  (if_neg (Nat.not_le.2 hn)).trans (if_pos (by simp [he]))

theorem refActivity_enabled (he : s.on R.TIMING_REF_CFG_EN 0 n = true) (a : Activity) :
    s.refActivity n a = (s.activityShown n a).refEvent n false := by
  refine (if_neg (Nat.not_le.2 hn)).trans ((if_neg (by simp [he])).trans ?_)
  cases a <;> rfl
end

theorem exec_lockoutEnd_early (h : s.ran (.lockout r) 36000000000 = false) : exec (.lockoutEnd r) s = .next s.start :=
  if_pos (by simp [h])

theorem exec_lockoutEnd_due (hl : s.on R.TIMING_REF_STAT_LOCKOUT 0 r = true) (h : s.ran (.lockout r) 36000000000 = true) :
    exec (.lockoutEnd r) s = .next
      (((s.start.wr R.TIMING_REF_STAT_LOCKOUT 0 0 r).setRef r { s.ref r with since := s.frame }).refShow r) :=
  if_neg (by simp [hl, h])

/-- A phase departure of `dep` ns is no hit: the monitor of `r` is absent, off or not watching, or the departure lies within its limit
(R256). -/
theorem exec_hit_none {dep : Nat} (h : r.val = 12 ∨ s.rd R.TIMING_REF_CFG_HIT 0 r = 0 ∨ dep ≤ 100 * s.rd R.TIMING_REF_CFG_HIT 0 r ∨
    s.refActive r = false) : exec (.hit ⟨r, dep⟩) s = .next s.start := by
  refine if_pos ?_
  rcases h with h | h | h | h <;> simp [h]

section
variable (ht : s.timingUp = true)
include ht

theorem exec_refActivityChange (a : Activity) : exec (.refActivityChange r a) s = .next (s.start.refActivity r a) :=
  if_neg (by simp [ht])

theorem exec_unstableClear : exec (.unstableClear r) s = .next ((s.start.wr R.TIMING_REF_STAT_UNSTABLE 0 0 r).refEvent r false) :=
  if_neg (by simp [ht])

theorem exec_hit_declared {dep : Nat} (hr : r.val ≠ 12) (hl : s.rd R.TIMING_REF_CFG_HIT 0 r ≠ 0)
    (hd : 100 * s.rd R.TIMING_REF_CFG_HIT 0 r < dep) (ha : s.refActive r = true) : exec (.hit ⟨r, dep⟩) s = .next
      ((((s.start.wr R.TIMING_REF_STAT_HIT 1 0 r).count .timing 0 3).raise .timing 0 11).refEvent r true) :=
  if_neg (by simp [ht, hr, hl, hd, ha])

theorem exec_refQualify_due {run : Nat} (hg : (s.ref r).good = true) (hq : s.refQual r = false)
    (hl : s.on R.TIMING_REF_STAT_LOCKOUT 0 r = false) (hf : s.loFail = false) (hr : s.rd R.TIMING_REF_CFG_WTR 0 r ≤ run)
    (hw : (s.ref r).since + 8000 * s.rd R.TIMING_REF_CFG_WTR 0 r ≤ s.frame) :
    exec (.refQualify r run) s = .next (((s.start.wr R.TIMING_REF_STAT_QUAL 1 0 r).raise .timing 0 0).refShow r) :=
  if_neg (by simp [ht, hg, hq, hl, hf, hr, hw])

theorem exec_persistExpire_due {run : Nat} (hp : s.on R.TIMING_REF_STAT_PERSIST_RUN 0 r = true)
    (hr : s.rd R.TIMING_THRESH_PERSIST ≤ run) (hb : run ≤ (s.ref r).beyond) :
    exec (.persistExpire r run) s = .next (s.start.selectAfter (s.start.freqDisqualify r)) :=
  if_neg (by simp [ht, hp, hr, hb])
end

/-- Settles O30: an activity change by what drives the reference and by its enable, and each other event by when it is due. -/
theorem referenceChanges : Obligations.ReferenceChanges := by
  intro r s ht
  have activity {a : Activity} {t : State} (h : s.start.refActivity r a = t) : exec (.refActivityChange r a) s = .next t :=
    (exec_refActivityChange ht a).trans (congrArg _ h)
  refine ⟨fun hn he => ?enabled, fun hn he a => activity (refActivity_disabled (s := s.start) hn he a),
    fun hn a => activity (refActivity_follows hn a),
    exec_unstableClear ht, fun dep => ⟨exec_hit_declared ht, exec_hit_none⟩, fun run => exec_refQualify_due ht,
    fun hl => ⟨exec_lockoutEnd_early, exec_lockoutEnd_due hl⟩, fun run => exec_persistExpire_due ht⟩
  case enabled =>
    have shown (a : Activity) := activity (refActivity_enabled (s := s.start) hn he a)
    exact ⟨shown .active, shown .inactive, shown .unstable⟩

end Sys2Proof.Machine

/-! The DPLL: its update, its transitions and states, and the loss of LO_IN (R253 to R255, R260 to R266). -/
namespace Sys2Proof.Machine
open Sys2Proof

variable {s : State}

section
variable (hd : s.dpll = dTRANSITION) (ht : s.timingUp = true) (hs : s.mode ≠ mSTANDBY) (hi : s.mode ≠ mISOLATE)
include hd ht hs hi

/-- A transition that is to end at `t` starts its ten steps anew on it; at 15, holdover, the DPLL enters that instead (R261; the model's
reading, log entry 102). -/
theorem exec_transitionStep_retarget (phase : Int) {t : Nat} (h : s.tm.retarget = some t) :
    let u := ({ (s.start.wr R.TIMING_DPLL_STAT_TARGET t).wr R.TIMING_DPLL_STAT_STEP 1 with
      tm := { s.tm with retarget := none, phases := [] } }.count .timing 0 2).raise .timing 0 3
    exec (.transitionStep phase) s = .next (if t = 15 then u.enterHoldover else u) := by
  refine (if_neg (by simp [hd, ht, hs, hi])).trans ?_
  simp only [State.start_tm, h]
  rfl

/-- A step on the target that stands records its phase, and the tenth is the last (R260). -/
theorem exec_transitionStep_phase (phase : Int) (h : s.tm.retarget = none) :
    let u := { s.start with tm := { s.tm with phases := s.tm.phases ++ [phase] } }
    exec (.transitionStep phase) s =
      .next (if 10 ≤ s.rd R.TIMING_DPLL_STAT_STEP then u.transitionEnd else u.bump R.TIMING_DPLL_STAT_STEP) := by
  refine (if_neg (by simp [hd, ht, hs, hi])).trans ?_
  simp only [State.start_tm, h]
  exact (apply_ite ok _ _ _).symm
end

theorem exec_dpllLocked_early (h : s.dpll ≠ dLOCKING ∨ s.tm.inPhase < 10) : exec .dpllLocked s = .next s.start :=
  if_pos (h.imp_right Or.inr)

/-- The holdover timer is past HO_SPEC and has not been reported so (R265). -/
def State.HoldoverLate (s : State) : Prop :=
  s.dpll = dHOLDOVER ∧ s.on R.TIMING_DPLL_STAT_HO_OOS = false ∧
    s.rd R.TIMING_HO_CFG_HO_SPEC ≤ s.rd R.TIMING_HO_ELAPSED_SECONDS

theorem hoSpecChk_late (h : s.HoldoverLate) : s.hoSpecChk = (s.wr R.TIMING_DPLL_STAT_HO_OOS 1).raise .timing 0 7 := by
  obtain ⟨hd, ho, hs⟩ := h
  exact if_pos ⟨hd, by simp [ho], hs⟩

theorem hoSpecChk_notLate (h : ¬ s.HoldoverLate) : s.hoSpecChk = s :=
  if_neg fun ⟨hd, ho, hs⟩ => h ⟨hd, by simpa using ho, hs⟩

theorem exec_holdoverOos_now : exec (.holdoverOos (s.rd R.TIMING_HO_ELAPSED_SECONDS)) s = .next s.start.hoSpecChk := if_pos rfl

theorem exec_holdoverOos_other {t : Nat} (h : t ≠ s.rd R.TIMING_HO_ELAPSED_SECONDS) : exec (.holdoverOos t) s = .next s.start := if_neg h

theorem exec_loFailClear_declared (h : s.loFail = true) : exec .loFailClear s = .next
    (((s.start.wr R.TIMING_DPLL_STAT_LO_FAIL 0).wr R.TIMING_LO_STAT_LO_FAIL 0).setRaw .timing 0 12 false) := if_neg (by simp [h])

section
variable (ht : s.timingUp = true)
include ht

/-- An update measures and judges the references while LO_IN has not failed (R253 to R255, R266). -/
theorem exec_timingUpdate (m : TimingMeas) : exec (.timingUpdate m) s = .next
    ((if s.loFail then s.start else s.start.refsUpdate m).selectRef.dpllTick m.phase (s.dpll == dHOLDOVER)) := if_neg (by simp [ht])

theorem exec_dpllLocked_due (hd : s.dpll = dLOCKING) (hp : 10 ≤ s.tm.inPhase) : exec .dpllLocked s = .next
    ((s.start.wr R.TIMING_DPLL_STAT_STATE dLOCKED).raise .timing 0 5) := if_neg (by simp [hd, ht, hp])
end

/-- Settles O31: an update by LO_FAIL, a transition step by whether it retargets and whether it is the tenth, each other event by when it
is due. -/
theorem dpllCommands : Obligations.DpllCommands := by
  intro s
  refine ⟨fun ht => ⟨fun m h => ?measures, fun m h => ?failed, fun phase hd hs hi => ⟨fun t h => ?retarget, fun h => ?step⟩,
      exec_dpllLocked_due ht, exec_dpllLocked_early, fun h => ?loFail⟩,
    exec_loFailClear_declared, fun h => ?late, fun h => ?notLate, fun t => exec_holdoverOos_other⟩
  case measures => simpa [h] using exec_timingUpdate ht m
  case failed => simpa [h] using exec_timingUpdate ht m
  case retarget =>
    have ends := exec_transitionStep_retarget hd ht hs hi phase h
    exact ⟨fun h15 => ends.trans (congrArg _ (if_neg h15)), fun h15 => ends.trans (congrArg _ (if_pos h15))⟩
  case step =>
    have ends := exec_transitionStep_phase hd ht hs hi phase h
    exact ⟨fun h10 => ends.trans (congrArg _ (if_neg (Nat.not_le.2 h10))), fun h10 => ends.trans (congrArg _ (if_pos h10))⟩
  case loFail => exact if_neg (by simp [ht, h])
  case late => exact exec_holdoverOos_now.trans (congrArg _ (hoSpecChk_late (s := s.start) h))
  case notLate => exact exec_holdoverOos_now.trans (congrArg _ (hoSpecChk_notLate (s := s.start) h))

end Sys2Proof.Machine

/-! The 1588 clock: its offset samples, the loss of its master, its steps and its time (R271, R276 to R280). -/
namespace Sys2Proof.Machine
open Sys2Proof

variable {s : State}

/-- The offset in 2^-16 ns that a sample with upper word `hi` gives, held at ±2^31 ns (R276). -/
def State.sampleOff (s : State) (hi : Nat) : Int :=
  clampInt (-(2 ^ 47)) (2 ^ 47) (toSigned 64 (hi * 2 ^ 32 + s.rd R.NTIME_SAMP_LO_OFFSET))

/-- The state that has shown and counted a sample of `off` × 2^-16 ns. -/
def State.sampleShown (s : State) (off : Int) : State :=
  ((s.mark .sample).wr R.NTIME_OFFSET_OFFSET (ofSigned 32 (clampInt (-(2 ^ 31)) (2 ^ 31 - 1) (off / 65536)))).count .ntime 0 1

/-- A sample is shown and counted; then the servo counts it towards ACQ_N in FREERUN or from a new master, and moves by it
otherwise (R276, R277). -/
theorem samplePush_word {hi : Nat} (h : hi < 2 ^ 32) :
    s.samplePush hi =
      let id := s.rd R.NTIME_MASTER_ID_ID
      let u := s.sampleShown (s.sampleOff hi)
      if u.servo = vFREERUN then u.servoCount id
      else if u.nt.master ≠ some id then u.servoFree.servoCount id
      else u.servoSample (s.sampleOff hi) := by
  unfold State.samplePush
  rw [Nat.mod_eq_of_lt h]
  rfl

section
variable {abs neg : Bool}

/-- The state that has stored ABS and NEG. -/
def State.stepSigned (s : State) (abs neg : Bool) : State :=
  (s.wr R.NTIME_STEP_CTL_ABS (b2n abs)).wr R.NTIME_STEP_CTL_NEG (b2n neg)

/-- The amount that the step's registers give. -/
def State.stepAmount (s : State) : Nat :=
  (s.rd R.NTIME_STEP_SEC_HI_SEC * 2 ^ 32 + s.rd R.NTIME_STEP_SEC_LO_SEC) * ntSec + s.rd R.NTIME_STEP_NS_NS * ntNs

theorem stepSigned_stepAmount : (s.stepSigned abs neg).stepAmount = s.stepAmount := by
  have kept {g : Fld} (ha : g.key 0 0 ≠ R.NTIME_STEP_CTL_ABS.key 0 0) (hn : g.key 0 0 ≠ R.NTIME_STEP_CTL_NEG.key 0 0) :
      (s.stepSigned abs neg).rd g = s.rd g := (State.rd_wr_ne _ _ hn).trans (State.rd_wr_ne _ _ ha)
  simp only [State.stepAmount, kept (g := R.NTIME_STEP_SEC_HI_SEC) (by decide) (by decide),
    kept (g := R.NTIME_STEP_SEC_LO_SEC) (by decide) (by decide), kept (g := R.NTIME_STEP_NS_NS) (by decide) (by decide)]

theorem stepGo_refused (h : s.nt.step.isSome = true) :
    s.stepGo abs neg = (s.stepSigned abs neg).wr R.NTIME_STEP_CTL_REFUSED 1 := if_pos h

theorem stepGo_taken (h : s.nt.step = none) : s.stepGo abs neg =
    let u := s.stepSigned abs neg
    ({ u with nt := { s.nt with step := some (abs, neg, s.stepAmount) } }.wr R.NTIME_STEP_CTL_PENDING 1).wr R.NTIME_STAT_STEP_PEND 1 := by
  rw [← stepSigned_stepAmount (abs := abs) (neg := neg)]
  exact if_neg (by simp [State.wrB, h])
end

section
variable (hs : s.served .ntime 0 = true)
include hs

theorem exec_samplePush_served (hi : W32) : exec (.samplePush hi) s = .next (s.start.samplePush hi.toNat) := if_neg (by simp [hs])

theorem exec_stepGo_served (abs neg : Bool) : exec (.stepGo abs neg) s = .next (s.start.stepGo abs neg) := if_neg (by simp [hs])

theorem exec_timeRead_served : exec .timeRead s =
    .next (s.start.timeRead.1.emit (.read (R.NTIME_TIME_SUB_SUB.addr 0 0) s.start.timeRead.2)) := if_neg (by simp [hs])
end

theorem exec_masterTimeout_due {run : Nat} (ht : s.timingUp = true) (hv : s.servo ≠ vFREERUN)
    (hl : s.rd R.NTIME_LIMITS_MASTER_TMO ≤ run) (hr : s.ran .sample (60000000 * run) = true) :
    exec (.masterTimeout run) s = .next s.start.servoFree := if_neg (by simp [ht, hv, hl, hr])

/-- Settles O32: a sample by the servo's state and by its master, a step by whether one is pending, the timeout by when it is due. -/
theorem clockSamplesAndSteps : Obligations.ClockSamplesAndSteps := by
  intro s
  refine ⟨fun hs => ⟨fun hi => ?sample, fun abs neg => ?step, exec_timeRead_served hs⟩, fun run => exec_masterTimeout_due⟩
  case sample =>
    have pushed := (exec_samplePush_served hs hi).trans (congrArg _ (samplePush_word hi.isLt))
    intro id off u
    refine ⟨fun hv => pushed.trans (congrArg _ ?free), fun hv hm => pushed.trans (congrArg _ ?newMaster),
      fun hv hm => pushed.trans (congrArg _ ?moves)⟩
    case free => exact if_pos hv
    case newMaster => exact (if_neg hv).trans (if_pos hm)
    case moves => exact (if_neg hv).trans (if_neg (not_not_intro hm))
  case step =>
    have asked := exec_stepGo_served hs abs neg
    exact ⟨fun h => asked.trans (congrArg _ (stepGo_refused h)), fun h => asked.trans (congrArg _ (stepGo_taken h))⟩

end Sys2Proof.Machine

/-! Scheduled actions and the pulses of the 1588 clock (R275, R284). -/
namespace Sys2Proof.Machine
open Sys2Proof

variable {s : State}

section
variable {i a : Nat} {drop : Bool}

/-- The state that has stored ACTION and DROP_LATE of slot `i`. -/
def State.actStored (s : State) (i a : Nat) (drop : Bool) : State :=
  (s.wr R.NTIME_ACT_CTL_ACTION a 0 i).wr R.NTIME_ACT_CTL_DROP_LATE (b2n drop) 0 i

/-- The epoch of slot `i` has passed: the label that the next hinge would carry lies ahead of it (R171, R284). -/
def State.actLate (s : State) (i : Nat) : Bool := decide (2 ^ 39 ≤ epochStep (s.labelOf 1) (s.actEpoch i))

theorem actArm_reserved (h : a = 0 ∨ 5 ≤ a) : s.actArm i a drop = s.wr R.NTIME_ACT_CTL_ERR 1 0 i := if_pos h

section
variable (h0 : a ≠ 0) (h5 : a < 5)
include h0 h5

/-- A valid ACTION is stored with DROP_LATE; then the slot is dropped, or pends and remembers whether it was late (R284). -/
theorem actArm_valid : s.actArm i a drop =
    let u := s.actStored i a drop
    if u.actLate i && drop then
      (((u.wr R.NTIME_ACT_CTL_PENDING 0 0 i).wr R.NTIME_ACT_CTL_DROPPED 1 0 i).count .ntime 0 4).raise .ntime 0 6
    else { u.wr R.NTIME_ACT_CTL_PENDING 1 0 i with nt := { s.nt with lateArmed := putBit s.nt.lateArmed i (u.actLate i) } } :=
  if_neg (by omega)

theorem actArm_dropped (hl : (s.actStored i a drop).actLate i = true) (hd : drop = true) : s.actArm i a drop =
    ((((s.actStored i a drop).wr R.NTIME_ACT_CTL_PENDING 0 0 i).wr R.NTIME_ACT_CTL_DROPPED 1 0 i).count .ntime 0 4).raise .ntime 0 6 :=
  (actArm_valid h0 h5).trans (if_pos (Bool.and_eq_true_iff.2 ⟨hl, hd⟩))

theorem actArm_pends (h : (s.actStored i a drop).actLate i = false ∨ drop = false) : s.actArm i a drop =
    let u := s.actStored i a drop
    { u.wr R.NTIME_ACT_CTL_PENDING 1 0 i with nt := { s.nt with lateArmed := putBit s.nt.lateArmed i (u.actLate i) } } :=
  (actArm_valid h0 h5).trans (if_neg (ne_true_of_eq_false (Bool.and_eq_false_iff.2 h)))
end
end

section
variable (hs : s.served .ntime 0 = true) (i : Fin 16)
include hs

theorem exec_actArm_served (a : BitVec 4) (drop : Bool) : exec (.actArm i a drop) s = .next (s.start.actArm i a.toNat drop) :=
  if_neg (by simp [hs])

theorem exec_actCancel_served : exec (.actCancel i) s = .next (s.start.actCancel i) := if_neg (by simp [hs])
end

/-! The pulses. -/

theorem ppsMay_of (he : s.on R.NTIME_PPS_EN = true) (hm : s.mode ≠ mISOLATE) (ht : s.timingUp = true) : s.ppsMay = true := by
  simp [State.ppsMay, he, hm, ht]

theorem ppsMay_eq_false (h : s.on R.NTIME_PPS_EN = false ∨ s.mode = mISOLATE ∨ s.timingUp = false) : s.ppsMay = false := by
  rcases h with h | h | h <;> simp [State.ppsMay, h]

theorem exec_ppsOutEdge_rises (hp : s.ppsMay = true) (hn : s.secondNow = true) :
    exec .ppsOutEdge s = .next { s.start with nt := { s.nt with pps := true, ppsAt := s.now } } :=
  congrArg ok (if_pos (by simp [hp, hn]))

theorem exec_ppsOutEdge_none (h : s.ppsMay = false ∨ s.secondNow = false) : exec .ppsOutEdge s = .next s.start :=
  congrArg ok (if_neg (by rcases h with h | h <;> simp [h]))

theorem exec_ppsWidthEnd_due (h : s.nt.ppsAt + 600000 * s.rd R.NTIME_PPS_WIDTH ≤ s.now) :
    exec .ppsWidthEnd s = .next { s.start with nt := { s.nt with pps := false } } := congrArg ok (if_neg (Nat.not_lt.2 h))

theorem exec_ppsWidthEnd_early (h : s.now < s.nt.ppsAt + 600000 * s.rd R.NTIME_PPS_WIDTH) : exec .ppsWidthEnd s = .next s.start :=
  congrArg ok (if_pos h)

theorem exec_ppsIn_stamps (ht : s.timingUp = true) : exec .ppsIn s = .next
    ((((s.start.wr R.NTIME_PPS_IN_SEC_SEC (ntSeconds s.time)).wr R.NTIME_PPS_IN_NS_NS (ntNanos s.time)).wr
      R.NTIME_PPS_IN_NS_VALID 1).raise .ntime 0 7) := if_neg (by simp [ht])

/-- Settles O33: ARM by its ACTION and then by whether the slot is late, CANCEL as its command says, and each pulse by when it is due. -/
theorem actionsAndPulses : Obligations.ActionsAndPulses := by
  intro s
  refine ⟨fun hs i => ⟨fun a drop h => ?reserved, fun a drop h0 h5 => ?valid, exec_actCancel_served hs i⟩,
    fun he hm ht => exec_ppsOutEdge_rises (ppsMay_of he hm ht), fun h => exec_ppsOutEdge_none ?low,
    ⟨exec_ppsWidthEnd_due, exec_ppsWidthEnd_early⟩, exec_ppsIn_stamps⟩
  case reserved => exact (exec_actArm_served hs i a drop).trans (congrArg _ (actArm_reserved h))
  case valid =>
    have armed := exec_actArm_served hs i a drop
    exact ⟨fun hl hd => armed.trans (congrArg _ (actArm_dropped h0 h5 hl hd)), fun h => armed.trans (congrArg _ (actArm_pends h0 h5 h))⟩
  case low =>
    rcases h with h | h | h | h
    · exact .inl (ppsMay_eq_false (.inl h))
    · exact .inl (ppsMay_eq_false (.inr (.inl h)))
    · exact .inl (ppsMay_eq_false (.inr (.inr h)))
    · exact .inr h

end Sys2Proof.Machine

/-! The scratchpad stays in its canonical form (R357, R358). -/
namespace Sys2Proof.Machine
open Sys2Proof

variable {s : State}

/-- No meaning breaks the canonical form: those that write the scratchpad keep its form, and all the others leave the scratchpad. -/
theorem exec_memWf (c : Instr) (h : Memory.wf s.sp = true) : wfKept (exec c s) := by
  cases c with
  | laneFrameRx l f => exact execLaneFrameRx_memWf l f h
  | eyePointDone n count => exact execEyePointDone_memWf n count h
  | spInitDone => exact execSpInitDone_memWf h
  | traceDrainWrite => exact execTraceDrainWrite_memWf h
  | chainCmdExecute => exact execChainCmdExecute_memWf h
  | windowWrite m a data => exact execWindowWrite_memWf m a data h
  | matrixGrant t rs b => exact execMatrixGrant_memWf t rs b h
  | pcieRequest r => exact execPcieRequest_memWf r h
  | holdupExhausted => exact execHoldupExhausted_memWf h
  | powerOn st => exact execPowerOn_memWf st
  | _ => exact wfKept_of_spKept (by simp [exec]) h

/-- Settles O58: a step runs the command in front, or lets one control cycle pass, which leaves the scratchpad. -/
theorem scratchpadStaysCanonical : Obligations.ScratchpadStaysCanonical := by
  intro s t h hs
  cases hq : s.pending with
  | nil =>
    rw [step_idle hq] at hs
    cases hs
    rw [State.memWf, State.tick_sp]
    exact h
  | cons c rest =>
    rw [step_front hq] at hs
    exact exec_memWf (s := { s with pending := rest }) c h t hs

end Sys2Proof.Machine

/-! A command written at an indirect port (R404). -/
namespace Sys2Proof.Machine
open Sys2Proof

variable {s : State}

/-- A write of a port's command register is a write of the page that holds the port, which asks the port to latch it. -/
theorem exec_portIssue {c : Instr} {p : Port} {op : Nat} (h : portIssue c = some (p, op)) :
    exec c s = s.onPage (portPage p).1 (portPage p).2 (fun t => t.portLatch p ⟨op, t.portIdx p, t.portSettings p⟩) := by
  cases c with
  | drwRead n | drwReadClear n | drwWrite n =>
    cases h
    have lane : Fin.ofNat 64 n.val = n := Fin.ofNat_val_eq_self n
    simp only [exec, execDrwRead, execDrwReadClear, execDrwWrite, State.drwCmd, lane]
    rfl
  | benchRead | benchReadClear | benchWrite | gRead | gReadClear | confRead | confReadClear | selLo | selFs | selMsP | selMsW | selClear |
    sRead | sReadClear | sWrite | qRead | qReadClear | qWrite | ctxRead | ctxReadClear | ctxWrite | tplRead | tplWrite | tplInval =>
    cases h
    rfl
  | _ => cases h

/-- Settles O2: the page takes the write, and the port latches it or is busy. -/
theorem portCommandLatches : Obligations.PortCommandLatches := by
  intro c p op s hc hs
  have write := (exec_portIssue (s := s) hc).trans (State.onPage_served hs)
  exact ⟨fun hb => write.trans (congrArg _ (State.portLatch_idle (s := s.start) hb)),
    fun hb => write.trans (congrArg _ (State.portLatch_busy (s := s.start) hb))⟩

end Sys2Proof.Machine

/-! Masks, the event queue and change bits (R337 to R339, R342 to R344). -/
namespace Sys2Proof.Machine
open Sys2Proof

variable {s : State}

theorem exec_evtMaskWrite_served {p : Page} {i : Nat} (hs : s.pageServed p i = true) (v : W32) :
    exec (.evtMaskWrite p i v) s = .next (s.start.evtMaskWrite p i v.toNat) := if_neg (by simp [hs])

theorem eqPop_item {x : W64} {r : List W64} (h : s.ev.queue = x :: r) :
    s.eqPop = ({ s with ev := { s.ev with queue := r } }.count .event 0 2, x.toNat) := by
  simp only [State.eqPop, h]

theorem eqPop_idle (h : s.ev.queue = []) : s.eqPop = (s, idleItem) := by
  simp only [State.eqPop, h]

/-- The change bits of the shelf that `v` names are written to the capture registers (R342). -/
def State.chgCaptured (s : State) (v : Nat) : State :=
  let m := mapGet 0 (if v.testBit 31 then s.ev.chgSel else s.ev.chgDrw) (16 * bits v 4 7 + v % 16)
  (List.range 16).foldl (fun t j => t.wr R.EVENT_CHG_MAP_CHANGED (m / 2 ^ (32 * j)) 0 j) s

/-- A shelf that exists has its change bits captured, and cleared where they are held. -/
theorem chgCapture_exists {v : Nat} (hp : bits v 4 7 < 75) (hs : v.testBit 31 = true ∨ bits v 4 7 < 64) :
    s.chgCapture v =
      let u := s.chgCaptured v
      let sh := 16 * bits v 4 7 + v % 16
      if v.testBit 31 then { u with ev := { u.ev with chgSel := mapSet 0 u.ev.chgSel sh 0 } }
      else { u with ev := { u.ev with chgDrw := mapSet 0 u.ev.chgDrw sh 0 } } := by
  refine if_neg ?_
  rcases hs with h | h
  · simp [h, hp]
  · simp [hp, h]

section
variable (hs : s.served .event 0 = true)
include hs

theorem exec_eventQueuePop_served : exec .eventQueuePop s = .next
    (let a := R.EVENT_EQ_DATA_ITEM.addr 0 0
     let t := s.start.eqPop
     { t.1 with capHi := mapSet 0 t.1.capHi a (t.2 / 2 ^ 32) }.emit (.read a (t.2 % 2 ^ 32))) := if_neg (by simp [hs])

theorem exec_eventQueueFlush_served : exec .eventQueueFlush s = .next s.start.eqFlush := if_neg (by simp [hs])

theorem exec_chgCapture_served (v : W32) : exec (.chgCapture v) s = .next (s.start.chgCapture v.toNat) := if_neg (by simp [hs])
end

/-- Settles O34: a mask write by the page, a pop by what the queue holds, a capture by which change bits it names. -/
theorem eventQueueCommands : Obligations.EventQueueCommands := by
  intro s
  refine ⟨fun p i v hv => ?mask, fun hs => ⟨fun x r hq => ?item, fun hq => ?idle, exec_eventQueueFlush_served hs, fun v => ?capture⟩⟩
  case mask =>
    rw [exec_evtMaskWrite_served hv, State.evtMaskWrite, Nat.mod_eq_of_lt v.isLt]
    rfl
  case item => rw [exec_eventQueuePop_served hs, eqPop_item (s := s.start) hq]; rfl
  case idle => rw [exec_eventQueuePop_served hs, eqPop_idle (s := s.start) hq]; rfl
  case capture =>
    intro sel port sh hp hn m u
    have captured := (exec_chgCapture_served hs v).trans (congrArg _ (chgCapture_exists hp hn))
    exact ⟨fun h => captured.trans (congrArg _ (if_pos h)), fun h => captured.trans (congrArg _ (if_neg (ne_true_of_eq_false h)))⟩

end Sys2Proof.Machine

/-! Presets, wraps, snapshots and freezes (R347, R349 to R351). -/
namespace Sys2Proof.Machine
open Sys2Proof

variable {s : State}

theorem exec_cntPreset_served {p : Page} {i : Nat} (hs : s.pageServed p i = true) (k : Fin 8) (v : BitVec 48) :
    exec (.cntPreset p i k v) s = .next
      { s.start.wr (R.HDR_CNT_COUNT p) v.toNat i k with heldLo := mdel s.heldLo ((R.HDR_CNT_COUNT p).addr i k) } :=
  if_neg (by simp [hs])

theorem exec_cntWrap_due {p : Page} {i : Nat} {k : Fin 8} (h : s.ev.wraps.contains (pageSlot p i * 8 + k.val) = true) :
    exec (.cntWrap p i k) s = .next
      ({ s.start with ev := { s.ev with wraps := s.ev.wraps.erase (pageSlot p i * 8 + k.val) } }.raise .perf 0 0) :=
  if_neg (by simp only [State.start_ev, h]; decide)

theorem snapshot_first {src : Nat} (h : s.ev.snapAt ≠ some s.now) : s.snapshot src = s.snapTake src := if_neg h

theorem snapshot_again {src : Nat} (h : s.ev.snapAt = some s.now) :
    s.snapshot src = s.wr R.PERF_SNAP_EPOCH_SOURCE (min src (s.rd R.PERF_SNAP_EPOCH_SOURCE)) := if_pos h

section
variable (hs : s.served .perf 0 = true)
include hs

theorem exec_perfSnap_served : exec .perfSnap s = .next (s.start.snapshot 1) := if_neg (by simp [hs])

theorem exec_perfFreeze_served (on : Bool) : exec (.perfFreeze on) s = .next (s.start.wrB R.PERF_CTL_FREEZE on) := if_neg (by simp [hs])
end

/-- The SNAP pin at `level`. -/
def State.snapLevel (s : State) (level : Bool) : State := { s with ev := { s.ev with snapPin := level } }

section
variable (hu : s.pageUp .perf 0 = true)
include hu

/-- The pin's level is kept, and a rise in mode 1 triggers a snapshot (R351). -/
theorem exec_snapPin_up (level : Bool) : exec (.snapPin level) s = .next
    (if level && !s.ev.snapPin && s.rd R.PERF_CTL_PIN_MODE == 1 then (s.start.snapLevel level).snapshot 2 else s.start.snapLevel level) :=
  if_neg (by simp [hu])

theorem exec_snapPin_rises (hp : s.ev.snapPin = false) (hm : s.rd R.PERF_CTL_PIN_MODE = 1) :
    exec (.snapPin true) s = .next ((s.start.snapLevel true).snapshot 2) :=
  (exec_snapPin_up hu true).trans (congrArg _ (if_pos (by simp [hp, hm])))

theorem exec_snapPin_quiet {level : Bool} (h : level = false ∨ s.ev.snapPin = true ∨ s.rd R.PERF_CTL_PIN_MODE ≠ 1) :
    exec (.snapPin level) s = .next (s.start.snapLevel level) := by
  refine (exec_snapPin_up hu level).trans (congrArg _ (if_neg ?_))
  rcases h with h | h | h <;> simp [h]
end

/-- Settles O35: each trigger of a snapshot by whether one was taken in this control cycle; the rest by when it applies. -/
theorem countersAndSnapshots : Obligations.CountersAndSnapshots := by
  intro s
  refine ⟨fun p i k v hs => exec_cntPreset_served hs k v, fun p i k h => exec_cntWrap_due h, ⟨fun hs => ?register, fun hu hp hm => ?pin⟩,
    exec_perfFreeze_served, fun level hu h => exec_snapPin_quiet hu h⟩
  case register =>
    have asked := exec_perfSnap_served hs
    exact ⟨fun h => asked.trans (congrArg _ (snapshot_first (s := s.start) h)),
      fun h => asked.trans (congrArg _ (snapshot_again (s := s.start) h))⟩
  case pin =>
    have asked := exec_snapPin_rises hu hp hm
    exact ⟨fun h => asked.trans (congrArg _ (snapshot_first (s := s.start.snapLevel true) h)),
      fun h => asked.trans (congrArg _ (snapshot_again (s := s.start.snapLevel true) h))⟩

end Sys2Proof.Machine

/-! A request served at its turn on the matrix: the command queue's head and the drain's record (R328, R333). -/
namespace Sys2Proof.Machine
open Sys2Proof

variable {s : State} {m : Nat} {r w : BusReq}

theorem serveNext_default (h : r.byDefault = true) : s.serveNext m r = s.serveReq r := if_pos h

section
variable (h : r.byDefault = false)
include h

theorem serveNext_wins (hw : s.winner r.target = some w) (hm : w.m = m) : s.serveNext m r = s.grant r.target w := by
  simp [State.serveNext, h, hw, hm]

theorem serveNext_waits (hw : ∀ w, s.winner r.target = some w → w.m ≠ m) : s.serveNext m r = s := by
  unfold State.serveNext
  rw [if_neg (ne_true_of_eq_false h)]
  split
  case h_1 w e => exact if_neg (hw w e)
  case h_2 => rfl
end

theorem serveReq_chain (h : r.m = 1) : s.serveReq r = s.chainExecute := if_pos h

theorem serveReq_drain (h : r.m = 5) : s.serveReq r = s.drain := by simp [State.serveReq, h]

theorem serveReq_other (h1 : r.m ≠ 1) (h5 : r.m ≠ 5) : s.serveReq r = s.grantReq r := (if_neg h1).trans (if_neg h5)

end Sys2Proof.Machine

/-! The trace: its control, records, pops and drain (R352 to R355). -/
namespace Sys2Proof.Machine
open Sys2Proof

variable {s : State}

/-! A read of TR_DATA0. -/

/-- Words 1 to 3 of the trace record `w` are captured. -/
def State.traceCaptured (s : State) (w : Nat) : State :=
  ((s.wr R.PERF_TR_DATA_WORD (w / 2 ^ 32) 0 1).wr R.PERF_TR_DATA_WORD (w / 2 ^ 64) 0 2).wr R.PERF_TR_DATA_WORD (w / 2 ^ 96) 0 3

theorem tracePop_record {x : BitVec 128} {r : List (BitVec 128)} (h : s.ev.trace = x :: r) (hd : s.on R.PERF_TR_CTL_DRAIN_EN = false) :
    s.tracePop = ({ s with ev := { s.ev with trace := r } }.traceCaptured x.toNat, x.toNat % 2 ^ 32) := by
  simp only [State.tracePop, h, hd]
  rfl

theorem tracePop_idle (h : s.ev.trace = [] ∨ s.on R.PERF_TR_CTL_DRAIN_EN = true) : s.tracePop = (s.traceCaptured 0, idleItem) := by
  unfold State.tracePop
  dsimp only
  split
  case h_1 => rfl
  case h_2 x r e => exact if_pos (h.resolve_left (by simp [e]))

section
variable (hs : s.served .perf 0 = true)
include hs

theorem exec_traceEnable_served (v : W32) : exec (.traceEnable v) s = .next (s.start.trCtlWrite (setBit v.toNat 0)) :=
  if_neg (by simp [hs])

theorem exec_tracePop_served : exec .tracePop s =
    .next (s.start.tracePop.1.emit (.read (R.PERF_TR_DATA_WORD.addr 0 0) s.start.tracePop.2)) := if_neg (by simp [hs])
end

/-! An item at a stage. -/

section
variable {stage : Byte} {info : BitVec 16} (hu : s.pageUp .perf 0 = true) (ht : s.tracing = true)
  (hc : (traceStages (s.rd R.PERF_TR_CTL_KIND)).contains stage.toNat = true) (hk : s.rd R.PERF_TR_CTL_KIND ≠ 2 ∨ info.toNat % 8 ≠ 5)
include hu ht hc hk

/-- The trace runs, the stage is one of its KIND, and the item is no transaction of M5. -/
theorem traced : ¬ (!s.pageUp .perf 0 || !s.tracing || !(traceStages (s.rd R.PERF_TR_CTL_KIND)).contains stage.toNat ||
    (s.rd R.PERF_TR_CTL_KIND == 2 && info.toNat % 8 == 5)) = true := by
  rw [hu, ht, hc]
  rcases hk with h | h <;> simp [h]

theorem exec_traceRecord_tagged (id : W32) (tag : BitVec 16) : exec (.traceRecord stage id info (some tag)) s =
    .next (s.start.traceWrite tag (s.rd R.PERF_TR_CTL_KIND) stage id info) := if_neg (traced hu ht hc hk)

/-- The first stage decides whether the candidate is tagged, and records it where it is. -/
theorem exec_traceRecord_candidate (id : W32) : exec (.traceRecord stage id info none) s =
    let t := s.start.traceCandidate (s.rd R.PERF_TR_CTL_KIND) id.toNat info.toNat
    .next (if t.2 then t.1.traceWrite t.1.ev.tagId (s.rd R.PERF_TR_CTL_KIND) stage id info else t.1) := if_neg (traced hu ht hc hk)
end

/-! The drain. -/

theorem drainReq_record {x : BitVec 128} {r : List (BitVec 128)} (h : s.ev.trace = x :: r) (hd : s.on R.PERF_TR_CTL_DRAIN_EN = true) :
    s.drainReq = some { s.issue 5 (s.rd R.PERF_TR_RING_BASE_BASE * 16 + 16 * s.rd R.PERF_TR_WIDX_WIDX) true [] 16 with
      issued := s.mx.drainAt } := by
  simp [State.drainReq, h, hd]

theorem drainReq_none (h : s.ev.trace = [] ∨ s.on R.PERF_TR_CTL_DRAIN_EN = false) : s.drainReq = none := by
  rcases h with h | h <;> simp [State.drainReq, h]

theorem exec_traceDrainWrite_asks {q : BusReq} (hu : s.pageUp .perf 0 = true) (hq : s.start.drainReq = some q) :
    exec .traceDrainWrite s = .next (s.start.serveNext 5 q) := by
  change execTraceDrainWrite s = _
  simp only [execTraceDrainWrite, State.nextAt, hq]
  exact if_pos hu

theorem exec_traceDrainWrite_idle (h : s.pageUp .perf 0 = false ∨ s.start.drainReq = none) : exec .traceDrainWrite s = .next s.start := by
  change execTraceDrainWrite s = _
  simp only [execTraceDrainWrite, State.nextAt]
  split
  case h_1 q e => exact if_neg (by simp [h.resolve_right (by simp [e])])
  case h_2 => rfl

/-- A record is drained: it leaves the FIFO and its 16 bytes go to the ring (R355). -/
theorem drain_record {x : BitVec 128} {r : List (BitVec 128)} (h : s.ev.trace = x :: r) (hd : s.on R.PERF_TR_CTL_DRAIN_EN = true) :
    let i := s.rd R.PERF_TR_WIDX_WIDX
    let w := { s with ev := { s.ev with trace := r }, mx := { s.mx with drainAt := s.now } }.m5Write
      (s.rd R.PERF_TR_RING_BASE_BASE * 16 + 16 * i) (leBytes 16 x.toNat)
    s.drain = if w.cause = 0 then w.s.wr R.PERF_TR_WIDX_WIDX ((i + 1) % 2 ^ s.rd R.PERF_TR_RING_SIZE_SIZE)
      else w.s.wr R.PERF_TR_STAT_DRAIN_ERR 1 := by
  simp [State.drain, h, hd]

/-- Settles O36: a pop by what it finds, a stage by whether the item carries a tag, the drain by its turn at the target. -/
theorem traceCommands : Obligations.TraceCommands := by
  intro s
  refine ⟨fun hs => ⟨exec_traceEnable_served hs, fun x r h hd => ?record, fun h => ?idle⟩,
    fun stage id info hu ht hc hk => ⟨exec_traceRecord_tagged hu ht hc hk id, fun h => ?tags, fun h => ?passes⟩,
    fun x r hu h hd => ?drain, fun h => ?nothing⟩
  case record => rw [exec_tracePop_served hs, tracePop_record (s := s.start) h hd]; rfl
  case idle => rw [exec_tracePop_served hs, tracePop_idle (s := s.start) h]; rfl
  case tags => exact (exec_traceRecord_candidate hu ht hc hk id).trans (congrArg _ (if_pos h))
  case passes => exact (exec_traceRecord_candidate hu ht hc hk id).trans (congrArg _ (if_neg (ne_true_of_eq_false h)))
  case drain =>
    intro i a q drained
    have asks := exec_traceDrainWrite_asks hu (drainReq_record (s := s.start) h hd)
    have drains {mx : Matrix} (he : s.start.serveNext 5 q = { s.start with mx := mx }.drain) : drained mx := by
      have step := asks.trans (congrArg _ (he.trans (drain_record (s := { s.start with mx := mx }) h hd)))
      exact ⟨fun hc => step.trans (congrArg _ (if_pos hc)), fun hc => step.trans (congrArg _ (if_neg hc))⟩
    refine ⟨fun hb => drains ?_, fun hb hw => drains ?_, fun hb hw => ?_⟩
    · exact (serveNext_default hb).trans (serveReq_drain rfl)
    · exact (serveNext_wins hb hw rfl).trans (serveReq_drain rfl)
    · exact asks.trans (congrArg _ (serveNext_waits hb hw))
  case nothing =>
    rcases h with h | h | h
    · exact exec_traceDrainWrite_idle (.inl h)
    · exact exec_traceDrainWrite_idle (.inr (drainReq_none (s := s.start) (.inl h)))
    · exact exec_traceDrainWrite_idle (.inr (drainReq_none (s := s.start) (.inr h)))

end Sys2Proof.Machine

/-! Fields of single pages that no report reaches, and what a group of registers cleared leaves. -/
namespace Sys2Proof.Machine
open Sys2Proof

/-- Field `g` lies, in its page's first block, from offset 0x100 on of a page other than EVENT: no event and no count reaches it. -/
def Fld.steady (g : Fld) : Bool :=
  decide (0 < pageCount g.page) && decide (0x100 ≤ g.off) && decide (g.off < 0x1000) && decide (g.lsb < 64) && g.page != .event

theorem Fld.steady_iff {g : Fld} : g.steady = true ↔ g.Placed 0 0 ∧ 0x100 ≤ g.off ∧ g.page ≠ .event := by
  simp only [Fld.steady, Fld.Placed, Bool.and_eq_true, decide_eq_true_eq, bne_iff_ne, Nat.mul_zero, Nat.add_zero]
  tauto

/-- `t` reads like `s` in the fields `fs`, each in the first block of its page. -/
def State.SameIn (fs : List Fld) (s t : State) : Prop := ∀ g ∈ fs, t.rd g = s.rd g

section
variable {fs : List Fld} {s t u : State}

theorem State.SameIn.refl (s : State) : s.SameIn fs s := fun _ _ => rfl

theorem State.SameIn.trans (h : State.SameIn fs s t) (k : State.SameIn fs t u) : State.SameIn fs s u :=
  fun g hg => (k g hg).trans (h g hg)

theorem State.SameIn.of_regs (h : t.regs = s.regs) : State.SameIn fs s t := fun g _ => by simp [State.rd, h]

theorem State.SameIn.ite (c : Prop) [Decidable c] (h : State.SameIn fs s t) (k : State.SameIn fs s u) :
    State.SameIn fs s (if c then t else u) := by
  split <;> assumption

theorem State.SameIn.foldl {α : Type} (f : State → α → State) (l : List α) (h : ∀ s, ∀ x ∈ l, State.SameIn fs s (f s x)) (s : State) :
    State.SameIn fs s (l.foldl f s) := by
  induction l generalizing s with
  | nil => exact .refl s
  | cons x l ih => exact (h s x (by simp)).trans (ih (fun s y hy => h s y (by simp [hy])) _)

theorem State.wr_sameIn {f : Fld} {i j : Nat} (v : Nat) (h : ∀ g ∈ fs, g.key 0 0 ≠ f.key i j) : State.SameIn fs s (s.wr f v i j) :=
  fun g hg => State.rd_wr_ne _ _ (h g hg)

theorem State.clearWords_sameIn {f : Fld} {n : Nat} (h : ∀ j ∈ List.range n, ∀ g ∈ fs, g.key 0 0 ≠ f.key 0 j) :
    State.SameIn fs s (s.clearWords f n) :=
  .foldl _ _ (fun _ j hj => State.wr_sameIn 0 (h j hj)) s

section
variable (hf : ∀ g ∈ fs, g.steady = true)
include hf

theorem State.SameRegs.sameIn (h : s.SameRegs t) : State.SameIn fs s t := fun g hg => by
  obtain ⟨placed, high, page⟩ := Fld.steady_iff.1 (hf g hg)
  exact h g 0 0 placed high page

theorem State.raise_sameIn (p : Page) (i b : Nat) (hi : i < pageCount p) : State.SameIn fs s (s.raise p i b) :=
  (State.raise_sameRegs p i b hi).sameIn hf

theorem State.count_sameIn (p : Page) (i c n : Nat) (hi : i < pageCount p) : State.SameIn fs s (s.count p i c n) :=
  (State.count_sameRegs p i c n hi).sameIn hf

theorem State.setRaw_sameIn (p : Page) (i b : Nat) (v : Bool) (hi : i < pageCount p) : State.SameIn fs s (s.setRaw p i b v) := by
  refine (State.wr_sameRegs _ _ _ _ ⟨hi, ?_, ?_⟩ (.inl ?_)).sameIn hf <;> simp [R.HDR_EVT_RAW_RAW]
end
end

variable {s : State}

theorem State.clearWords_reports (f : Fld) (n : Nat) : s.Reports (s.clearWords f n) := .foldl _ _ (fun _ _ => State.wr_reports ..)

end Sys2Proof.Machine

/-! A change of the life cycle (R366, R367, R371; log entry 44 for the marks of use). -/
namespace Sys2Proof.Machine
open Sys2Proof

variable {s : State} {target : Nat}

/-! LC_GO. -/

/-- The change to `target` is open: its key is there, R366 allows it, and no wipe runs. -/
def State.lcMay (s : State) (target : Nat) : Bool :=
  s.rd R.SECURE_LC_KEY_KEY == 0x4C1FEC7C && lcAllowed (s.rd R.SECURE_LC_STATE) target && !s.on R.SECURE_LC_WIPE_BUSY

/-- The change needs a tag (R367). -/
def State.lcNeeds (s : State) : Bool :=
  s.enforced && s.authHeld && (s.rd R.SECURE_LC_STATE == lcPROVISIONED || s.rd R.SECURE_LC_STATE == lcDEPLOYED)

theorem lcMay_iff : s.lcMay target = true ↔ s.rd R.SECURE_LC_KEY_KEY = 0x4C1FEC7C ∧ lcAllowed (s.rd R.SECURE_LC_STATE) target = true ∧
    s.on R.SECURE_LC_WIPE_BUSY = false := by
  simp [State.lcMay, and_assoc]

theorem lcNeeds_iff : s.lcNeeds = true ↔ s.enforced = true ∧ s.authHeld = true ∧
    (s.rd R.SECURE_LC_STATE = lcPROVISIONED ∨ s.rd R.SECURE_LC_STATE = lcDEPLOYED) := by
  simp [State.lcNeeds, and_assoc]

/-- The check of the tag of a change to `target`. -/
def State.lcTag (s : State) (target : Nat) : State × Bool :=
  s.checkTag (tagHeader 0x53 target s.authSeq 0) [] (s.tagBytes R.SECURE_LC_TAG_TAG)

/-- The wipe of a change to `target` begins. -/
def State.lcBegin (s : State) (target : Nat) : State :=
  { s.wr R.SECURE_LC_WIPE_BUSY 1 with sec := { s.sec with wipe := some target } }

theorem lcGo_closed (h : s.lcMay target = false) : s.lcGo target = s.lcUsed.wr R.SECURE_LC_CTL_LC_REFUSED 1 := by
  unfold State.lcMay at h
  simp [State.lcGo, h]

section
variable (hm : s.lcMay target = true)
include hm

theorem lcGo_untagged (hn : s.lcNeeds = false) : s.lcGo target = s.lcUsed.lcBegin target := by
  unfold State.lcMay at hm
  unfold State.lcNeeds at hn
  simp only [State.lcGo, hm, hn, Bool.and_false, Bool.false_eq_true, if_false, if_true]
  rfl

/-- A change that needs a tag goes by whether it checks. -/
theorem lcGo_tagged (hn : s.lcNeeds = true) : s.lcGo target =
    if (s.lcTag target).2 then (s.lcTag target).1.lcUsed.lcBegin target
    else (s.lcTag target).1.lcUsed.wr R.SECURE_LC_CTL_LC_REFUSED 1 := by
  unfold State.lcMay at hm
  unfold State.lcNeeds at hn
  simp only [State.lcGo, hm, hn, Bool.and_self, if_true]
  rfl
end

/-! LC_DONE. -/

/-- What a change to `target` leaves: no key held and none marked used, tags not enforced, no tamper, and a new AUTH_SEQ. -/
def State.LcEnded (s t : State) (target : Nat) : Prop :=
  t.sec = { s.sec with kId := [], kAuth := [], resp := none, wipe := none } ∧ t.fresh = s.fresh + 1 ∧
  t.rd R.SECURE_LC_STATE = target % 4 ∧ t.rd R.SECURE_LC_WIPE_BUSY = 0 ∧ t.rd R.SECURE_LC_TAMPERED = 0 ∧ t.rd R.SECURE_CTL_ENFORCE = 0 ∧
  t.rd R.SECURE_LC_K_ID_HELD = 0 ∧ t.rd R.SECURE_LC_K_AUTH_HELD = 0 ∧ t.rd R.SECURE_LC_K_ID_USED = 0 ∧ t.rd R.SECURE_LC_K_AUTH_USED = 0 ∧
  t.rd R.SECURE_AUTH_SEQ_SEQ = (Config.entropy s.fresh).toNat

theorem wipeKeys_sec : s.wipeKeys.sec = { s.sec with kId := [], kAuth := [], resp := none } := by
  unfold State.wipeKeys
  rw [State.clearWords_reports R.SECURE_RESP_RESP 4]
  rfl

theorem wipeKeys_fresh : s.wipeKeys.fresh = s.fresh := by
  unfold State.wipeKeys
  rw [State.clearWords_reports R.SECURE_RESP_RESP 4]
  rfl

/-- A wipe leaves neither key held (R367, R368). -/
theorem wipeKeys_held : s.wipeKeys.rd R.SECURE_LC_K_ID_HELD = 0 ∧ s.wipeKeys.rd R.SECURE_LC_K_AUTH_HELD = 0 := by
  have kept {u : State} : State.SameIn [R.SECURE_LC_K_ID_HELD, R.SECURE_LC_K_AUTH_HELD] u (u.clearWords R.SECURE_RESP_RESP 4) :=
    State.clearWords_sameIn (by decide)
  unfold State.wipeKeys
  rw [kept _ (by simp), kept _ (by simp)]
  simp (disch := decide) [State.rd_wr_ne]

/-- The registers that the end of a change to `target` writes, after the wipe and the new AUTH_SEQ. -/
def State.lcRegs (s : State) (target : Nat) : State :=
  (((((s.wipeKeys.newAuthSeq.wr R.SECURE_CTL_ENFORCE 0).wr R.SECURE_LC_TAMPERED 0).wr R.SECURE_LC_K_ID_USED 0).wr
    R.SECURE_LC_K_AUTH_USED 0).wr R.SECURE_LC_STATE target).wr R.SECURE_LC_WIPE_BUSY 0

theorem lcEnd_eq : s.lcEnd target = { s.lcRegs target with sec := { (s.lcRegs target).sec with wipe := none } } := rfl

theorem lcEnd_ended (s : State) (target : Nat) : s.LcEnded (s.lcEnd target) target := by
  obtain ⟨idHeld, authHeld⟩ := wipeKeys_held (s := s)
  have seq : (Config.entropy s.fresh).toNat % 2 ^ 64 = (Config.entropy s.fresh).toNat := Nat.mod_eq_of_lt (Config.entropy s.fresh).isLt
  have reads (g : Fld) : (s.lcEnd target).rd g = (s.lcRegs target).rd g := rfl
  have started (g : Fld) : s.wipeKeys.takeFresh.rd g = s.wipeKeys.rd g := rfl
  unfold State.LcEnded
  simp only [reads, State.lcRegs, State.newAuthSeq]
  refine ⟨?sec, ?fresh, ?state, ?wipe, ?tampered, ?enforce, ?idHeld, ?authHeld, ?idUsed, ?authUsed, ?seq⟩
  case sec => simp [lcEnd_eq, State.lcRegs, State.newAuthSeq, wipeKeys_sec]
  case fresh => simp [lcEnd_eq, State.lcRegs, State.newAuthSeq, wipeKeys_fresh]
  case seq =>
    simp (disch := decide) only [State.rd_wr_ne, State.rd_wr_same, wipeKeys_fresh]
    exact seq
  case state =>
    simp (disch := decide) only [State.rd_wr_ne, State.rd_wr_same]
    rfl
  all_goals simp (disch := decide) [State.rd_wr_ne, started, idHeld, authHeld]

/-- The event of the end reaches none of this. -/
theorem State.LcEnded.raise {t : State} (h : s.LcEnded t target) : s.LcEnded (t.raise .secure 0 5) target := by
  have kept : State.SameIn [R.SECURE_LC_STATE, R.SECURE_LC_WIPE_BUSY, R.SECURE_LC_TAMPERED, R.SECURE_CTL_ENFORCE, R.SECURE_LC_K_ID_HELD,
      R.SECURE_LC_K_AUTH_HELD, R.SECURE_LC_K_ID_USED, R.SECURE_LC_K_AUTH_USED, R.SECURE_AUTH_SEQ_SEQ] t (t.raise .secure 0 5) :=
    State.raise_sameIn (by decide) .secure 0 5 (by decide)
  have sec : (t.raise .secure 0 5).sec = t.sec := by rw [State.raise_reports]
  have fresh : (t.raise .secure 0 5).fresh = t.fresh := by rw [State.raise_reports]
  unfold State.LcEnded at h ⊢
  rw [sec, fresh]
  simpa [State.SameIn, h] using kept

theorem exec_lcGo_served {target : BitVec 2} (hs : s.served .secure 0 = true) :
    exec (.lcGo target) s = .next (s.start.lcGo target.toNat) := State.onPage_served (f := fun t => t.lcGo target.toNat) hs

theorem exec_lcDone_some (h : s.sec.wipe = some target) : exec .lcDone s = .next ((s.start.lcEnd target).raise .secure 0 5) := by
  simp [exec, execLcDone, h, ok]

/-- Settles O37, by whether the change is open, whether it needs a tag and whether the tag checks. -/
theorem lifeCycleChanges : Obligations.LifeCycleChanges := by
  unfold Obligations.LifeCycleChanges
  intro s
  refine ⟨fun hs target => ⟨fun hm => ?closed, fun hm hn => ?free, fun hm hn ht => ?checks, fun hm hn ht => ?fails⟩, fun target h => ?ended⟩
  case closed =>
    have shut : s.start.lcMay target.toNat = false := Bool.eq_false_iff.2 fun h => hm (lcMay_iff.1 h)
    exact (exec_lcGo_served hs).trans (congrArg _ (lcGo_closed shut))
  case free =>
    have needless : s.start.lcNeeds = false := Bool.eq_false_iff.2 fun h => hn (lcNeeds_iff.1 h)
    exact (exec_lcGo_served hs).trans (congrArg _ (lcGo_untagged (s := s.start) (lcMay_iff.2 hm) needless))
  case checks =>
    exact (exec_lcGo_served hs).trans (congrArg _ ((lcGo_tagged (s := s.start) (lcMay_iff.2 hm) (lcNeeds_iff.2 hn)).trans (if_pos ht)))
  case fails =>
    have fails : ¬ (s.start.lcTag target.toNat).2 = true := by simpa [State.lcTag] using ht
    exact (exec_lcGo_served hs).trans (congrArg _ ((lcGo_tagged (s := s.start) (lcMay_iff.2 hm) (lcNeeds_iff.2 hn)).trans (if_neg fails)))
  case ended => exact ⟨_, exec_lcDone_some h, (lcEnd_ended s.start target).raise⟩

end Sys2Proof.Machine

/-! Key loads, ENFORCE, the identity response and TAMPER_N (R366, R368, R369). -/
namespace Sys2Proof.Machine
open Sys2Proof

variable {s : State}

/-- What R366 and R368 ask of a key load. -/
def State.LoadOpen (s : State) (used : Fld) : Prop :=
  s.enforced = false ∧ s.on R.SECURE_LC_TAMPER_IN = false ∧
  (s.rd R.SECURE_LC_STATE = lcPROVISIONED ∨ (s.rd R.SECURE_LC_STATE = lcDEPLOYED ∧ s.on used = false))

theorem mayLoad_iff {used : Fld} : s.mayLoad (s.on used) = true ↔ s.LoadOpen used := by
  simp [State.mayLoad, State.LoadOpen, and_assoc]

/-- K_ID held and its fingerprint shown. -/
def State.idLoaded (s : State) : State :=
  ({ s with sec := { s.sec with kId := s.keyIn } }.wr R.SECURE_LC_K_ID_HELD 1).wr R.SECURE_KEY_ID_ID_FP (keyPrint s.keyIn)

/-- K_AUTH held and its fingerprint shown. -/
def State.authLoaded (s : State) : State :=
  ({ s with sec := { s.sec with kAuth := s.keyIn } }.wr R.SECURE_LC_K_AUTH_HELD 1).wr R.SECURE_KEY_ID_AUTH_FP (keyPrint s.keyIn)

@[simp] theorem idLoaded_state : s.idLoaded.rd R.SECURE_LC_STATE = s.rd R.SECURE_LC_STATE := by
  unfold State.idLoaded
  simp (disch := decide) only [State.rd_wr_ne]
  rfl

@[simp] theorem authLoaded_state : s.authLoaded.rd R.SECURE_LC_STATE = s.rd R.SECURE_LC_STATE := by
  unfold State.authLoaded
  simp (disch := decide) only [State.rd_wr_ne]
  rfl

theorem loadIdKey_eq : s.loadIdKey = if !s.mayLoad (s.on R.SECURE_LC_K_ID_USED) then s.wr R.SECURE_AUTH_STAT_KEY_REFUSED 1
    else if s.idLoaded.rd R.SECURE_LC_STATE = lcDEPLOYED then s.idLoaded.wr R.SECURE_LC_K_ID_USED 1 else s.idLoaded := rfl

theorem loadAuthKey_eq : s.loadAuthKey = if !s.mayLoad (s.on R.SECURE_LC_K_AUTH_USED) then s.wr R.SECURE_AUTH_STAT_KEY_REFUSED 1
    else if s.authLoaded.rd R.SECURE_LC_STATE = lcDEPLOYED then s.authLoaded.wr R.SECURE_LC_K_AUTH_USED 1 else s.authLoaded := rfl

theorem loadIdKey_closed (h : ¬ s.LoadOpen R.SECURE_LC_K_ID_USED) : s.loadIdKey = s.wr R.SECURE_AUTH_STAT_KEY_REFUSED 1 :=
  if_pos (by rw [Bool.eq_false_iff.2 (mayLoad_iff.not.2 h)]; rfl)

theorem loadAuthKey_closed (h : ¬ s.LoadOpen R.SECURE_LC_K_AUTH_USED) : s.loadAuthKey = s.wr R.SECURE_AUTH_STAT_KEY_REFUSED 1 :=
  if_pos (by rw [Bool.eq_false_iff.2 (mayLoad_iff.not.2 h)]; rfl)

/-- An open load marks the key used in DEPLOYED alone. -/
theorem loadIdKey_open (h : s.LoadOpen R.SECURE_LC_K_ID_USED) : s.loadIdKey =
    if s.rd R.SECURE_LC_STATE = lcDEPLOYED then s.idLoaded.wr R.SECURE_LC_K_ID_USED 1 else s.idLoaded := by
  rw [loadIdKey_eq, mayLoad_iff.2 h, idLoaded_state]
  rfl

theorem loadAuthKey_open (h : s.LoadOpen R.SECURE_LC_K_AUTH_USED) : s.loadAuthKey =
    if s.rd R.SECURE_LC_STATE = lcDEPLOYED then s.authLoaded.wr R.SECURE_LC_K_AUTH_USED 1 else s.authLoaded := by
  rw [loadAuthKey_eq, mayLoad_iff.2 h, authLoaded_state]
  rfl

theorem lcPROVISIONED_ne {n : Nat} (h : n = lcPROVISIONED) : n ≠ lcDEPLOYED := by
  subst h
  decide

theorem enforceWrite_true : s.enforceWrite true =
    if (s.rd R.SECURE_LC_STATE = lcPROVISIONED ∨ s.rd R.SECURE_LC_STATE = lcDEPLOYED) ∧ s.authHeld = true
    then s.wr R.SECURE_CTL_ENFORCE 1 else s := by
  simp [State.enforceWrite]

theorem enforceWrite_false : s.enforceWrite false =
    if s.rd R.SECURE_LC_STATE = lcPROVISIONED then s.wr R.SECURE_CTL_ENFORCE 0 else s := by
  simp [State.enforceWrite]

theorem keyCmd_loadId : s.keyCmd 2 = s.loadIdKey.clearWords R.SECURE_KEY_IN_KEY 8 := by
  simp [State.keyCmd, show Nat.testBit 2 1 = true by decide, show Nat.testBit 2 0 = false by decide]

theorem keyCmd_loadAuth : s.keyCmd 1 = s.loadAuthKey.clearWords R.SECURE_KEY_IN_KEY 8 := by
  simp [State.keyCmd, show Nat.testBit 1 1 = false by decide, show Nat.testBit 1 0 = true by decide]

/-- A step that leaves `t` with KEY_IN cleared. -/
def keyUsed (t : State) : Host.Outcome State Fault Refusal := .next (t.clearWords R.SECURE_KEY_IN_KEY 8)

section
variable (hs : s.served .secure 0 = true)
include hs

theorem exec_loadId_served : exec .loadId s = keyUsed s.start.loadIdKey :=
  (State.onPage_served (f := fun t => t.keyCmd 2) hs).trans (congrArg _ keyCmd_loadId)

theorem exec_loadAuth_served : exec .loadAuth s = keyUsed s.start.loadAuthKey :=
  (State.onPage_served (f := fun t => t.keyCmd 1) hs).trans (congrArg _ keyCmd_loadAuth)

theorem exec_enforceWrite_served (on : Bool) : exec (.enforceWrite on) s = .next (s.start.enforceWrite on) :=
  State.onPage_served (f := fun t => t.enforceWrite on) hs

theorem exec_respond_served : exec .respond s = .next s.start.respond := State.onPage_served (f := State.respond) hs
end

/-- The response to the challenge in CHAL (R369). -/
def State.idAnswer (s : State) : List Byte :=
  (hmacSha256 s.sec.kId (0x49 :: List.replicate 31 0 ++ (List.range 8).flatMap (fun j => leBytes 4 (s.rd R.SECURE_CHAL_CHAL 0 j)))).take 16

theorem respond_begins (hk : s.idHeld = true) (hb : s.on R.SECURE_ID_CMD_BUSY = false) : s.respond =
    { s.wr R.SECURE_ID_CMD_BUSY 1 with sec := { s.sec with resp := some s.idAnswer } } :=
  if_neg (by simp [hk, hb])

/-- The response `r` in RESP, and BUSY clear (R369). -/
def State.respShown (s : State) (r : List Byte) : State :=
  (List.range 4).foldl (fun t j => t.wr R.SECURE_RESP_RESP (ofLe (sliceBytes r (4 * j) 4)) 0 j) (s.wr R.SECURE_ID_CMD_BUSY 0)

theorem exec_idResponseReady_due {r : List Byte} (hb : s.on R.SECURE_ID_CMD_BUSY = true) (hr : s.sec.resp = some r) :
    exec .idResponseReady s = .next { s.start.respShown r with sec := { (s.start.respShown r).sec with resp := none } } := by
  simp [exec, execIdResponseReady, hb, hr, ok, State.respShown]

section
variable (hd : s.domUp 0 = true)
include hd

theorem exec_tamper_up :
    exec .tamper s = .next (((s.start.wipeKeys.wr R.SECURE_LC_TAMPERED 1).wr R.SECURE_LC_TAMPER_IN 1).raise .secure 0 3) :=
  if_neg (by simp [hd])

theorem exec_tamperNRelease_up : exec .tamperNRelease s = .next (s.start.wr R.SECURE_LC_TAMPER_IN 0) :=
  if_neg (by simp [hd])
end

/-- Settles O38, by the command and what R366 and R368 keep open. -/
theorem keysAndTamper : Obligations.KeysAndTamper := by
  unfold Obligations.KeysAndTamper
  intro s
  refine ⟨fun hs => ⟨fun h => ?idShut, fun h => ?authShut, fun h => ⟨fun hp => ?idNew, fun hd => ?idUsed⟩,
    fun h => ⟨fun hp => ?authNew, fun hd => ?authUsed⟩, ⟨fun h => ?enforced, fun h => ?kept⟩, fun h => ?freed, fun h => ?bound,
    fun hk hb => ?respond⟩, fun r hb hr => exec_idResponseReady_due hb hr, fun hd => ⟨exec_tamper_up hd, exec_tamperNRelease_up hd⟩⟩
  case idShut => exact (exec_loadId_served hs).trans (congrArg keyUsed (loadIdKey_closed (s := s.start) h))
  case authShut => exact (exec_loadAuth_served hs).trans (congrArg keyUsed (loadAuthKey_closed (s := s.start) h))
  case idNew =>
    exact (exec_loadId_served hs).trans (congrArg keyUsed ((loadIdKey_open (s := s.start) h).trans (if_neg (lcPROVISIONED_ne hp))))
  case idUsed =>
    exact (exec_loadId_served hs).trans (congrArg keyUsed ((loadIdKey_open (s := s.start) h).trans (if_pos hd)))
  case authNew =>
    exact (exec_loadAuth_served hs).trans (congrArg keyUsed ((loadAuthKey_open (s := s.start) h).trans (if_neg (lcPROVISIONED_ne hp))))
  case authUsed =>
    exact (exec_loadAuth_served hs).trans (congrArg keyUsed ((loadAuthKey_open (s := s.start) h).trans (if_pos hd)))
  case enforced => exact (exec_enforceWrite_served hs true).trans (congrArg _ ((enforceWrite_true (s := s.start)).trans (if_pos h)))
  case kept => exact (exec_enforceWrite_served hs true).trans (congrArg _ ((enforceWrite_true (s := s.start)).trans (if_neg h)))
  case freed => exact (exec_enforceWrite_served hs false).trans (congrArg _ ((enforceWrite_false (s := s.start)).trans (if_pos h)))
  case bound => exact (exec_enforceWrite_served hs false).trans (congrArg _ ((enforceWrite_false (s := s.start)).trans (if_neg h)))
  case respond => exact (exec_respond_served hs).trans (congrArg _ (respond_begins (s := s.start) hk hb))

end Sys2Proof.Machine

/-! The scratchpad's start-up and its background test (R357, R362 to R364). -/
namespace Sys2Proof.Machine
open Sys2Proof

variable {s : State}

/-! SP_INIT_DONE. -/

@[simp] theorem State.raise_spBad (p : Page) (i b : Nat) : (s.raise p i b).spBad = s.spBad := by rw [State.raise_reports]

@[simp] theorem State.readyChk_spBad (s : State) : s.readyChk.spBad = s.spBad := by
  simp only [State.readyChk, apply_ite State.spBad, State.raise_spBad, ite_self]

/-- Every word 0 with good parity, and INIT_DONE set. -/
def State.spCleared (s : State) : State := { s with sp := [], spBad := [] }.wr R.SECURE_SP_STAT_INIT_DONE 1

@[simp] theorem spCleared_sp : s.spCleared.sp = [] := rfl

@[simp] theorem spCleared_spBad : s.spCleared.spBad = [] := rfl

theorem exec_spInitDone_up (hd : s.domUp 0 = true) (hi : s.on R.SECURE_SP_STAT_INIT_DONE = false) :
    exec .spInitDone s = .next s.start.spCleared.readyChk :=
  if_neg (by simp [hd, hi])

theorem spCleared_reads_zero (o : Nat) : s.spCleared.readyChk.spByte o = 0 := by
  rw [State.spByte, State.readyChk_sp, spCleared_sp]
  rfl

theorem spCleared_memWf : s.spCleared.readyChk.memWf = true := by
  simp only [State.memWf, Memory.wf, State.readyChk_sp, spCleared_sp]
  rfl

/-! The background test. -/

/-- The test counts the line and moves on, after line 8191 to line 0 with a pass more. -/
def State.stMoveOn (t : State) : State :=
  if t.rd R.SECURE_ST_STAT_LINE = 8191 then ((t.wr R.SECURE_ST_STAT_LINE 8192).mark .line).bump R.SECURE_ST_STAT_PASSES
  else (t.wr R.SECURE_ST_STAT_LINE (t.rd R.SECURE_ST_STAT_LINE + 1)).mark .line

theorem stNext_eq : s.stNext = s.stMoveOn := by
  unfold State.stNext State.stMoveOn
  by_cases h : s.rd R.SECURE_ST_STAT_LINE = 8191
  · simp only [h, if_true]
  · simp only [h, if_false]

section
variable (hr : s.stRuns = true) (hg : s.ran .line (600 * s.rd R.SECURE_ST_CTL_GAP) = true)
include hr hg

theorem stMay_start : s.start.stMay = true := by
  have may : s.stMay = true := by simp [State.stMay, hr, hg]
  exact may

theorem exec_stStall_may : exec .stStall s = .next (s.start.count .secure 0 4).stMoveOn := by
  rw [← stNext_eq]
  exact if_neg (by simp [stMay_start hr hg])

theorem exec_stLineTest_may (r : LineResult) : exec (.stLineTest r) s =
    .next ((((s.start.stFail (64 * s.rd R.SECURE_ST_STAT_LINE) r.march).stRestore (64 * s.rd R.SECURE_ST_STAT_LINE) r.restore).count
      .secure 0 3).stMoveOn) := by
  rw [← stNext_eq]
  exact if_neg (by simp [stMay_start hr hg])
end

/-- One byte of the line differs when it is read back (R364). -/
theorem stRestore_one {base o : Nat} (ho : o < 64) : s.stRestore base [o] =
    (({ s with spBad := mput s.spBad (base + o) 1 }.wr R.SECURE_SP_STAT_RESTORE_ERR 1).raise .secure 0 2) := by
  simp [State.stRestore, ho]

/-- Settles O39, by what the test of the line finds. -/
theorem scratchpadStartAndTest : Obligations.ScratchpadStartAndTest := by
  unfold Obligations.ScratchpadStartAndTest
  intro s
  refine ⟨fun hd hi => ⟨_, exec_spInitDone_up hd hi, rfl, spCleared_reads_zero, by simp, spCleared_memWf⟩, fun hr hg =>
    ⟨exec_stStall_may hr hg, exec_stLineTest_may hr hg _, fun b => exec_stLineTest_may hr hg _, fun o ho => ?unrestored⟩⟩
  case unrestored =>
    exact (exec_stLineTest_may hr hg _).trans (congrArg (fun t => Host.Outcome.next (t.count .secure 0 3).stMoveOn) (stRestore_one (s := s.start) ho))

end Sys2Proof.Machine

/-! Records from the mate: what is checked, what a record does when it is taken, and held records at their RELEASE (R295 to R298, R306). -/
namespace Sys2Proof.Machine
open Sys2Proof

variable {s t : State} {l type : Nat} {r : List Byte} {f : State → State}

/-! The check of a record. -/

/-- RCRC is right. -/
def recRight (r : List Byte) : Prop := crc16 (bytesToBits (r.take 14)) = ofBe (r.drop 14)

/-- The record is the one expected, or the first. -/
def State.recInOrder (s : State) (r : List Byte) : Prop := s.mate.rxSeq = none ∨ s.mate.rxSeq = some (recSeq r)

/-- The expected RSEQ follows the record's. -/
def State.recNext (s : State) (r : List Byte) : State := s.updMate (fun m => { m with rxSeq := some ((recSeq r + 1) % 65536) })

theorem recCheck_deaf (h : s.dxEn = false ∨ s.dxSync l = false) : s.recCheck l r = (s, false) :=
  if_pos (by simpa using h)

section
variable (hd : s.dxEn = true) (hl : s.dxSync l = true)
include hd hl

theorem recCheck_wrong (hc : ¬ recRight r) : s.recCheck l r = ((s.count .mate 0 3).dropCur, false) := by
  unfold recRight at hc
  simp [State.recCheck, hd, hl, hc]

theorem recCheck_inOrder (hc : recRight r) (hq : s.recInOrder r) : s.recCheck l r = (s.recNext r, true) := by
  unfold recRight at hc
  rcases hq with hq | hq <;> simp [State.recCheck, State.recNext, hd, hl, hc, hq]

theorem recCheck_skipped {e : Nat} (hc : recRight r) (he : s.mate.rxSeq = some e) (hq : e ≠ recSeq r) :
    s.recCheck l r = (((s.recNext r).count .mate 0 3).dropCur, true) := by
  unfold recRight at hc
  simp [State.recCheck, State.recNext, hd, hl, hc, he, hq]
end

theorem recCome_formless (h : r.length ≠ 16 ∨ (r.getD 0 0).toNat ≠ type) : s.recCome type l r f = .fault .illFormed := if_pos h

theorem recCome_formed (h : r.length = 16) (ht : (r.getD 0 0).toNat = type) :
    s.recCome type l r f = if (s.recCheck l r).2 then ok (f (s.recCheck l r).1) else ok (s.recCheck l r).1 :=
  if_neg (not_or.2 ⟨fun k => k h, fun k => k ht⟩)

/-- A record of its type that does not pass the check does nothing more. -/
theorem recCome_stopped (h : r.length = 16) (ht : (r.getD 0 0).toNat = type) (hc : s.recCheck l r = (t, false)) :
    s.recCome type l r f = .next t := by
  rw [recCome_formed h ht, hc]
  rfl

/-- A record of its type that passes the check does what it does. -/
theorem recCome_passed (h : r.length = 16) (ht : (r.getD 0 0).toNat = type) (hc : s.recCheck l r = (t, true)) :
    s.recCome type l r f = .next (f t) := by
  rw [recCome_formed h ht, hc]
  rfl

/-- A record in order that the unit takes. -/
theorem recTake_taken (h : r.length = 16) (ht : (r.getD 0 0).toNat = type) (hc : s.recCheck l r = (t, true))
    (hm : t.takesMirror = true) : s.recTake type l r f = .next (f t) :=
  (recCome_passed h ht hc).trans (congrArg _ (if_pos hm))

/-! What a record does when it is taken. -/

/-- A held record behind the others. -/
def State.holdRec (s : State) (row : Nat) (k : HeldKind) : State := s.updMate (fun m => { m with held := m.held ++ [⟨row, false, k⟩] })

theorem recHold_early {k : HeldKind} (h : s.rowPassed (s.recRow r) = false) : s.recHold r k = s.holdRec (s.recRow r) k := by
  simp [State.recHold, State.holdRec, h]

theorem recHold_late {k : HeldKind} (h : s.rowPassed (s.recRow r) = true) :
    s.recHold r k = (((s.raise .mate 0 5).count .mate 0 4).dropCur).holdRec (s.recRow r) k := by
  simp [State.recHold, State.holdRec, h]

/-- A state record for the hinge of frame `f`. -/
def State.dueRec (s : State) (f : Nat) (r : List Byte) : State := s.updMate (fun m => { m with due := m.due ++ [(f, r)] })

theorem recDue_early (h : s.frame < s.recFrame r) : s.recDue r = s.dueRec (s.recFrame r) r := by
  simp [State.recDue, State.dueRec, Nat.not_le.2 h]

theorem recDue_late (h : s.recFrame r ≤ s.frame) : s.recDue r = (s.count .mate 0 5).dueRec (s.frame + 1) r := by
  simp [State.recDue, State.dueRec, State.frame] at h ⊢
  simp [h]

theorem pullWord_pulling {b : Nat} (h : s.on R.MATE_STAT_PULL_BUSY = true) : s.pullWord b =
    (s.setBank (bit b 62) ((s.bank (bit b 62)).put (b2n (bit b 63) * 2 ^ 22 + bits b 40 22) (bits b 0 26))).sumStale (bit b 62) :=
  if_neg (by simp [h])

theorem pullWord_idle {b : Nat} (h : s.on R.MATE_STAT_PULL_BUSY = false) : s.pullWord b = s := if_pos (by simp [h])

/-- A unit that follows the mirror is no PRIMARY. -/
theorem takesMirror_not_primary (h : s.takesMirror = true) : s.mode ≠ mPRIMARY := by
  intro hp
  simp [State.takesMirror, hp, mPRIMARY, mSTANDBY, mISOLATE] at h

theorem pullEnd_follows {no : Nat} (hm : s.takesMirror = true) (hb : s.on R.MATE_STAT_PULL_BUSY = true) :
    s.pullEnd no = (s.wr R.MATE_STAT_PULL_BUSY 0).wr R.MATE_STAT_RTS_STEP 3 := by
  simp [State.pullEnd, takesMirror_not_primary hm, hm, hb]

theorem pullEnd_idle {no : Nat} (hm : s.mode ≠ mPRIMARY ∨ s.mc.inited = false)
    (hb : s.takesMirror = false ∨ s.on R.MATE_STAT_PULL_BUSY = false) : s.pullEnd no = s := by
  by_cases hp : s.mode = mPRIMARY
  · simp [State.pullEnd, hp, hm.resolve_left (fun h => h hp)]
  · rcases hb with hb | hb <;> simp [State.pullEnd, hp, hb]

theorem pullEnd_primary {no : Nat} (hm : s.mode = mPRIMARY) (hi : s.mc.inited = true) :
    s.pullEnd no = s.updMate (fun m => { m with serve := some 0, serveNo := no }) := by
  simp [State.pullEnd, hm, hi]

/-- Settles O40, by the type of the record. -/
theorem mirrorRecordsTaken : Obligations.MirrorRecordsTaken := by
  unfold Obligations.MirrorRecordsTaken
  intro l r s h hd hl hc hq hm
  have checked : s.start.recCheck l.val r = (s.start.recNext r, true) := recCheck_inOrder (s := s.start) hd hl hc hq
  have follows : (s.start.recNext r).takesMirror = true := hm
  have held {n : Nat} (ht : (r.getD 0 0).toNat = n) (k : HeldKind) : s.start.recTake n l.val r (fun s => s.recHold r k) =
      .next ((s.start.recNext r).recHold r k) := recTake_taken h ht checked follows
  have waits {n : Nat} (ht : (r.getD 0 0).toNat = n) : s.start.recTake n l.val r (fun s => s.recDue r) =
      .next ((s.start.recNext r).recDue r) := recTake_taken h ht checked follows
  have holds {n : Nat} (ht : (r.getD 0 0).toNat = n) (k : HeldKind) :
      (s.rowPassed (s.recRow r) = false → s.start.recTake n l.val r (fun s => s.recHold r k) =
        .next ((s.start.recNext r).holdRec (s.recRow r) k)) ∧
      (s.rowPassed (s.recRow r) = true → s.start.recTake n l.val r (fun s => s.recHold r k) =
        .next (((((s.start.recNext r).raise .mate 0 5).count .mate 0 4).dropCur).holdRec (s.recRow r) k)) :=
    ⟨fun e => (held ht k).trans (congrArg _ (recHold_early (s := s.start.recNext r) e)),
      fun e => (held ht k).trans (congrArg _ (recHold_late (s := s.start.recNext r) e))⟩
  have dues {n : Nat} (ht : (r.getD 0 0).toNat = n) :
      (s.frame < s.recFrame r → s.start.recTake n l.val r (fun s => s.recDue r) = .next ((s.start.recNext r).dueRec (s.recFrame r) r)) ∧
      (s.recFrame r ≤ s.frame → s.start.recTake n l.val r (fun s => s.recDue r) =
        .next (((s.start.recNext r).count .mate 0 5).dueRec (s.frame + 1) r)) :=
    ⟨fun e => (waits ht).trans (congrArg _ (recDue_early (s := s.start.recNext r) e)),
      fun e => (waits ht).trans (congrArg _ (recDue_late (s := s.start.recNext r) e))⟩
  refine ⟨fun ht => holds ht _, fun ht => holds ht _, dues, dues, dues, dues, dues, dues, dues, fun ht => ⟨fun e => ?word, fun e => ?still⟩,
    fun ht => ⟨fun e => ?ends, fun e => ?stays⟩⟩
  case word => exact (recTake_taken (f := fun t => t.pullWord (recBody r)) h ht checked follows).trans (congrArg _ (pullWord_pulling (s := s.start.recNext r) e))
  case still => exact (recTake_taken (f := fun t => t.pullWord (recBody r)) h ht checked follows).trans (congrArg _ (pullWord_idle (s := s.start.recNext r) e))
  case ends => exact (recCome_passed (f := fun t => t.pullEnd (recBody r)) h ht checked).trans (congrArg _ (pullEnd_follows (s := s.start.recNext r) follows e))
  case stays =>
    exact (recCome_passed (f := fun t => t.pullEnd (recBody r)) h ht checked).trans
      (congrArg _ (pullEnd_idle (s := s.start.recNext r) (.inl (takesMirror_not_primary follows)) (.inr e)))

/-! Records that are not taken. -/

/-- The row `c` of records of type `type` on lane `l` does `f`, which is nothing where the mirror is not followed and no pull is to be
served. -/
structure MirRow (l : Nat) (r : List Byte) (type : Nat) (c : Instr) (f : State → State) : Prop where
  come : ∀ s, exec c s = s.start.recCome type l r f
  idle : ∀ t : State, t.takesMirror = false → (type ≠ 0xB ∨ t.mode ≠ mPRIMARY ∨ t.mc.inited = false) → f t = t
  ends : type = 0xB → f = fun t => t.pullEnd (recBody r)

/-- A row that only a unit following the mirror applies. -/
theorem MirRow.of_take {c : Instr} (h : ∀ s : State, exec c s = s.start.recTake type l r f) (ht : type ≠ 0xB) :
    MirRow l r type c (fun t => if t.takesMirror then f t else t) :=
  ⟨h, fun t hm _ => if_neg (by simp [hm]), fun e => absurd e ht⟩

/-- The rows of records, with their types. -/
def mirRows (l : Fin 2) (r : List Byte) : List (Nat × Instr) :=
  [(1, .mirReq l r), (2, .mirCommit l r), (3, .mirSel l r), (4, .mirGrp l r), (5, .mirEqcfg l r), (6, .mirPwcfg l r), (7, .mirPwctx l r),
    (8, .mirTiming l r), (9, .mirTime l r), (0xA, .mirPull l r), (0xB, .mirPullEnd l r)]

theorem mirRow_of_mem {l : Fin 2} {x : Nat × Instr} (hx : x ∈ mirRows l r) : ∃ f, MirRow l.val r x.1 x.2 f := by
  simp only [mirRows, List.mem_cons, List.not_mem_nil, or_false] at hx
  have held {n : Nat} {c : Instr} (k : HeldKind) (h : ∀ s : State, exec c s = s.start.recTake n l.val r (fun t => t.recHold r k))
      (hn : n ≠ 0xB) : ∃ f, MirRow l.val r n c f := ⟨_, .of_take h hn⟩
  have due {n : Nat} {c : Instr} (h : ∀ s : State, exec c s = s.start.recTake n l.val r (fun t => t.recDue r)) (hn : n ≠ 0xB) :
      ∃ f, MirRow l.val r n c f := ⟨_, .of_take h hn⟩
  rcases hx with rfl | rfl | rfl | rfl | rfl | rfl | rfl | rfl | rfl | rfl | rfl
  · exact held (.req (BitVec.ofNat 64 (recBody r)) true false) (fun _ => rfl) (by simp)
  · exact held (commitOf (recBody r)) (fun _ => rfl) (by simp)
  iterate 7 · exact due (fun _ => rfl) (by simp)
  · exact ⟨_, .of_take (f := fun t => t.pullWord (recBody r)) (fun _ => rfl) (by simp)⟩
  · refine ⟨fun t => t.pullEnd (recBody r), fun _ => rfl, fun t hm hp => ?_, fun _ => rfl⟩
    exact pullEnd_idle (hp.resolve_left (fun h => h rfl)) (.inl hm)

/-! The mode and the step of the return to service through a loss of the mirror's currency. -/

/-- The fields by which the unit follows the mirror or not. -/
def roleFields : List Fld := [R.GLOBAL_MODE_STAT_CUR, R.MATE_STAT_RTS_STEP]

theorem readyFollow_roleFields : State.SameIn roleFields s s.readyFollow := by
  unfold State.readyFollow
  dsimp only
  refine .ite _ (.refl s) (((State.wr_sameIn _ (by decide)).trans (State.setRaw_sameIn (by decide) .mate 0 6 _ (by decide))).trans
    (State.raise_sameIn (by decide) .mate 0 6 (by decide)))

/-- Outside STANDBY no pull starts. -/
theorem dropCur_roleFields (h : s.mode ≠ mSTANDBY) : State.SameIn roleFields s s.dropCur := by
  have dropped : State.SameIn roleFields s (s.wr R.MATE_STAT_MIR_CUR 0).readyFollow :=
    (State.wr_sameIn 0 (by decide)).trans readyFollow_roleFields
  have mode : (s.wr R.MATE_STAT_MIR_CUR 0).readyFollow.mode = s.mode := dropped _ (by simp [roleFields])
  unfold State.dropCur
  dsimp only
  refine .ite _ (.refl s) ?_
  rw [mode, if_neg (fun k => h k.1)]
  exact dropped

theorem State.SameIn.mode (h : State.SameIn roleFields s t) : t.mode = s.mode := h _ (by simp [roleFields])

theorem State.SameIn.takesMirror (h : State.SameIn roleFields s t) : t.takesMirror = s.takesMirror := by
  have mode : t.mode = s.mode := h.mode
  have step : t.rd R.MATE_STAT_RTS_STEP = s.rd R.MATE_STAT_RTS_STEP := h _ (by simp [roleFields])
  simp [State.takesMirror, mode, step]

theorem not_standby_of_not_takes (h : s.takesMirror = false) : s.mode ≠ mSTANDBY := by
  intro e
  simp [State.takesMirror, e] at h

/-! Held records at their RELEASE. -/

/-- The held record `h` leaves the queue. -/
def State.heldGone (s : State) (h : Held) : State := s.updMate (fun m => { m with held := m.held.erase h })

theorem exec_mirRelease_due {h : Held} (hf : s.mate.held.find? (fun x => s.rowReached x.row) = some h) :
    exec .mirRelease s = .next ((s.start.heldGone h).heldTake h) := by
  have found : s.start.mate.held.find? (fun x => s.start.rowReached x.row) = some h := hf
  simp only [exec, execMirRelease, found]
  rfl

theorem exec_mirRelease_none (hf : s.mate.held.find? (fun x => s.rowReached x.row) = none) : exec .mirRelease s = .next s.start := by
  have found : s.start.mate.held.find? (fun x => s.start.rowReached x.row) = none := hf
  simp only [exec, execMirRelease, found]
  rfl

section
variable {h : Held} {now arm drop : Bool} {e : Nat}

theorem heldTake_req {w : W64} {auth list : Bool} (hk : h.kind = .req w auth list) :
    s.heldTake h = s.enqueue { word := w, auth := auth, list := list } := by
  simp [State.heldTake, hk]

theorem heldTake_cancel (hk : h.kind = .commit now arm drop true e) : s.heldTake h = s.commitCancel := by
  simp [State.heldTake, hk]

theorem heldTake_own (hk : h.kind = .commit now arm drop false e) (ho : h.own = true) : s.heldTake h =
    { s with mc := { s.mc with commit := s.mc.commit.map (fun c : Commit => { c with held := false, ahead := s.mc.queue.length }) } } := by
  simp [State.heldTake, hk, ho]

theorem heldTake_received (hk : h.kind = .commit now arm drop false e) (ho : h.own = false) (hc : s.mc.commit = none)
    (ha : now = true ∨ arm = true) : s.heldTake h = s.commitPend (if now then .now else .arm e drop) false := by
  rcases ha with rfl | rfl <;> simp [State.heldTake, hk, ho, hc]
end

/-- Settles O41, by what the check of the record finds. -/
theorem mirrorRecordsChecked : Obligations.MirrorRecordsChecked := by
  unfold Obligations.MirrorRecordsChecked
  intro s
  refine ⟨?records, fun h hf => ⟨fun w auth list hk => ?req, fun now arm drop e hk => ?cancel, fun now arm drop e hk ho => ?own,
    fun now arm drop e hk ho hc ha => ?received⟩, exec_mirRelease_none⟩
  case req => exact (exec_mirRelease_due hf).trans (congrArg _ (heldTake_req hk))
  case cancel => exact (exec_mirRelease_due hf).trans (congrArg _ (heldTake_cancel hk))
  case own => exact (exec_mirRelease_due hf).trans (congrArg _ (heldTake_own hk ho))
  case received => exact (exec_mirRelease_due hf).trans (congrArg _ (heldTake_received (s := s.start.heldGone h) hk ho hc ha))
  case records =>
    intro l r rows u right x hx
    obtain ⟨f, row⟩ := mirRow_of_mem hx
    rw [row.come]
    refine ⟨fun h => recCome_formless h, fun h ht => ⟨fun hd => recCome_stopped h ht (recCheck_deaf (s := s.start) hd), fun hd hl => ⟨fun hc => ?wrong,
      fun hc hm hp hq => ?idle, fun hc hx hm hi hq => ?serves, fun hc hm hp hq => ?skipped⟩⟩⟩
    case wrong => exact recCome_stopped h ht (recCheck_wrong (s := s.start) hd hl hc)
    case idle =>
      exact (recCome_passed h ht (recCheck_inOrder (s := s.start) hd hl hc hq)).trans (congrArg _ (row.idle _ hm hp))
    case serves =>
      rw [recCome_passed h ht (recCheck_inOrder (s := s.start) hd hl hc hq), row.ends hx]
      exact congrArg _ (pullEnd_primary (s := s.start.recNext r) hm hi)
    case skipped =>
      obtain ⟨e, he, hq⟩ := hq
      have away : ((s.start.recNext r).count .mate 0 3).mode ≠ mSTANDBY := by
        have kept : State.SameIn roleFields (s.start.recNext r) ((s.start.recNext r).count .mate 0 3) :=
          State.count_sameIn (by decide) .mate 0 3 1 (by decide)
        rw [kept.mode]
        exact not_standby_of_not_takes hm
      have kept : State.SameIn roleFields s (((s.start.recNext r).count .mate 0 3).dropCur) :=
        (State.SameIn.of_regs (t := s.start.recNext r) rfl).trans ((State.count_sameIn (by decide) .mate 0 3 1 (by decide)).trans (dropCur_roleFields away))
      refine (recCome_passed h ht (recCheck_skipped (s := s.start) hd hl hc he hq)).trans (congrArg _ (row.idle _ ?_ ?_))
      · rw [kept.takesMirror]
        exact hm
      · rw [kept.mode]
        exact hp.imp_right .inl

end Sys2Proof.Machine

/-! Commands to the mate unit, and the steps of the return to service (R287, R290, R298, R300, R301, R306). -/
namespace Sys2Proof.Machine
open Sys2Proof

variable {s : State}

section
variable (hs : s.served .mate 0 = true)
include hs

theorem exec_dxEnable_served : exec .dxEnable s = .next s.start.dxEnable := if_pos hs

theorem exec_faultWrite_served (f : Bool) : exec (.faultWrite f) s = .next (s.start.wrB R.MATE_CTL_FAULT f) := if_pos hs

theorem exec_swap_served : exec .swap s = .next s.start.swapAsk := if_pos hs

theorem exec_join_served : exec .join s = .next s.start.joinAsk := if_pos hs

theorem exec_matePull_served : exec .matePull s = .next s.start.pullAsk := if_pos hs
end

/-- Both Dexgor records are valid (R290). -/
def State.dxValid (s : State) : Prop := ∀ l ∈ List.range 2, recordOk (s.dxRecord l) = true ∧ recordValid (s.dxRecord l) = true

theorem dxValid_iff : ((List.range 2).all fun l => recordOk (s.dxRecord l) && recordValid (s.dxRecord l)) = true ↔ s.dxValid := by
  simp [State.dxValid]

theorem dxEnable_valid (h : s.dxValid) : s.dxEnable = s.wr R.MATE_CTL_DX_EN 1 := if_pos (dxValid_iff.2 h)

theorem dxEnable_invalid (h : ¬ s.dxValid) : s.dxEnable = s.wr R.MATE_STAT_DX_REFUSED 1 := if_neg (dxValid_iff.not.2 h)

theorem swapAsk_ready (hm : s.mode = mPRIMARY) (hr : s.mateReady = true) : s.swapAsk = s.updMate (fun m => { m with swap := true }) := by
  simp [State.swapAsk, hm, hr]

theorem swapAsk_refused (hm : s.mode = mPRIMARY) (hr : s.mateReady = false) : s.swapAsk = s.wr R.MATE_STAT_SWAP_REFUSED 1 := by
  simp [State.swapAsk, hm, hr]

theorem swapAsk_elsewhere (hm : s.mode ≠ mPRIMARY) : s.swapAsk = s := if_pos hm

theorem joinAsk_begins (hm : s.mode = mISOLATE) (hk : s.rd R.MATE_STAT_RTS_STEP = 0 ∨ s.rd R.MATE_STAT_RTS_STEP = 15) :
    s.joinAsk = (s.wr R.MATE_STAT_RTS_STEP 1).wr R.MATE_STAT_RTS_CAUSE 0 :=
  if_neg (not_or.2 ⟨fun h => h hm, fun h => hk.elim h.1 h.2⟩)

theorem joinAsk_ignored (h : s.mode ≠ mISOLATE ∨ (s.rd R.MATE_STAT_RTS_STEP ≠ 0 ∧ s.rd R.MATE_STAT_RTS_STEP ≠ 15)) : s.joinAsk = s :=
  if_pos h

/-- A pull that starts: BUSY, step 2 and the count. -/
def State.pullBegun (s : State) : State := ((s.wr R.MATE_STAT_PULL_BUSY 1).wr R.MATE_STAT_RTS_STEP 2).count .mate 0 7

theorem pullStart_begins (h : s.on R.MATE_STAT_PULL_BUSY = false) : s.pullStart =
    (s.pullBegun.updMate (fun m => { m with pullNo := m.pullNo + 1 })).mirrorSend 0xB s.pullBegun.absRow (beBytes 8 s.pullBegun.mate.pullNo) :=
  if_neg (by simp [h])

theorem pullStart_busy (h : s.on R.MATE_STAT_PULL_BUSY = true) : s.pullStart = s := if_pos h

theorem pullAsk_standby (h : s.mode = mSTANDBY) : s.pullAsk = s.pullStart := if_pos h

theorem pullAsk_ignored (h : s.mode ≠ mSTANDBY ∨ s.on R.MATE_STAT_PULL_BUSY = true) : s.pullAsk = s := by
  by_cases hm : s.mode = mSTANDBY
  · rw [pullAsk_standby hm, pullStart_busy (h.resolve_left fun k => k hm)]
  · exact if_neg hm

theorem rtsFail_runs (h1 : 1 ≤ s.rd R.MATE_STAT_RTS_STEP) (h4 : s.rd R.MATE_STAT_RTS_STEP ≤ 4) : s.rtsFail =
    (((s.wr R.MATE_STAT_RTS_CAUSE (s.rd R.MATE_STAT_RTS_STEP)).wr R.MATE_STAT_RTS_STEP 15).wr R.MATE_STAT_PULL_BUSY 0).readyFollow.raise
      .mate 0 8 :=
  if_neg (by omega)

theorem rtsFail_none (h : s.rd R.MATE_STAT_RTS_STEP = 0 ∨ 5 ≤ s.rd R.MATE_STAT_RTS_STEP) : s.rtsFail = s := if_pos h

/-- The four sums of the unit are the mate's. -/
def State.sumsAre (u : State) (actD actS editD editS : W32) : Prop :=
  u.rd R.MAPC_ACT_DSUM_SUM = actD.toNat ∧ u.rd R.MAPC_ACT_SSUM_SUM = actS.toNat ∧
  u.rd R.MAPC_EDIT_DSUM_SUM = editD.toNat ∧ u.rd R.MAPC_EDIT_SSUM_SUM = editS.toNat

/-- The comparison of the four sums. -/
def State.sumsSame (u : State) (actD actS editD editS : W32) : Bool :=
  u.rd R.MAPC_ACT_DSUM_SUM == actD.toNat && u.rd R.MAPC_ACT_SSUM_SUM == actS.toNat &&
  u.rd R.MAPC_EDIT_DSUM_SUM == editD.toNat && u.rd R.MAPC_EDIT_SSUM_SUM == editS.toNat

theorem sumsSame_iff {actD actS editD editS : W32} : s.sumsSame actD actS editD editS = true ↔ s.sumsAre actD actS editD editS := by
  simp [State.sumsSame, State.sumsAre, and_assoc]

/-- The mirror is current, its sums compared: the pull is at its fourth step, or over. -/
def State.pullOver (u : State) : State :=
  let m := u.updMate (fun m => { m with sumOk := true })
  ((m.wr R.MATE_STAT_MIR_CUR 1).wr R.MATE_STAT_RTS_STEP (if m.mode = mISOLATE then 4 else 0)).readyFollow

section
variable (hu : s.mateUp = true)
include hu

theorem exec_rtsAlignDone_up (hk : s.rd R.MATE_STAT_RTS_STEP = 1) (hl : s.hbLost = false) (ha : s.aligned = true) :
    exec .rtsAlignDone s = .next s.start.pullStart := by
  have ready : s.start.mateUp = true ∧ s.start.rd R.MATE_STAT_RTS_STEP = 1 ∧ (!s.start.hbLost) = true ∧ s.start.aligned = true :=
    ⟨hu, hk, by simpa [State.hbLost] using hl, ha⟩
  exact if_pos ready

theorem exec_rtsFail_up : exec .rtsFail s = .next s.start.rtsFail := if_pos hu

section
variable (hk : s.rd R.MATE_STAT_RTS_STEP = 3) {actD actS editD editS : W32}
include hk

theorem exec_rtsVerifyDone_up : exec (.rtsVerifyDone actD actS editD editS) s =
    if !s.start.sumActive.sumEditing.sumsSame actD actS editD editS then .next s.start.sumActive.sumEditing.rtsFail
    else if s.start.sumActive.sumEditing.pullOver.mode = mISOLATE then .next (s.start.sumActive.sumEditing.pullOver.updMate
      (fun m => { m with role := some (mSTANDBY, s.start.sumActive.sumEditing.pullOver.frame + 1) }))
    else .next s.start.sumActive.sumEditing.pullOver := by
  have up : s.start.mateUp = true := hu
  simp only [exec, execRtsVerifyDone]
  rw [if_neg (by simp [up, hk])]
  rfl

theorem exec_rtsVerifyDone_differ (h : ¬ s.start.sumActive.sumEditing.sumsAre actD actS editD editS) :
    exec (.rtsVerifyDone actD actS editD editS) s = .next s.start.sumActive.sumEditing.rtsFail := by
  rw [exec_rtsVerifyDone_up hu hk]
  exact if_pos (by simp [Bool.eq_false_iff.2 (sumsSame_iff.not.2 h)])

theorem exec_rtsVerifyDone_same (h : s.start.sumActive.sumEditing.sumsAre actD actS editD editS) :
    exec (.rtsVerifyDone actD actS editD editS) s =
      if s.start.sumActive.sumEditing.pullOver.mode = mISOLATE then .next (s.start.sumActive.sumEditing.pullOver.updMate
        (fun m => { m with role := some (mSTANDBY, s.start.sumActive.sumEditing.pullOver.frame + 1) }))
      else .next s.start.sumActive.sumEditing.pullOver := by
  rw [exec_rtsVerifyDone_up hu hk]
  exact if_neg (by simp [sumsSame_iff.2 h])
end
end

/-- Settles O42, command by command. -/
theorem mateCommands : Obligations.MateCommands := by
  unfold Obligations.MateCommands
  intro s pulls fails step
  refine ⟨fun hs => ⟨⟨fun h => ?valid, fun h => ?invalid⟩, exec_faultWrite_served hs, fun hm hr => ?swaps, fun hm hr => ?refused, fun hm => ?elsewhere,
    fun hm hk => ?joins, fun h => ?ignored, fun hm hb => ?pulls, fun h => ?runs⟩, fun hu => ⟨fun hk hl ha hb => ?aligns, fun h1 h4 => ?fails,
    fun h => ?idle, fun hk actD actS editD editS => ⟨fun h => exec_rtsVerifyDone_differ hu hk h, fun h => ⟨fun hm => ?isolated, fun hm => ?resynced⟩⟩⟩⟩
  case valid => exact (exec_dxEnable_served hs).trans (congrArg _ (dxEnable_valid (s := s.start) h))
  case invalid => exact (exec_dxEnable_served hs).trans (congrArg _ (dxEnable_invalid (s := s.start) h))
  case swaps => exact (exec_swap_served hs).trans (congrArg _ (swapAsk_ready (s := s.start) hm hr))
  case refused => exact (exec_swap_served hs).trans (congrArg _ (swapAsk_refused (s := s.start) hm hr))
  case elsewhere => exact (exec_swap_served hs).trans (congrArg _ (swapAsk_elsewhere (s := s.start) hm))
  case joins => exact (exec_join_served hs).trans (congrArg _ (joinAsk_begins (s := s.start) hm hk))
  case ignored => exact (exec_join_served hs).trans (congrArg _ (joinAsk_ignored (s := s.start) h))
  case pulls =>
    exact (exec_matePull_served hs).trans (congrArg _ ((pullAsk_standby (s := s.start) hm).trans (pullStart_begins (s := s.start) hb)))
  case runs => exact (exec_matePull_served hs).trans (congrArg _ (pullAsk_ignored (s := s.start) h))
  case aligns => exact (exec_rtsAlignDone_up hu hk hl ha).trans (congrArg _ (pullStart_begins (s := s.start) hb))
  case fails => exact (exec_rtsFail_up hu).trans (congrArg _ (rtsFail_runs (s := s.start) h1 h4))
  case idle => exact (exec_rtsFail_up hu).trans (congrArg _ (rtsFail_none (s := s.start) h))
  case isolated => exact (exec_rtsVerifyDone_same hu hk h).trans (if_pos hm)
  case resynced => exact (exec_rtsVerifyDone_same hu hk h).trans (if_neg hm)

end Sys2Proof.Machine

/-! GASP_IN and the mate's CLAIM (R301, R302, R304). -/
namespace Sys2Proof.Machine
open Sys2Proof

variable {s : State} {a b : Bool}

/-- The level of the GASP_IN wire is kept. -/
def State.gaspWired (s : State) (b : Bool) : State := { s.start with pow := { s.pow with gaspWire := b } }

/-- The level of the mate's CLAIM is kept. -/
def State.claimWired (s : State) (b : Bool) : State := { s.start with pow := { s.pow with claimWire := b } }

theorem exec_gaspIn_idle (h : s.mateUp = false ∨ s.on R.MATE_STAT_GASP_IN = true) : exec .gaspIn s = .next (s.gaspWired true) := by
  have none : (!(s.gaspWired true).mateUp || (s.gaspWired true).on R.MATE_STAT_GASP_IN) = true := by
    rcases h with h | h
    · have down : (s.gaspWired true).mateUp = false := h
      simp [down]
    · have on : (s.gaspWired true).on R.MATE_STAT_GASP_IN = true := h
      simp [on]
  exact if_pos none

theorem exec_gaspIn_seen (hu : s.mateUp = true) (h : s.on R.MATE_STAT_GASP_IN = false) :
    exec .gaspIn s = .next (s.gaspWired true).gaspSeen := by
  have up : (s.gaspWired true).mateUp = true := hu
  have off : (s.gaspWired true).on R.MATE_STAT_GASP_IN = false := h
  have sees : ¬ (!(s.gaspWired true).mateUp || (s.gaspWired true).on R.MATE_STAT_GASP_IN) = true := by simp [up, off]
  exact if_neg sees

theorem exec_gaspInRelease_up (hu : s.mateUp = true) : exec .gaspInRelease s =
    .next (((s.gaspWired false).wr R.MATE_STAT_GASP_IN 0).setRaw .mate 0 7 false) := if_pos hu

theorem exec_gaspInRelease_down (hu : s.mateUp = false) : exec .gaspInRelease s = .next (s.gaspWired false) := by
  have down : ¬ (s.gaspWired false).mateUp = true := by
    intro k
    exact Bool.false_ne_true (hu.symm.trans k)
  exact if_neg down

/-- GASP_IN shows, and its event is raised. -/
def State.gaspShown (s : State) : State := ((s.wr R.MATE_STAT_GASP_IN 1).setRaw .mate 0 7 true).raise .mate 0 7

theorem gaspShown_mode : s.gaspShown.mode = s.mode := by
  have kept : State.SameIn [R.GLOBAL_MODE_STAT_CUR] s s.gaspShown :=
    ((State.wr_sameIn 1 (by decide)).trans (State.setRaw_sameIn (by decide) .mate 0 7 _ (by decide))).trans
      (State.raise_sameIn (by decide) .mate 0 7 (by decide))
  exact kept _ (by simp)

theorem gaspShown_absRow : s.gaspShown.absRow = s.absRow := by
  simp [State.absRow, State.row, State.frame, State.cyc, State.gaspShown]

theorem gaspSeen_eq : s.gaspSeen =
    if s.mode = mSTANDBY then s.gaspShown.updMate (fun m => { m with gaspRow := some (s.absRow + 2) }) else s.gaspShown := by
  rw [← gaspShown_absRow, ← gaspShown_mode]
  rfl

theorem exec_claimMateChange_same (h : s.mateUp = false ∨ s.on R.MATE_STAT_CLAIM_MATE = a) :
    exec (.claimMateChange a) s = .next (s.claimWired a) := by
  have none : (!(s.claimWired a).mateUp || (s.claimWired a).on R.MATE_STAT_CLAIM_MATE == a) = true := by
    rcases h with h | h
    · have down : (s.claimWired a).mateUp = false := h
      simp [down]
    · have level : (s.claimWired a).on R.MATE_STAT_CLAIM_MATE = a := h
      simp [level]
  exact if_pos none

theorem exec_claimMateChange_seen (hu : s.mateUp = true) (h : s.on R.MATE_STAT_CLAIM_MATE = !a) :
    exec (.claimMateChange a) s = .next ((s.claimWired a).claimSeen a) := by
  have up : (s.claimWired a).mateUp = true := hu
  have level : (s.claimWired a).on R.MATE_STAT_CLAIM_MATE = !a := h
  have sees : ¬ (!(s.claimWired a).mateUp || (s.claimWired a).on R.MATE_STAT_CLAIM_MATE == a) = true := by simp [up, level]
  exact if_neg sees

/-- CLAIM_MATE shows the new level, and its time is recorded. -/
def State.claimShown (s : State) (a : Bool) : State :=
  (s.updMate (fun m => { m with claimAt := s.now })).wrB R.MATE_STAT_CLAIM_MATE a

theorem claimShown_sameIn : State.SameIn [R.MATE_STAT_CLAIM_OWN, R.HDR_EVT_RAW_RAW .mate] s (s.claimShown a) :=
  (State.SameIn.of_regs (t := s.updMate (fun m => { m with claimAt := s.now })) rfl).trans (State.wr_sameIn _ (by decide))

theorem claimShown_own : (s.claimShown a).on R.MATE_STAT_CLAIM_OWN = s.on R.MATE_STAT_CLAIM_OWN :=
  congrArg (· != 0) (claimShown_sameIn _ (by simp))

theorem claimShown_raw : (s.claimShown a).rd (R.HDR_EVT_RAW_RAW .mate) = s.rd (R.HDR_EVT_RAW_RAW .mate) := claimShown_sameIn _ (by simp)

/-- CLAIM_BOTH follows the own CLAIM and the mate's new one. -/
theorem claimSeen_eq : s.claimSeen a =
    if (s.on R.MATE_STAT_CLAIM_OWN && a) && !(s.rd (R.HDR_EVT_RAW_RAW .mate)).testBit 10
    then ((s.claimShown a).setRaw .mate 0 10 (s.on R.MATE_STAT_CLAIM_OWN && a)).raise .mate 0 10
    else (s.claimShown a).setRaw .mate 0 10 (s.on R.MATE_STAT_CLAIM_OWN && a) := by
  have mate : (s.claimShown a).on R.MATE_STAT_CLAIM_MATE = a := State.on_wrB_same _ _ _ _ _ rfl
  have follows : s.claimSeen a = (s.claimShown a).claimFollow := rfl
  rw [follows]
  unfold State.claimFollow
  rw [claimShown_own, claimShown_raw, mate]

theorem claimSeen_both (hb : (s.on R.MATE_STAT_CLAIM_OWN && a) = true) (hw : (s.rd (R.HDR_EVT_RAW_RAW .mate)).testBit 10 = false) :
    s.claimSeen a = ((s.claimShown a).setRaw .mate 0 10 true).raise .mate 0 10 := by
  rw [claimSeen_eq, hb, hw]
  rfl

theorem claimSeen_quiet (h : (s.on R.MATE_STAT_CLAIM_OWN && a) = false ∨ (s.rd (R.HDR_EVT_RAW_RAW .mate)).testBit 10 = true) :
    s.claimSeen a = (s.claimShown a).setRaw .mate 0 10 (s.on R.MATE_STAT_CLAIM_OWN && a) := by
  rw [claimSeen_eq]
  exact if_neg (by rcases h with h | h <;> simp [h])

/-- Settles O43, by the level that the wire had before. -/
theorem matePins : Obligations.MatePins := by
  unfold Obligations.MatePins
  intro s wire claim
  refine ⟨fun hu => ⟨exec_gaspIn_idle (.inl hu), exec_gaspInRelease_down hu, fun a => exec_claimMateChange_same (.inl hu)⟩, fun hu =>
    ⟨fun h => ⟨fun hm => ?standby, fun hm => ?elsewhere⟩, fun h => exec_gaspIn_idle (.inr h), exec_gaspInRelease_up hu,
      fun a h => exec_claimMateChange_same (.inr h), fun a h => ⟨fun hb hw => ?both, fun hq => ?quiet⟩⟩⟩
  case standby => exact (exec_gaspIn_seen hu h).trans (congrArg _ ((gaspSeen_eq (s := s.gaspWired true)).trans (if_pos hm)))
  case elsewhere => exact (exec_gaspIn_seen hu h).trans (congrArg _ ((gaspSeen_eq (s := s.gaspWired true)).trans (if_neg hm)))
  case both => exact (exec_claimMateChange_seen hu h).trans (congrArg _ (claimSeen_both (s := s.claimWired a) hb hw))
  case quiet => exact (exec_claimMateChange_seen hu h).trans (congrArg _ (claimSeen_quiet (s := s.claimWired a) hq))

end Sys2Proof.Machine

/-! A heartbeat is received, or missed (R292 to R294, R301). -/
namespace Sys2Proof.Machine
open Sys2Proof

variable {s t u : State}

/-! A record on the Dexgor lanes. -/

/-- The next record's place is taken. -/
def State.slotTaken (s : State) : State := { s with mate := { s.mate with txSlot := s.recSlot + 1 } }

/-- Record `r` waits to be sent. -/
def State.recQueued (s : State) (r : List Byte) : State :=
  { s with mate := { s.mate with txq := s.mate.txq ++ [r], txSeq := (s.mate.txSeq + 1) % 65536 } }

theorem mirrorSend_eq (type row : Nat) (body : List Byte) : s.mirrorSend type row body =
    if !s.slotTaken.mateListens then s.slotTaken
    else (s.slotTaken.recQueued (mirRecord type s.mate.txSeq (s.epoch + (row / 36 - s.frame)) (row % 36) body)).count .mate 0 2 := rfl

/-! What a good heartbeat leaves through the checks that follow it. -/

/-- MATE_HB. -/
def hbFields : List Fld := [R.MATE_MATE_HB_UNIT, R.MATE_MATE_HB_HB_SEQ, R.MATE_MATE_HB_FLAGS]

/-- `t` holds the same heartbeat as `s`, with the same runs, and shows the same of it. -/
structure HbKept (s t : State) : Prop where
  hb : t.mate.hb = s.mate.hb
  now : t.mate.hbNow = s.mate.hbNow
  miss : t.mate.hbMiss = s.mate.hbMiss
  run : t.mate.hbRun = s.mate.hbRun
  shown : State.SameIn hbFields s t

namespace HbKept

theorem refl (s : State) : HbKept s s := ⟨rfl, rfl, rfl, rfl, .refl s⟩

theorem trans (h : HbKept s t) (k : HbKept t u) : HbKept s u :=
  ⟨k.hb.trans h.hb, k.now.trans h.now, k.miss.trans h.miss, k.run.trans h.run, h.shown.trans k.shown⟩

theorem ite (c : Prop) [Decidable c] (h : HbKept s t) (k : HbKept s u) : HbKept s (if c then t else u) := by
  split <;> assumption

/-- A report of `s` that shows the same heartbeat. -/
theorem of_reports (h : s.Reports t) (k : State.SameIn hbFields s t) : HbKept s t := by
  have mate : t.mate = s.mate := by rw [h]
  exact ⟨by rw [mate], by rw [mate], by rw [mate], by rw [mate], k⟩

theorem wr {f : Fld} (v : Nat) (h : ∀ g ∈ hbFields, g.key 0 0 ≠ f.key 0 0) : HbKept s (s.wr f v) :=
  of_reports (State.wr_reports ..) (State.wr_sameIn v h)

theorem raise (b : Nat) : HbKept s (s.raise .mate 0 b) :=
  of_reports (State.raise_reports ..) (State.raise_sameIn (by decide) .mate 0 b (by decide))

theorem count (c : Nat) : HbKept s (s.count .mate 0 c) :=
  of_reports (State.count_reports ..) (State.count_sameIn (by decide) .mate 0 c 1 (by decide))

theorem setRaw (b : Nat) (v : Bool) : HbKept s (s.setRaw .mate 0 b v) :=
  of_reports (State.wr_reports ..) (State.setRaw_sameIn (by decide) .mate 0 b v (by decide))

theorem setRole (m : Nat) : HbKept s (s.setRole m) := ⟨rfl, rfl, rfl, rfl, .of_regs rfl⟩

theorem mirrorSend (type row : Nat) (body : List Byte) : HbKept s (s.mirrorSend type row body) := by
  have taken : HbKept s s.slotTaken := ⟨rfl, rfl, rfl, rfl, .of_regs rfl⟩
  have queued {v : State} {r : List Byte} : HbKept v (v.recQueued r) := ⟨rfl, rfl, rfl, rfl, .of_regs rfl⟩
  rw [mirrorSend_eq]
  exact .ite _ taken ((taken.trans queued).trans (count 2))

theorem readyFollow : HbKept s s.readyFollow :=
  .ite _ (.refl s) (((wr _ (by decide)).trans (setRaw 6 _)).trans (raise 6))

theorem pullStart : HbKept s s.pullStart := by
  have begun : HbKept s s.pullBegun := ((wr 1 (by decide)).trans (wr 2 (by decide))).trans (count 7)
  have numbered {v : State} : HbKept v (v.updMate (fun m => { m with pullNo := m.pullNo + 1 })) := ⟨rfl, rfl, rfl, rfl, .of_regs rfl⟩
  exact .ite _ (.refl s) ((begun.trans numbered).trans (mirrorSend ..))

theorem dropCur : HbKept s s.dropCur := by
  have dropped : HbKept s (s.wr R.MATE_STAT_MIR_CUR 0).readyFollow := (wr 0 (by decide)).trans readyFollow
  exact .ite _ (.refl s) (.ite _ (dropped.trans pullStart) dropped)

theorem hbSums : HbKept s s.hbSums := by
  unfold State.hbSums
  refine .ite _ (.refl s) (trans (t := s.updMate _) ⟨rfl, rfl, rfl, rfl, .of_regs rfl⟩ (.ite _ (.refl _) ?_))
  have reported {v : State} : HbKept v ((v.wr R.MATE_STAT_SUM_MM 1).raise .mate 0 4) := (wr 1 (by decide)).trans (raise 4)
  exact .ite _ (reported.trans dropCur) reported

theorem hbDecide (old : Nat) : HbKept s (s.hbDecide old) :=
  .ite _ (.ite _ (setRole _) (.refl s)) (.refl s)

theorem hbTwin (old : Nat) : HbKept s (s.hbTwin old) := .ite _ (setRole _) (.refl s)

theorem hbBack : HbKept s s.hbBack :=
  .ite _ (((((wr 0 (by decide)).trans (wr 0 (by decide))).trans (setRaw 0 _)).trans (setRaw 3 _)).trans (raise 1)) (.refl s)

theorem hbLag (lag : Nat) : HbKept s (s.hbLag lag) := by
  unfold State.hbLag
  exact trans (t := s.updMate _) ⟨rfl, rfl, rfl, rfl, .of_regs rfl⟩ ((wr _ (by decide)).trans (wr _ (by decide)))

end HbKept

/-! HEARTBEAT_RX. -/

/-- The heartbeat `lo` is held, and its run counted once a frame. -/
def State.hbHeld (s : State) (lo : List Byte) : State :=
  s.updMate (fun m => { m with hb := lo, hbNow := true, hbMiss := 0, hbRun := if !s.mate.hbNow then m.hbRun + 1 else m.hbRun })

/-- MATE_HB shows the heartbeat held. -/
def State.hbShown (s : State) : State :=
  ((s.wr R.MATE_MATE_HB_UNIT (s.hbByte 9)).wr R.MATE_MATE_HB_HB_SEQ (s.hbByte 10)).wr R.MATE_MATE_HB_FLAGS (s.hbByte 11)

/-- What follows the heartbeat of lane `l` keeps it. -/
theorem hbTake_kept (l : Nat) (lo : List Byte) (lag : Nat) : HbKept (s.hbHeld lo).hbShown (s.hbTake l lo lag) := by
  let v := (s.hbHeld lo).hbShown
  have lagged : HbKept v (if l = 0 then v.hbLag lag else v) := .ite _ (.hbLag lag) (.refl v)
  have back := lagged.trans .hbBack
  have twin : HbKept v _ := HbKept.ite ((!s.mate.hbNow) = true) (back.trans (.hbTwin (s.hbByte 9))) back
  exact .ite _ (twin.trans .readyFollow) (((twin.trans .hbSums).trans (.hbDecide (s.hbByte 9))).trans .readyFollow)

theorem hbShown_fields : s.hbShown.rd R.MATE_MATE_HB_UNIT = s.hbByte 9 ∧ s.hbShown.rd R.MATE_MATE_HB_HB_SEQ = s.hbByte 10 ∧
    s.hbShown.rd R.MATE_MATE_HB_FLAGS = s.hbByte 11 := by
  have fits (i : Nat) : s.hbByte i % 2 ^ 8 = s.hbByte i := Nat.mod_eq_of_lt (BitVec.isLt _)
  unfold State.hbShown
  refine ⟨?_, ?_, ?_⟩ <;> simp (disch := decide) only [State.rd_wr_ne, State.rd_wr_same] <;> exact fits _

section
variable {l : Fin 2} {lo : List Byte} {lag : Nat}

theorem exec_heartbeatRx_formless (h : lo.length ≠ 56) : exec (.heartbeatRx l lo lag) s = .fault .illFormed := if_pos h

theorem exec_heartbeatRx_formed (h : lo.length = 56) : exec (.heartbeatRx l lo lag) s =
    if s.hbGood l lo then .next (s.start.hbTake l lo lag) else .next s.start := if_neg (fun k => k h)
end

/-! HB_FRAME_MISSED. -/

/-- The frame counts as missed. -/
def State.hbMissed (s : State) : State :=
  (s.updMate (fun m => { m with hbNow := true, hbMiss := s.mate.hbMiss + 1, hbRun := 0 })).count .mate 0 1

theorem hbMissed_sameIn : State.SameIn [R.MATE_CTL_HB_MISS, R.MATE_STAT_HB_LOST] s s.hbMissed :=
  (State.SameIn.of_regs (t := s.updMate _) rfl).trans (State.count_sameIn (by decide) .mate 0 1 1 (by decide))

theorem hbMissed_limit : s.hbMissed.rd R.MATE_CTL_HB_MISS = s.rd R.MATE_CTL_HB_MISS := hbMissed_sameIn _ (by simp)

theorem hbMissed_hbLost : s.hbMissed.hbLost = s.hbLost := congrArg (· != 0) (hbMissed_sameIn _ (by simp))

theorem exec_hbFrameMissed_due (hd : s.dxEn = true) (hn : s.mate.hbNow = false) (hr : 18 ≤ s.row) : exec .hbFrameMissed s =
    if s.rd R.MATE_CTL_HB_MISS ≤ s.mate.hbMiss + 1 then .next s.start.hbMissed.hbLose else .next s.start.hbMissed := by
  have enabled : s.start.dxEn = true := hd
  have due : s.start.mate.hbNow = false := hn
  have late : ¬ s.start.row < 18 := Nat.not_lt.2 hr
  have limit : s.start.hbMissed.rd R.MATE_CTL_HB_MISS = s.rd R.MATE_CTL_HB_MISS := hbMissed_limit
  rw [← limit]
  exact if_neg (by simp only [enabled, due, late, Bool.not_true, Bool.or_self, decide_false, Bool.false_eq_true, not_false_iff])

theorem hbLose_again (h : s.hbLost = true) : s.hbLose = s := if_pos h

theorem hbLose_new (h : s.hbLost = false) :
    s.hbLose = (((s.wr R.MATE_STAT_HB_LOST 1).setRaw .mate 0 0 true).raise .mate 0 0).recover 11 0 := if_neg (by simp [h])

/-- Settles O44, by what the heartbeat's check finds and by the run of misses. -/
theorem heartbeats : Obligations.Heartbeats := by
  unfold Obligations.Heartbeats
  intro s
  refine ⟨fun l lo lag => ⟨exec_heartbeatRx_formless, fun h hg => ?bad, fun h hg => ?good⟩, fun hd hn hr => ⟨fun h => ?below, fun h =>
    ⟨fun hl => ?again, fun hl => ?lost⟩⟩⟩
  case bad =>
    rw [exec_heartbeatRx_formed h, hg]
    rfl
  case good =>
    have kept : HbKept (s.start.hbHeld lo).hbShown (s.start.hbTake l lo lag) := hbTake_kept ..
    obtain ⟨unit, seq, flags⟩ := hbShown_fields (s := s.start.hbHeld lo)
    refine ⟨s.start.hbTake l lo lag, ?_, kept.hb, kept.now, kept.miss, kept.run.trans ?_, ?_, ?_, ?_⟩
    · rw [exec_heartbeatRx_formed h, hg]
      rfl
    · cases hn : s.mate.hbNow <;> simp [State.hbHeld, State.hbShown, State.updMate, hn]
    · exact (kept.shown _ (by simp [hbFields])).trans unit
    · exact (kept.shown _ (by simp [hbFields])).trans seq
    · exact (kept.shown _ (by simp [hbFields])).trans flags
  case below => exact (exec_hbFrameMissed_due hd hn hr).trans (if_neg (Nat.not_le.2 h))
  case again =>
    exact (exec_hbFrameMissed_due hd hn hr).trans ((if_pos h).trans (congrArg _ (hbLose_again (hbMissed_hbLost.trans hl))))
  case lost =>
    exact (exec_hbFrameMissed_due hd hn hr).trans ((if_pos h).trans (congrArg _ (hbLose_new (hbMissed_hbLost.trans hl))))

end Sys2Proof.Machine

/-! What the repeater of the Icusk chain does with a frame (R313 to R320, R387). -/
namespace Sys2Proof.Machine
open Sys2Proof

variable {s : State} {side : ChainSide} {f : BitVec 96}

/-! The way of a frame through the repeater. -/

section
variable (hp : s.pow.phase ≠ .unpowered) (hs : s.synced side = true)
include hp hs

theorem chainIn_broken (hc : fCrcOk f = false) :
    s.chainIn side f = ((s.count .seq 0 2).raise .seq 0 1).forward (otherSide side) f := by
  simp [State.chainIn, hp, hs, hc]

theorem chainIn_ring (hc : fCrcOk f = true) (ha : fArm f = false) : s.chainIn side f = s.ringFrame side f := by
  simp [State.chainIn, hp, hs, hc, ha]

theorem chainIn_arm (hc : fCrcOk f = true) (ha : fArm f = true) : s.chainIn side f = (s.mark .arm).armFrame side f := by
  simp [State.chainIn, hp, hs, hc, ha]
end

theorem chainRow_same {op : Nat} (h : fOp f = op) : s.chainRow op side f = s.chainIn side f := if_pos h

/-! Ring mode. -/

/-- The unit takes the address that `f` offers (R317). -/
def State.enumTakes (s : State) (f : BitVec 96) : Prop :=
  s.rd R.SEQ_CHN_ADDR_ADDR = 0 ∧ s.chain.tokIn = true ∧ fTaken f = false ∧ 1 ≤ fData f % 64 ∧ fData f % 64 ≤ 62

theorem ringFrame_enum (ho : fOp f = opENUM) : s.ringFrame .inp f = (s.enumerate f).1.forward .outp (s.enumerate f).2 :=
  (if_neg (by decide)).trans (if_pos ho)

theorem enumerate_takes (h : s.enumTakes f) : s.enumerate f =
    (((s.acted f).wr R.SEQ_CHN_ADDR_ADDR (fData f % 64)).raise .seq 0 4,
      chainFrame (fUnit f) (fOp f) (fTag f) true (fArm f) (fAddr f) (fData f)) :=
  if_pos (by simpa [State.enumTakes] using h)

theorem enumerate_passes (h : ¬ s.enumTakes f) : s.enumerate f = (s, f) :=
  if_neg (by simpa [State.enumTakes] using h)

section
variable (ho : fOp f ≠ opENUM)
include ho

theorem ringFrame_mine (hm : s.chainMine f = true) : s.ringFrame .inp f = s.chainOwnFrame .inp f :=
  (if_neg (by decide)).trans ((if_neg ho).trans (if_pos hm))

variable (hm : s.chainMine f = false)
include hm

theorem ringFrame_broadcast (hu : fUnit f = 63) : s.ringFrame .inp f =
    if s.chainTakes f then s.chainBroadcastFrame .inp f else (s.chainBroadcastFrame .inp f).forward .outp f := by
  refine (if_neg (by decide)).trans ((if_neg ho).trans ((if_neg (ne_true_of_eq_false hm)).trans ?_))
  rw [if_pos hu]

/-- A frame for another unit is forwarded, and nothing more. -/
theorem ringFrame_foreign (hu : fUnit f ≠ 63) : s.ringFrame .inp f = s.forward .outp f := by
  have passes : ¬ s.chainTakes f = true := by simp [State.chainTakes, hu]
  refine (if_neg (by decide)).trans ((if_neg ho).trans ((if_neg (ne_true_of_eq_false hm)).trans ?_))
  rw [if_neg hu]
  exact if_neg passes
end

theorem chainMine_own (ha : s.rd R.SEQ_CHN_ADDR_ADDR ≠ 0) (hu : fUnit f = s.rd R.SEQ_CHN_ADDR_ADDR)
    (ho : fOp f = opRD ∨ fOp f = opWR ∨ fOp f = opWAKE) : s.chainMine f = true := by
  rcases ho with ho | ho | ho <;> simp [State.chainMine, ha, hu, ho]

theorem chainMine_foreign (h : fUnit f = 0 ∨ fUnit f ≠ s.rd R.SEQ_CHN_ADDR_ADDR) : s.chainMine f = false := by
  rcases h with h | h
  · by_cases ha : s.rd R.SEQ_CHN_ADDR_ADDR = 0
    · simp [State.chainMine, ha]
    · simp [State.chainMine, h, Ne.symm ha]
  · simp [State.chainMine, h]

/-! A frame for the unit alone. -/

theorem chainOwnFrame_command (ho : fOp f = opRD ∨ fOp f = opWR) : s.chainOwnFrame side f = (s.acted f).chainCommand side f := if_pos ho

theorem chainOwnFrame_wake (ho : fOp f = opWAKE) : s.chainOwnFrame side f = ((s.acted f).chainRespond side f opOK 0).wake 2 :=
  (if_neg (by rw [ho]; decide)).trans (if_pos ho)

theorem chainCommand_reset (hr : s.inReset = true) : s.chainCommand side f = s.chainRespond side f opERR eRESET := if_pos hr

section
variable (hr : s.inReset = false)
include hr

theorem chainCommand_down (hd : s.domUp 1 = false) : s.chainCommand side f = s.chainRespond side f opERR eDOWN := by
  simp [State.chainCommand, hr, hd]

variable (hd : s.domUp 1 = true)
include hd

theorem chainCommand_align (ha : fAddr f % 4 ≠ 0) : s.chainCommand side f = s.chainRespond side f opERR eALIGN := by
  simp [State.chainCommand, hr, hd, ha]

variable (ha : fAddr f % 4 = 0)
include ha

theorem chainCommand_busy (hq : 16 ≤ s.chain.queue.length) :
    s.chainCommand side f = (s.chainRespond side f opERR eBUSY).raise .seq 0 3 := by
  simp [State.chainCommand, hr, hd, ha, hq]

theorem chainCommand_queued (hq : s.chain.queue.length < 16) : s.chainCommand side f = s.chainEnqueue side f := by
  simp [State.chainCommand, hr, hd, ha, Nat.not_le.2 hq]

theorem chainBroadcast_queued (hn : s.rd R.SEQ_CHN_ADDR_ADDR ≠ 0) (hq : s.chain.queue.length < 16) :
    s.chainBroadcast side f = s.chainEnqueue side f := by
  simp [State.chainBroadcast, hr, hd, ha, hn, hq]
end

/-! A broadcast. -/

theorem chainBroadcastFrame_wr (ho : fOp f = opWR) : s.chainBroadcastFrame side f = (s.acted f).chainBroadcast side f := if_pos ho

theorem chainBroadcastFrame_reset (ho : fOp f = opRESET) : s.chainBroadcastFrame side f = (s.acted f).wr R.SEQ_CHN_ADDR_ADDR 0 :=
  (if_neg (by rw [ho]; decide)).trans (if_pos ho)

theorem chainBroadcastFrame_wake (ho : fOp f = opWAKE) : s.chainBroadcastFrame side f = (s.acted f).wake 2 :=
  (if_neg (by rw [ho]; decide)).trans ((if_neg (by rw [ho]; decide)).trans (if_pos ho))

theorem chainBroadcastFrame_rd (ho : fOp f = opRD) : s.chainBroadcastFrame side f = s :=
  (if_neg (by rw [ho]; decide)).trans ((if_neg (by rw [ho]; decide)).trans (if_neg (by rw [ho]; decide)))

theorem chainTakes_transfer (ho : fOp f = opRD ∨ fOp f = opWR) : s.chainTakes f = false := by
  rcases ho with ho | ho <;> simp [State.chainTakes, ho, opRD, opWR, opRESET, opWAKE]

theorem chainTakes_reset (hu : fUnit f = 63) (ho : fOp f = opRESET) : s.chainTakes f = (s.rd R.SEQ_CHN_ADDR_ADDR != 0) := by
  simp [State.chainTakes, hu, ho, opRESET, opWAKE]

theorem chainTakes_wake (hu : fUnit f = 63) (ho : fOp f = opWAKE) :
    s.chainTakes f = true ↔ s.mode = mSLEEP ∧ s.pow.waking = none ∧ s.pow.phase = .running := by
  simp [State.chainTakes, hu, ho, opRESET, opWAKE, and_assoc]

theorem acted_addr : (s.acted f).rd R.SEQ_CHN_ADDR_ADDR = s.rd R.SEQ_CHN_ADDR_ADDR := State.rd_wr_ne _ _ (by decide)

/-! Arm mode. -/

theorem armFrame_response (ho : fOp f = opOK ∨ fOp f = opERR ∨ fOp f = opNOTIFY) :
    s.armFrame side f = s.forward (s.chain.hostSide.getD (otherSide side)) f := if_pos ho

theorem armFrame_enum (ho : fOp f = opENUM) : s.armFrame side f = s.forward (otherSide side) f :=
  (if_neg (by rw [ho]; decide)).trans (if_pos ho)

/-- Settles O45, by the mode, the opcode and the unit that the frame names. -/
theorem chainFrames : Obligations.ChainFrames := by
  unfold Obligations.ChainFrames
  intro f s hp a on
  refine ⟨fun side hc hs => congrArg _ (chainIn_broken (s := s.start) hp hs hc), fun hc ha => ?ring,
    fun hc ha side => ⟨fun ho hs => ?response, fun ho hs => ?enum⟩⟩
  case response => exact congrArg _ ((chainIn_arm (s := s.start) hp hs hc ha).trans (armFrame_response ho))
  case enum => exact congrArg _ ((chainIn_arm (s := s.start) hp hs hc ha).trans (armFrame_enum ho))
  case ring =>
    intro d takes v
    have acts {op : Nat} {t : State} (h : fOp f = op → s.start.ringFrame .inp f = t) (ho : fOp f = op) (hs : s.synced .inp = true) :
        (ok (s.start.chainRow op .inp f) : Host.Outcome State Fault Refusal) = .next t :=
      congrArg _ ((chainRow_same ho).trans ((chainIn_ring (s := s.start) hp hs hc ha).trans (h ho)))
    have other {op : Nat} (ho : fOp f = op) (hn : op ≠ opENUM) : fOp f ≠ opENUM := fun e => hn (ho.symm.trans e)
    refine ⟨fun h => acts fun ho => ?takes, fun h => acts fun ho => ?passes, fun ha hu => ⟨?transfer, acts fun ho => ?wake⟩,
      fun hu hne => ?broadcast, fun hu hf => ?foreign⟩
    case takes => exact (ringFrame_enum ho).trans (by rw [enumerate_takes (s := s.start) h])
    case passes => exact (ringFrame_enum ho).trans (by rw [enumerate_passes (s := s.start) h])
    case wake =>
      exact (ringFrame_mine (other ho (by decide)) (chainMine_own (s := s.start) ha hu (.inr (.inr ho)))).trans (chainOwnFrame_wake ho)
    case transfer =>
      intro both
      have queues {t : State} (h : v.chainCommand .inp f = t) : both t :=
        ⟨acts fun ho => (ringFrame_mine (other ho (by decide)) (chainMine_own (s := s.start) ha hu (.inl ho))).trans
            ((chainOwnFrame_command (.inl ho)).trans h),
          acts fun ho => (ringFrame_mine (other ho (by decide)) (chainMine_own (s := s.start) ha hu (.inr (.inl ho)))).trans
            ((chainOwnFrame_command (.inr ho)).trans h)⟩
      exact ⟨fun hr => queues (chainCommand_reset (s := v) hr), fun hr hd => queues (chainCommand_down (s := v) hr hd),
        fun hr hd hm => queues (chainCommand_align (s := v) hr hd hm), fun hr hd hm =>
          ⟨fun hq => queues (chainCommand_busy (s := v) hr hd hm hq), fun hq => queues (chainCommand_queued (s := v) hr hd hm hq)⟩⟩
    case broadcast =>
      have notMine : s.start.chainMine f = false := chainMine_foreign (s := s.start) (.inr fun e => hne (e.symm.trans hu))
      have all {op : Nat} (ho : fOp f = op) (hn : op ≠ opENUM) := ringFrame_broadcast (s := s.start) (other ho hn) notMine hu
      refine ⟨fun hn hr hd hm hq => acts fun ho => ?_, acts fun ho => ?_, fun hn => acts fun ho => ?_, fun hz => acts fun ho => ?_,
        fun hw => acts fun ho => ?_, fun hw => acts fun ho => ?_⟩
      · rw [all ho (by decide), chainTakes_transfer (.inr ho), chainBroadcastFrame_wr ho]
        exact congrArg (State.forward · .outp f) (chainBroadcast_queued (s := v) hr hd hm (acted_addr.trans_ne hn) hq)
      · rw [all ho (by decide), chainTakes_transfer (.inl ho), chainBroadcastFrame_rd ho]
        rfl
      · rw [all ho (by decide), chainTakes_reset hu ho, chainBroadcastFrame_reset ho]
        exact if_pos (bne_iff_ne.2 hn)
      · rw [all ho (by decide), chainTakes_reset hu ho, chainBroadcastFrame_reset ho]
        exact if_neg (by simpa using hz)
      · rw [all ho (by decide), chainBroadcastFrame_wake ho]
        exact if_pos ((chainTakes_wake (s := s.start) hu ho).2 hw)
      · rw [all ho (by decide), chainBroadcastFrame_wake ho]
        exact if_neg fun e => hw ((chainTakes_wake (s := s.start) hu ho).1 e)
    case foreign =>
      have passes {op : Nat} (hn : op ≠ opENUM) (ho : fOp f = op) : s.start.ringFrame .inp f = s.start.forward .outp f :=
        ringFrame_foreign (other ho hn) (chainMine_foreign (s := s.start) hf) hu
      exact ⟨acts (passes (by decide)), acts (passes (by decide)), acts (passes (by decide)), acts (passes (by decide))⟩

end Sys2Proof.Machine

/-! The command queue runs its head; notification, arm mode, the token and the clock (R310, R315 to R317, R320, R339). -/
namespace Sys2Proof.Machine
open Sys2Proof

variable {s : State} {side : ChainSide} {f : BitVec 96} {rest : List (ChainSide × BitVec 96)}

/-! CHAIN_CMD_EXECUTE. -/

theorem exec_chainCmdExecute_empty (h : s.chain.queue = []) : exec .chainCmdExecute s = .next s.start := by
  change execChainCmdExecute s = _
  simp [execChainCmdExecute, State.nextAt, h, ok]

/-- The request of the queue's head. -/
theorem exec_chainCmdExecute_head (h : s.chain.queue = (side, f) :: rest) :
    exec .chainCmdExecute s = .next (s.start.serveNext 1 (s.start.chainReq f)) := by
  change execChainCmdExecute s = _
  simp [execChainCmdExecute, State.nextAt, h, ok]

/-- The head `f` of the queue runs as the transaction `r`. -/
def State.chainRun (s : State) (side : ChainSide) (f : BitVec 96) (r : BusReq) : State :=
  ((s.chainPop.transact r).s.chainAnswer side f (s.chainPop.transact r)).count .seq 0 4

theorem chainExecute_head (h : s.chain.queue = (side, f) :: rest) (hb : s.busUp = true)
    (hr : (s.chainReq f).byDefault = true ∨ s.targetBusy 1 (s.chainReq f).target = false) :
    s.chainExecute = s.chainRun side f (s.chainReq f) := by
  simp only [State.chainExecute, h]
  exact if_neg (by rcases hr with hr | hr <;> simp [hb, hr])

section
variable {t : Resp}

theorem chainAnswer_broadcast (h : fUnit f = 63) : s.chainAnswer side f t = s := if_pos h

variable (h : fUnit f ≠ 63)
include h

theorem chainAnswer_error (hc : t.cause ≠ 0) : s.chainAnswer side f t = s.chainRespond side f opERR eBUS := by
  simp [State.chainAnswer, h, hc]

theorem chainAnswer_ok (hc : t.cause = 0) :
    s.chainAnswer side f t = s.chainRespond side f opOK (if fOp f = opWR then 0 else ofLe t.data) := by
  simp [State.chainAnswer, h, hc]
end

/-! NOTIFY. -/

theorem exec_notifyRepeat_due (h : ∀ t, s.chain.notifyAt = some t → t + 60000000 ≤ s.now) : exec .notifyRepeat s = .next s.start.notify := by
  change execNotifyRepeat s = _
  unfold execNotifyRepeat
  dsimp only
  split
  case h_1 => rfl
  case h_2 t e => exact if_pos (h t e)

theorem notify_none (h : s.notifyGroups = []) : s.notify = { s with chain := { s.chain with notifyDue := false } } :=
  if_pos (by simp [h])

theorem notify_sent {t : Nat} (hg : s.notifyGroups ≠ []) (he : s.on R.SEQ_CHN_CFG_NOTIFY_EN = true) (ha : s.chain.notifyAt = some t)
    (ht : t + s.rd R.SEQ_CHN_CFG_NOTIFY_GAP * 6000 ≤ s.now) :
    s.notify = { s with chain := { s.chain with notifyAt := some s.now, notifyDue := false } }.chainOwn s.ownSide
      (chainFrame (s.rd R.SEQ_CHN_ADDR_ADDR) opNOTIFY 0 false s.chain.hostSide.isSome 0 (notifyData s.notifyGroups)) := by
  unfold State.notify
  dsimp only
  rw [if_neg (by simp [hg, he]), ha]
  exact if_pos (decide_eq_true ht)

/-! Arm mode, the token and the clock. -/

theorem exec_armModeReturn_over (h : s.ran .arm 600 = true) :
    exec .armModeReturn s = .next { s.start with chain := { s.chain with hostSide := none } } := by
  have ended : s.start.ran .arm 600 = true := h
  exact if_neg (by simp [ended])

theorem exec_armModeReturn_early (h : s.ran .arm 600 = false) : exec .armModeReturn s = .next s.start := by
  have early : s.start.ran .arm 600 = false := h
  exact if_pos (by simp [early])

theorem exec_tokInChange_up (hd : s.domUp 0 = true) (on : Bool) :
    exec (.tokInChange on) s = .next { s.start with chain := { s.chain with tokIn := on } } := if_pos hd

/-- The receiver of `side` accepts start bits 272 control cycles after the cycle `k`. -/
def State.clockGone (s : State) (side : ChainSide) (k : Nat) : State :=
  { s with chain := { s.chain with resync := s.chain.resync.filter (fun e => e.1 != side) ++ [(side, k)] } }

theorem exec_chainClockLoss_up (hd : s.domUp 0 = true) (gone : Nat) :
    exec (.chainClockLoss ⟨side, gone⟩) s = .next (s.start.clockGone side (s.now + gone)) := by
  have up : ¬ (!s.start.domUp 0) = true := by simpa [State.domUp] using hd
  exact if_neg up

theorem otherSide_ne : side ≠ otherSide side := by cases side <;> decide

/-- At cycle `now` the receiver of `side` accepts start bits, given when the clocks came back. -/
def syncedAt (l : List (ChainSide × Nat)) (now : Nat) (side : ChainSide) : Bool :=
  l.all (fun e => e.1 != side || decide (e.2 + resyncCycles ≤ now))

theorem synced_eq : s.synced side = syncedAt s.chain.resync s.now side := rfl

/-- The last loss of the clock alone decides for its own side. -/
theorem syncedAt_lost {l : List (ChainSide × Nat)} {k now : Nat} :
    syncedAt (l.filter (fun e => e.1 != side) ++ [(side, k)]) now side = decide (k + resyncCycles ≤ now) := by
  have others : (l.filter (fun e => e.1 != side)).all (fun e => e.1 != side || decide (e.2 + resyncCycles ≤ now)) = true := by
    refine List.all_eq_true.2 fun e he => ?_
    simp [(List.mem_filter.1 he).2]
  rw [syncedAt, List.all_append, others]
  simp

/-- A loss of the clock of `side` changes nothing for another side. -/
theorem syncedAt_other {l : List (ChainSide × Nat)} {k now : Nat} {d : ChainSide} (h : side ≠ d) :
    syncedAt (l.filter (fun e => e.1 != side) ++ [(side, k)]) now d = syncedAt l now d := by
  have kept (e : ChainSide × Nat) : (!(e.1 != side) || (e.1 != d || decide (e.2 + resyncCycles ≤ now))) =
      (e.1 != d || decide (e.2 + resyncCycles ≤ now)) := by
    by_cases he : e.1 = side
    · simp [he, h]
    · simp [he]
  simp only [syncedAt, List.all_append, List.all_filter, kept]
  simp [h]

/-- Settles O46, by the head's turn at its target, the answer it gets, and what the line does. -/
theorem chainQueueAndLine : Obligations.ChainQueueAndLine := by
  unfold Obligations.ChainQueueAndLine
  intro s
  refine ⟨exec_chainCmdExecute_empty, fun side f rest h hb hw => ?waits, fun side f rest h hu => ?runs, fun t hg he ha hl ht => ?notifies,
    fun hg ht => ?silent, exec_armModeReturn_over, exec_armModeReturn_early, exec_tokInChange_up,
    fun hd side gone => ⟨_, exec_chainClockLoss_up hd gone, rfl, fun k => syncedAt_lost, syncedAt_other otherSide_ne⟩⟩
  case waits => exact (exec_chainCmdExecute_head h).trans (congrArg _ (serveNext_waits (s := s.start) hb hw))
  case notifies => exact (exec_notifyRepeat_due (by simp [ha, hl])).trans (congrArg _ (notify_sent (s := s.start) hg he ha ht))
  case silent => exact (exec_notifyRepeat_due ht).trans (congrArg _ (notify_none (s := s.start) hg))
  case runs =>
    intro r hr g t
    have served : s.start.serveNext 1 r = g.chainRun side f r := by
      by_cases hd : r.byDefault = true
      · have default : g = s.start := if_pos hd
        rw [serveNext_default hd, serveReq_chain rfl, default]
        exact chainExecute_head (s := s.start) h hu (.inl hd)
      · obtain ⟨hb, w, hw, hm⟩ := hr.resolve_left hd
        have granted : g = { s.start with mx := { s.mx with last := mapSet 5 s.mx.last r.target 1 } } := if_neg hd
        have grants : s.start.grant r.target w = g.chainExecute := by
          rw [granted, State.grant, serveReq_chain hm, hm]
          rfl
        refine (serveNext_wins (s := s.start) (Bool.eq_false_iff.2 hd) hw hm).trans (grants.trans ?_)
        rw [granted]
        exact chainExecute_head (s := { s.start with mx := { s.mx with last := mapSet 5 s.mx.last r.target 1 } }) h hu (.inr hb)
    have ends {u : State} (ha : t.s.chainAnswer side f t = u) : exec .chainCmdExecute s = .next (u.count .seq 0 4) := by
      rw [exec_chainCmdExecute_head h]
      exact congrArg _ (served.trans (congrArg (State.count · .seq 0 4) ha))
    exact ⟨fun hf => ends (chainAnswer_broadcast hf), fun hf hc => ends (chainAnswer_error hf hc),
      fun hf hc ho => ends ((chainAnswer_ok hf hc).trans (by rw [if_pos ho])),
      fun hf hc ho => ends ((chainAnswer_ok hf hc).trans (by rw [if_neg ho]))⟩

end Sys2Proof.Machine

/-! Grants, responses, timeouts and broken locks of the bus matrix (R325, R328, R331, R333, R335, R404). -/
namespace Sys2Proof.Machine
open Sys2Proof

variable {s : State} {t : Target} {n m : Nat} {r : BusReq} {x : Inflight}

/-! MATRIX_GRANT. -/

theorem exec_matrixGrant_up (hb : s.busUp = true) (rs : List MasterReq) (b : Option PortBAccess) :
    exec (.matrixGrant t rs b) s = .next ((s.start.enterAll rs).arbitrate (targetNum t) b) := if_pos hb

theorem arbitrate_none (hw : s.winner n = none) : s.arbitrate n none = s := by
  simp [State.arbitrate, hw]

theorem arbitrate_winner (hw : s.winner n = some r) : s.arbitrate n none = s.grant n r := by
  simp [State.arbitrate, hw]

/-- The granted transaction leaves its queue, and is remembered as granted last at target `n`. -/
def State.granted (s : State) (n : Nat) (r : BusReq) : State :=
  { s with mx := { s.mx with
    last := mapSet 5 s.mx.last n r.m, waiting := s.mx.waiting.erase r, broken := s.mx.broken.erase (brokenKey r) } }.count .matrix 0 1

/-- The response `w` to the transaction `r` is in flight. -/
def flying (r : BusReq) (w : Resp) : State :=
  { w.s with mx := { w.s.mx with inflight := mput w.s.mx.inflight r.target ⟨r, w.data, w.cause⟩ } }.mark (.grant r.target)

section
variable (h1 : r.m ≠ 1) (h5 : r.m ≠ 5)
include h1 h5

/-- A transaction of M0, M2, M3 or M4 flies: broken sequences meet LOCK_BRK, others their target. -/
theorem grant_flies : s.grant n r =
    flying r (if s.mx.broken.contains (brokenKey r) && !r.first then (Resp.mk (s.granted n r) [] cLOCKBRK).readZero r
      else (((s.granted n r).lockBy r).atTarget r).readZero r) := by
  rw [State.grant, serveReq_other h1 h5]
  rfl

theorem grant_acts (hb : s.mx.broken.contains (brokenKey r) = false ∨ r.first = true) :
    s.grant n r = flying r ((((s.granted n r).lockBy r).atTarget r).readZero r) := by
  rw [grant_flies h1 h5, if_neg (by rcases hb with hb | hb <;> simp only [hb] <;> simp)]

theorem grant_broken (hb : s.mx.broken.contains (brokenKey r) = true) (hf : r.first = false) :
    s.grant n r = flying r ((Resp.mk (s.granted n r) [] cLOCKBRK).readZero r) := by
  rw [grant_flies h1 h5, hb, hf]
  rfl
end

/-! Responses and timeouts. -/

theorem exec_matrixResponse_some (h : mget? s.mx.inflight (targetNum t) = some x) :
    exec (.matrixResponse t) s = .next (s.start.endFlight (targetNum t) x x.cause) := by
  change execMatrixResponse t s = _
  simp [execMatrixResponse, h, ok]

theorem exec_matrixResponse_none (h : mget? s.mx.inflight (targetNum t) = none) : exec (.matrixResponse t) s = .next s.start := by
  change execMatrixResponse t s = _
  simp [execMatrixResponse, h, ok]

theorem exec_matrixTimeout_eq : exec (.matrixTimeout t) s =
    if s.ran (.grant (targetNum t)) (2 ^ s.rd R.MATRIX_TMO_TMO_LOG2) then .next (s.start.matrixTimeout (targetNum t)) else .next s.start := rfl

theorem matrixTimeout_some (h : mget? s.mx.inflight n = some x) : s.matrixTimeout n =
    (({ s.endFlight n x cTIMEOUT with mx := { (s.endFlight n x cTIMEOUT).mx with locks := mdel s.mx.locks n } }.count .matrix 0 3).raise
      .matrix 0 1).recover 1 (256 * x.req.m + 16 * n) := by
  simp only [State.matrixTimeout, h]

theorem matrixTimeout_none (h : mget? s.mx.inflight n = none) : s.matrixTimeout n = s := by
  simp only [State.matrixTimeout, h]

theorem exec_bridgeTmo_eq : exec .bridgeTmo s = if s.ran (.grant 0) 2048 then .next s.start.bridgeTmo else .next s.start := rfl

theorem bridgeTmo_some (h : mget? s.mx.inflight 0 = some x) : s.bridgeTmo =
    (((s.endFlight 0 x cBRIDGE).count .matrix 0 3).raise .matrix 0 4).recover 2 (256 * x.req.m) := by
  simp only [State.bridgeTmo, h]

theorem bridgeTmo_none (h : mget? s.mx.inflight 0 = none) : s.bridgeTmo = s := by
  simp only [State.bridgeTmo, h]

theorem exec_lockBrk_eq : exec (.lockBrk t) s =
    if s.ran (.lock (targetNum t)) 256 then .next (s.start.lockBrk (targetNum t)) else .next s.start := rfl

theorem lockBrk_some (h : mget? s.mx.locks n = some m) : s.lockBrk n =
    ({ s with mx := { s.mx with locks := mdel s.mx.locks n, broken := s.mx.broken ++ [8 * m + n] } }.raise .matrix 0 2).recover 3
      (256 * m + 16 * n) := by
  simp only [State.lockBrk, h]

theorem lockBrk_none (h : mget? s.mx.locks n = none) : s.lockBrk n = s := by
  simp only [State.lockBrk, h]

/-! The watchdog and REMAP (R300, R327, R336). -/

section
variable (hs : s.served .seq 0 = true)
include hs

theorem exec_wdKick_served (key : W32) :
    exec (.wdKick key) s = .next (if key.toNat = kickKey then s.start.kick else s.start) :=
  State.onPage_served (f := fun t => if key.toNat = kickKey then t.kick else t) hs

theorem exec_remapWrite_served (m : Master) (remap : Bool) :
    exec (.remapWrite m remap) s = .next (if masterNum m = 2 then s.start.wrB R.SEQ_CTL_REMAP remap else s.start) :=
  State.onPage_served (f := fun t => if masterNum m = 2 then t.wrB R.SEQ_CTL_REMAP remap else t) hs

theorem exec_wdFired_due {run : Nat} (he : s.on R.SEQ_CTL_WD_EN = true) (hp : s.rd R.SEQ_WD_PERIOD_PERIOD ≤ run)
    (hk : 600 * run ≤ s.now - s.mx.kickAt) : exec (.wdFired run) s = .next s.start.wdFire :=
  if_pos (by simpa [hs, he, hp] using hk)

theorem exec_wdFired_early {run : Nat}
    (h : ¬ (s.on R.SEQ_CTL_WD_EN = true ∧ s.rd R.SEQ_WD_PERIOD_PERIOD ≤ run ∧ 600 * run ≤ s.now - s.mx.kickAt)) :
    exec (.wdFired run) s = .next s.start :=
  if_neg (by simpa [hs, and_assoc] using h)
end

theorem masterNum_eq_two {m : Master} : masterNum m = 2 ↔ m = .seq := by
  cases m <;> decide

/-- Settles O47, command by command. -/
theorem matrixTransactions : Obligations.MatrixTransactions := by
  unfold Obligations.MatrixTransactions
  refine ⟨fun t s => ⟨fun hb hw => ?none, fun hb rs b => exec_matrixGrant_up hb rs b, fun hb r hw h1 h5 => ⟨fun h => ?acts, fun h hf => ?broken⟩,
    ⟨fun x hx => ⟨exec_matrixResponse_some hx, fun hr => ?timeout⟩, fun x hx hr => ?bridge⟩, fun h => ⟨exec_matrixResponse_none h, ?late⟩,
    fun h => ?idle, fun m hm hr => ?locked, fun h => ?free⟩, fun s hs => ⟨?key, fun v hv => ?wrong, fun on => ?remap, fun m on hm => ?denied,
    fun run => ⟨fun h => ?fires, exec_wdFired_early hs⟩⟩⟩
  case none => exact (exec_matrixGrant_up hb [] none).trans (congrArg _ (arbitrate_none (s := s.start) hw))
  case acts =>
    exact (exec_matrixGrant_up hb [] none).trans (congrArg _ ((arbitrate_winner (s := s.start) hw).trans (grant_acts (s := s.start) h1 h5 h)))
  case broken =>
    exact (exec_matrixGrant_up hb [] none).trans (congrArg _ ((arbitrate_winner (s := s.start) hw).trans (grant_broken (s := s.start) h1 h5 h hf)))
  case timeout => exact exec_matrixTimeout_eq.trans ((if_pos hr).trans (congrArg _ (matrixTimeout_some (s := s.start) hx)))
  case bridge => exact exec_bridgeTmo_eq.trans ((if_pos hr).trans (congrArg _ (bridgeTmo_some (s := s.start) hx)))
  case late => rw [exec_matrixTimeout_eq, matrixTimeout_none (s := s.start) h, ite_self]
  case idle => rw [exec_bridgeTmo_eq, bridgeTmo_none (s := s.start) h, ite_self]
  case locked => exact exec_lockBrk_eq.trans ((if_pos hr).trans (congrArg _ (lockBrk_some (s := s.start) hm)))
  case free => rw [exec_lockBrk_eq, lockBrk_none (s := s.start) h, ite_self]
  case key => exact (exec_wdKick_served hs _).trans (congrArg _ (if_pos (by decide)))
  case wrong =>
    have other : v.toNat ≠ kickKey := fun e => hv (BitVec.eq_of_toNat_eq e)
    exact (exec_wdKick_served hs v).trans (congrArg _ (if_neg other))
  case remap => exact (exec_remapWrite_served hs .seq on).trans (congrArg _ (if_pos rfl))
  case denied => exact (exec_remapWrite_served hs m on).trans (congrArg _ (if_neg (masterNum_eq_two.not.2 hm)))
  case fires =>
    obtain ⟨he, hp, hk⟩ := h
    exact exec_wdFired_due hs he hp hk

end Sys2Proof.Machine

/-! The PCI Express endpoint: requests, settings and its link (R321 to R325, R361). -/
namespace Sys2Proof.Machine
open Sys2Proof

variable {s : State} {r : PcieReq} {a o tag : Nat}

/-! A request. -/

theorem exec_pcieRequest_formless (h : pcieForm r = false) : exec (.pcieRequest r) s = .fault .illFormed := if_pos (by simp [h])

theorem exec_pcieRequest_formed (h : pcieForm r = true) : exec (.pcieRequest r) s =
    if !s.pcieUp then .next s.start
    else if r.lock then .next (if r.write then s.start else s.start.emit (.completion r.tag 1 []))
    else .next (s.start.pcieServe r) := if_neg (by simp [h])

section
variable (h : pcieForm r = true)
include h

theorem exec_pcieRequest_down (hu : s.pcieUp = false) : exec (.pcieRequest r) s = .next s.start :=
  (exec_pcieRequest_formed h).trans (if_pos (by simp [hu]))

variable (hu : s.pcieUp = true)
include hu

theorem exec_pcieRequest_locked (hl : r.lock = true) : exec (.pcieRequest r) s =
    .next (if r.write then s.start else s.start.emit (.completion r.tag 1 [])) :=
  (exec_pcieRequest_formed h).trans ((if_neg (by simp [hu])).trans (if_pos hl))

theorem exec_pcieRequest_served (hl : r.lock = false) : exec (.pcieRequest r) s = .next (s.start.pcieServe r) :=
  (exec_pcieRequest_formed h).trans ((if_neg (by simp [hu])).trans (if_neg (by simp [hl])))
end

/-- A read owes its completion. -/
def State.pcieOwes (s : State) (r : PcieReq) : State :=
  if r.write then s else { s.mark (.tag r.tag) with pcie := { s.pcie with owed := s.pcie.owed ++ [r.tag] } }

theorem pcieOwes_write (hw : r.write = true) : s.pcieOwes r = s := if_pos hw

theorem pcieOwes_read (hw : r.write = false) :
    s.pcieOwes r = { s.mark (.tag r.tag) with pcie := { s.pcie with owed := s.pcie.owed ++ [r.tag] } } := if_neg (by simp [hw])

theorem pcieOwes_regs : (s.pcieOwes r).regs = s.regs := by
  unfold State.pcieOwes
  split <;> rfl

theorem pcieOwes_table : (s.pcieOwes r).pcie.table = s.pcie.table := by
  unfold State.pcieOwes
  split <;> rfl

theorem pcieOwes_pba : (s.pcieOwes r).pcie.pba = s.pcie.pba := by
  unfold State.pcieOwes
  split <;> rfl

theorem pcieOwes_dest (b : Bar) : (s.pcieOwes r).pcieDest b o = s.pcieDest b o := by
  unfold State.pcieDest State.rd
  rw [pcieOwes_regs]

theorem pcieOwes_user : (s.pcieOwes r).on R.GLOBAL_PRIV_PERF_USER = s.on R.GLOBAL_PRIV_PERF_USER := by
  unfold State.on State.rd
  rw [pcieOwes_regs]

theorem pcieOwes_tableBytes : (s.pcieOwes r).tableBytes = s.tableBytes := by
  unfold State.tableBytes
  rw [pcieOwes_table]

/-- What a request does at the place that it names. -/
def State.pcieAt (s : State) (r : PcieReq) (d : PcieDest) : State :=
  match d with
  | .table o => if r.write then s.tableWrite o r.data else s.complete r.tag 0 (sliceBytes s.tableBytes o r.len)
  | .pending o => if r.write then s else s.complete r.tag 0 (sliceBytes (leBytes 8 s.pcie.pba) o r.len)
  | .noSlot =>
    if r.write || !s.on R.GLOBAL_PRIV_PERF_USER then s.userError r r.offset
    else s.complete r.tag 0 (List.replicate r.len 0)
  | .bus a true =>
    if r.write || !s.on R.GLOBAL_PRIV_PERF_USER then s.userError r a
    else s.enterPieces r true (userRuns (r.len / 256 + 2) r.offset r.len).1 (userRuns (r.len / 256 + 2) r.offset r.len).2
  | .bus a false => s.enterPieces r false [(a, if r.write then r.data.length else r.len)] 0

theorem pcieServe_at {d : PcieDest} (h : s.pcieDest r.bar r.offset = d) : s.pcieServe r = (s.pcieOwes r).pcieAt r d := by
  rw [← h, ← pcieOwes_dest (s := s) (r := r)]
  rfl

/-- The user view refuses writes, and reads while PERF_USER is clear. -/
theorem pcieAt_refused (hr : r.write = true ∨ s.on R.GLOBAL_PRIV_PERF_USER = false) :
    s.pcieAt r (.bus a true) = s.userError r a ∧ s.pcieAt r .noSlot = s.userError r r.offset := by
  have refused : (r.write || !s.on R.GLOBAL_PRIV_PERF_USER) = true := by rcases hr with hr | hr <;> simp [hr]
  exact ⟨if_pos refused, if_pos refused⟩

section
variable (hw : r.write = false) (hp : s.on R.GLOBAL_PRIV_PERF_USER = true)
include hw hp

theorem pcieAt_user : s.pcieAt r (.bus a true) =
    s.enterPieces r true (userRuns (r.len / 256 + 2) r.offset r.len).1 (userRuns (r.len / 256 + 2) r.offset r.len).2 :=
  if_neg (by simp [hw, hp])

theorem pcieAt_spare : s.pcieAt r .noSlot = s.complete r.tag 0 (List.replicate r.len 0) := if_neg (by simp [hw, hp])
end

/-! The completion timeout, the link and the settings. -/

theorem exec_pcieCompletionTimeout_due (ho : s.pcie.owed.contains tag = true) (ht : s.ran (.tag tag) 30000 = true) :
    exec (.pcieCompletionTimeout tag) s = .next ((s.start.complete tag 4 []).recover 12 0) := by
  have owed : s.start.pcie.owed.contains tag = true := ho
  have ran : s.start.ran (.tag tag) 30000 = true := ht
  exact if_pos (by rw [owed, ran]; rfl)

theorem exec_pcieCompletionTimeout_done (ho : s.pcie.owed.contains tag = false) : exec (.pcieCompletionTimeout tag) s = .next s.start := by
  have done : s.start.pcie.owed.contains tag = false := ho
  exact if_neg (by rw [done]; exact Bool.false_ne_true)

theorem complete_owed {st : Nat} {d : List Byte} (ho : s.pcie.owed.contains tag = true) : s.complete tag st d =
    ({ s with pcie := { s.pcie with owed := s.pcie.owed.erase tag } }.forgetTag tag).emit (.completion tag st d) := if_pos ho

theorem exec_perstN_linkUp (hr : s.pcie.released = true) (hb : s.busUp = true) :
    exec (.perstN .linkUp) s = .next { s.start with pcie := { s.pcie with link := true } } := by
  have bus : s.start.busUp = true := hb
  exact if_pos (by simp [hr, bus])

theorem exec_pcieConfigRequest_up (hu : s.pcieUp = true) (c : PcieCfg) : exec (.pcieConfigRequest c) s = .next (s.start.pcieCfg c) := if_pos hu

theorem pcieReg_other {reg : BitVec 10} (h0 : reg ≠ 0) (h2 : reg ≠ 2) : s.pcieReg reg.toNat = (Config.pcieSpace s.fresh reg.toNat).toNat := by
  have n0 : reg.toNat ≠ 0 := fun e => h0 (BitVec.eq_of_toNat_eq e)
  have n2 : reg.toNat ≠ 2 := fun e => h2 (BitVec.eq_of_toNat_eq e)
  unfold State.pcieReg
  split
  case h_1 e => exact absurd e n0
  case h_2 e => exact absurd e n2
  case h_3 => rfl

/-- Settles O48, by the form of the request and the place that it names. -/
theorem pcieRequests : Obligations.PcieRequests := by
  unfold Obligations.PcieRequests
  intro s
  refine ⟨fun r h => exec_pcieRequest_formless h, fun r h hu => exec_pcieRequest_down h hu, fun r h hu => ⟨fun hl hw => ?ur, fun hl hw => ?dropped,
    fun hl => ?served⟩, fun tag => ⟨fun ho ht => ?timeout, exec_pcieCompletionTimeout_done⟩, rfl, rfl, rfl, exec_perstN_linkUp, fun hu => ?settings⟩
  case ur => exact (exec_pcieRequest_locked h hu hl).trans (congrArg _ (if_neg (by simp [hw])))
  case dropped => exact (exec_pcieRequest_locked h hu hl).trans (congrArg _ (if_pos hw))
  case timeout =>
    exact (exec_pcieCompletionTimeout_due ho ht).trans (congrArg (fun t => Host.Outcome.next (State.recover t 12 0)) (complete_owed (s := s.start) ho))
  case settings =>
    exact ⟨fun tag => exec_pcieConfigRequest_up hu _, fun tag => exec_pcieConfigRequest_up hu _, fun tag reg h0 h2 =>
        (exec_pcieConfigRequest_up hu _).trans (congrArg (fun v => Host.Outcome.next (s.start.takeFresh.emit (.completion tag 0 (leBytes 4 v))))
          (pcieReg_other (s := s.start) h0 h2)),
      fun on => exec_pcieConfigRequest_up hu _, fun v a d => exec_pcieConfigRequest_up hu _, fun v m => exec_pcieConfigRequest_up hu _⟩
  case served =>
    intro u refused
    have serves {d : PcieDest} {t : State} (hd : s.pcieDest r.bar r.offset = d) (ht : u.pcieAt r d = t) : exec (.pcieRequest r) s = .next t :=
      (exec_pcieRequest_served h hu hl).trans (congrArg _ ((pcieServe_at (s := s.start) hd).trans ht))
    have user : u.on R.GLOBAL_PRIV_PERF_USER = s.on R.GLOBAL_PRIV_PERF_USER := pcieOwes_user (s := s.start)
    have write (hw : r.write = true) : u = s.start := pcieOwes_write hw
    refine ⟨fun a hd => serves hd rfl, fun a hd => ⟨fun hw hp => serves hd (pcieAt_user hw (user.trans hp)), fun hr => serves hd ?_⟩,
      fun o hd => ⟨fun hw => serves hd ?_, fun hw => serves hd ?_⟩, fun o hd => ⟨fun hw => serves hd ?_, fun hw => serves hd ?_⟩,
      fun hd => ⟨fun hr => serves hd ?_, fun hw hp => serves hd (pcieAt_spare hw (user.trans hp))⟩⟩
    · exact (pcieAt_refused (hr.imp_right user.trans)).1
    · rw [write hw]
      exact if_pos hw
    · rw [← show u.tableBytes = s.tableBytes from pcieOwes_tableBytes (s := s.start)]
      exact if_neg (by simp [hw])
    · rw [write hw]
      exact if_pos hw
    · rw [← show u.pcie.pba = s.pcie.pba from pcieOwes_pba (s := s.start)]
      exact if_neg (by simp [hw])
    · exact (pcieAt_refused (a := 0) (hr.imp_right user.trans)).2

end Sys2Proof.Machine

/-! What the supply does to the module (R302, R374, R376 to R380, R386). -/
namespace Sys2Proof.Machine
open Sys2Proof

variable {s : State} {b : Bool} {held run : Nat} {st : Fin 8}

/-! VIN_FAIL. -/

/-- The module runs from VHOLD, with GASP_OUT asserted where a mate is present. -/
def State.vinLost (s : State) : State :=
  { s.mark .vin with pow := { s.pow with vinFailed := true, stages := [], gaspOut := s.on R.GLOBAL_STRAP_MATE_PRESENT } }

/-- The loss is counted and reported. -/
def State.vinTold (t : State) : State :=
  (((t.bump R.POWER_VIN_FAIL_CNT_COUNT).count .power 0 1).setRaw .power 0 0 true).raise .power 0 0

theorem exec_vinFail_again (h : s.pow.vinFailed = true) : exec .vinFail s = .next s.start := if_pos (.inr h)

/-- In PRIMARY the handover is planned for the end of the next core row but one. -/
theorem exec_vinFail_new (hp : s.pow.phase ≠ .unpowered) (hv : s.pow.vinFailed = false) : exec .vinFail s = .next (State.vinTold
    (if s.on R.GLOBAL_STRAP_MATE_PRESENT && s.mateUp && s.mode == mPRIMARY
      then s.start.vinLost.updMate (fun m => { m with gaspRow := some (s.absRow + 3) }) else s.start.vinLost)) :=
  if_neg (not_or.2 ⟨hp, by simp [hv]⟩)

/-! SHED. -/

/-- The domains of stage `k`. -/
def State.stageDomains (s : State) (k : Nat) : List Nat := (List.range 56).filter (fun d => s.shedStage d == k)

/-- The domains of stage `k`, as bits. -/
def State.stageMask (s : State) (k : Nat) : BitVec 56 := (s.stageDomains k).foldl (fun (m : BitVec 56) d => m ||| BitVec.ofNat 56 (2 ^ d)) 0

/-- Stage `k` has acted, and its domains are to stay off. -/
def State.stageShed (s : State) (k : Nat) : State :=
  { s with pow := { s.pow with stages := s.pow.stages ++ [k], shed := s.pow.shed ||| s.stageMask k } }

theorem exec_shed_early (hv : s.pow.vinFailed = false) : exec (.shed st run) s = .next s.start := if_pos (by simp [hv])

theorem exec_shed_due (hv : s.pow.vinFailed = true) (h0 : st.val ≠ 0) (hs : s.pow.stages.contains st.val = false)
    (ht : s.shedTime st.val ≤ run) (hr : s.ran .vin (60000 * run) = true) : exec (.shed st run) s = .next (s.start.shedAct st.val) := by
  have ran : s.start.ran .vin (60000 * run) = true := hr
  have stages : s.start.pow.stages.contains st.val = false := hs
  exact if_neg (by rw [stages, ran]; simpa [hv, h0] using ht)

theorem shedAct_eq (k : Nat) : s.shedAct k =
    if (s.stageDomains k).isEmpty then s.stageShed k else (((s.stageShed k).domainsOff (s.stageDomains k)).raise .power 0 2).readyChk := rfl

theorem shedAct_none {k : Nat} (h : s.stageDomains k = []) : s.shedAct k = s.stageShed k := if_pos (List.isEmpty_iff.2 h)

theorem shedAct_some {k : Nat} (h : s.stageDomains k ≠ []) :
    s.shedAct k = (((s.stageShed k).domainsOff (s.stageDomains k)).raise .power 0 2).readyChk :=
  (shedAct_eq k).trans (if_neg (List.isEmpty_iff.not.2 h))

/-! VIN_OK, the holdup and the AON clock. -/

theorem exec_vinBack_none (hv : s.pow.vinFailed = false) : exec (.vinBack held) s = .next s.start := if_pos (by simp [hv])

theorem exec_vinBack_held (hv : s.pow.vinFailed = true) (h : s.heldFor held = true) : exec (.vinBack held) s =
    .next ((({ s.start with pow := { s.pow with vinFailed := false, stages := [], gaspOut := false } }.wr
      R.POWER_HOLD_LAST_TIME (min held 65535)).setRaw .power 0 0 false).raise .power 0 1) := by
  have fits : s.start.heldFor held = true := h
  exact if_neg (by simp [hv, fits])

/-- Every domain without power. -/
def State.exhausted (s : State) : State :=
  { s.bare with pow := { s.bare.pow with phase := .unpowered, on := 0, up := 0, pgood := false, lastReady := 0 },
                pcie := { s.bare.pcie with link := false } }

theorem exec_holdupExhausted_none (hv : s.pow.vinFailed = false) : exec .holdupExhausted s = .next s.start := if_pos (by simp [hv])

theorem exec_holdupExhausted_failed (hv : s.pow.vinFailed = true) : exec .holdupExhausted s = .next s.start.exhausted :=
  if_neg (by simp [hv])

theorem exec_holdup_same (h : s.pow.holdupOk = b) : exec (.holdup b) s = .next s.start := if_pos (.inr (.inl h))

theorem exec_holdup_change (hp : s.pow.phase ≠ .unpowered) (h : s.pow.holdupOk ≠ b)
    (hc : b = true → s.on R.POWER_CTL_CHG_EN = true ∧ s.pow.vinFailed = false) :
    exec (.holdup b) s = .next ({ s.start with pow := { s.pow with holdupOk := b } }.raise .power 0 3).readyChk := by
  have charges : ¬ (b && (!s.start.on R.POWER_CTL_CHG_EN || s.start.pow.vinFailed)) = true := by
    cases b
    case false => simp
    case true =>
      obtain ⟨he, hv⟩ := hc rfl
      have en : s.start.on R.POWER_CTL_CHG_EN = true := he
      simp [en, hv]
  exact if_neg (not_or.2 ⟨hp, not_or.2 ⟨h, charges⟩⟩)

theorem exec_xtal_same (h : s.pow.xtalOk = b) : exec (.xtal b) s = .next s.start := if_pos (.inr h)

theorem exec_xtal_change (hp : s.pow.phase ≠ .unpowered) (h : s.pow.xtalOk ≠ b) :
    exec (.xtal b) s = .next ({ s.start with pow := { s.pow with xtalOk := b } }.raise .power 0 6) := if_neg (not_or.2 ⟨hp, h⟩)

/-- Settles O49, by whether VIN_FAIL is declared. -/
theorem supplyEvents : Obligations.SupplyEvents := by
  unfold Obligations.SupplyEvents
  intro s hp
  refine ⟨fun hv => ⟨fun hg hu hm => ?primary, fun h => ?other, fun held => exec_vinBack_none hv, fun st run => exec_shed_early hv,
      exec_holdupExhausted_none hv⟩,
    fun hv => ⟨exec_vinFail_again hv, fun st run h0 hs ht hr => ⟨fun hd => ?empty, fun hd => ?sheds⟩, fun held => exec_vinBack_held hv,
      ⟨_, exec_holdupExhausted_failed hv, rfl, rfl, rfl, rfl, rfl, rfl, rfl⟩⟩,
    fun b h hc => exec_holdup_change hp h hc, fun b h => exec_holdup_same h, fun b h => exec_xtal_change hp h, fun b h => exec_xtal_same h⟩
  case primary => exact (exec_vinFail_new hp hv).trans (congrArg (fun t => Host.Outcome.next (State.vinTold t)) (if_pos (by simp [hg, hu, hm])))
  case other =>
    exact (exec_vinFail_new hp hv).trans (congrArg (fun t => Host.Outcome.next (State.vinTold t))
      (if_neg (by rcases h with h | h | h <;> simp [h])))
  case empty => exact (exec_shed_due hv h0 hs ht hr).trans (congrArg _ (shedAct_none (s := s.start) hd))
  case sheds => exact (exec_shed_due hv h0 hs ht hr).trans (congrArg _ (shedAct_some (s := s.start) hd))

end Sys2Proof.Machine

/-! Requests for domains and modes, and waking (R383 to R385, R387, R389, R390). -/
namespace Sys2Proof.Machine
open Sys2Proof

variable {s : State}

/-! DOM_EN. -/

theorem exec_domEnWrite_served (hs : s.served .power 0 = true) (hi : Bool) (v : W32) :
    exec (.domEnWrite hi v) s = .next (s.start.domEnWrite hi v.toNat) := State.onPage_served (f := fun t => t.domEnWrite hi v.toNat) hs

/-- The domains that a write of a half of DOM_EN asks for. -/
def State.domAsked (s : State) (hi : Bool) (v : Nat) : Nat :=
  if hi then s.domEn % 2 ^ 32 + v % 2 ^ 24 * 2 ^ 32 else s.domEn / 2 ^ 32 * 2 ^ 32 + v / 16 % 2 ^ 28 * 16

/-- The half of DOM_EN as written. -/
def State.domStored (s : State) (hi : Bool) (v : Nat) : State :=
  if hi then s.wr R.POWER_DOM_EN1_EN v else s.wr R.POWER_DOM_EN0_EN (v / 16)

/-- The domains that go off once `asked` is what DOM_EN asks for: those powered that it drops, and those due already that it leaves out. -/
def State.dueAfter (s : State) (asked : Nat) : BitVec 56 :=
  BitVec.ofNat 56 ((s.pow.on.toNat &&& andNot 56 s.domEn asked) ||| andNot 56 s.pow.offDue.toNat asked)

theorem domEnWrite_refused {hi : Bool} {v : Nat} (h : domBad (s.domAsked hi v) = true) :
    s.domEnWrite hi v = (s.wr R.POWER_STAT_DOM_REFUSED 1).raise .power 0 4 := if_pos h

/-- The domains no longer requested wait for the hinge. -/
theorem domEnWrite_stored {hi : Bool} {v : Nat} (h : domBad (s.domAsked hi v) = false) : s.domEnWrite hi v =
    { s.domStored hi v with pow := { (s.domStored hi v).pow with offDue := s.dueAfter (s.domAsked hi v) } }.readyChk := by
  refine (if_neg (ne_true_of_eq_false h)).trans ?_
  cases hi <;> rfl

/-! Waking. -/

/-- The unit sleeps, with no wake source seen. -/
def State.asleep (s : State) : Prop := s.mode = mSLEEP ∧ s.pow.waking = none ∧ s.pow.phase = .running

/-- The wake source `cause` is seen. -/
def State.woken (s : State) (cause : Nat) : State :=
  { s with pow := { s.pow with waking := some (if s.on R.POWER_CTL_WAKE_MODE then mBRINGUP else mWARM, cause) } }

theorem wake_asleep {cause : Nat} (h : s.asleep) : s.wake cause = s.woken cause := by
  obtain ⟨hm, hw, hp⟩ := h
  exact if_pos ⟨hm, by simp [hw], hp⟩

theorem wake_awake {cause : Nat} (h : ¬ s.asleep) : s.wake cause = s :=
  if_neg fun ⟨hm, hw, hp⟩ => h ⟨hm, Option.isNone_iff_eq_none.1 hw, hp⟩

theorem exec_wakeTimerExpire_due {run : Nat} (h0 : s.rd R.POWER_WAKE_TIMER_SECONDS ≠ 0) (ht : s.rd R.POWER_WAKE_TIMER_SECONDS ≤ run)
    (hr : s.ran .sleep (600000000 * run) = true) : exec (.wakeTimerExpire run) s = .next (s.start.wake 3) :=
  if_neg (not_or.2 ⟨h0, not_or.2 ⟨Nat.not_lt.2 ht, ne_false_of_eq_true hr⟩⟩)

theorem exec_wakeTimerExpire_awake {run : Nat} (h : ¬ s.asleep) : exec (.wakeTimerExpire run) s = .next s.start := by
  have none : s.start.wake 3 = s.start := wake_awake (s := s.start) h
  change execWakeTimerExpire run s = _
  simp only [execWakeTimerExpire, none, ite_self]
  rfl

/-! Modes. -/

theorem exec_modeRequest_served (hs : s.served .global 0 = true) (req : BitVec 3) :
    exec (.modeRequest req) s = .next (s.start.modeRequest req.toNat) := State.onPage_served (f := fun t => t.modeRequest req.toNat) hs

theorem modeRequest_pending {m : Nat} (hn : s.pow.modeReq = none) (hm : s.mayRequest m = true) :
    s.modeRequest m = { s with pow := { s.pow with modeReq := some m } }.wr R.GLOBAL_MODE_STAT_PENDING 1 :=
  if_neg (by simp [hn, hm])

theorem modeRequest_refused {m : Nat} (h : s.pow.modeReq ≠ none ∨ s.mayRequest m = false) :
    s.modeRequest m = (s.wr R.GLOBAL_MODE_STAT_REFUSED 1).raise .global 0 1 :=
  if_pos (by rcases h with h | h <;> simp [h, Option.isSome_iff_ne_none])

/-- Settles O50, command by command. -/
theorem domainsAndModes : Obligations.DomainsAndModes := by
  unfold Obligations.DomainsAndModes
  intro s
  refine ⟨fun hs hi v => ⟨fun h => ?refused, fun h => ?stored⟩, fun d => ⟨fun h => if_pos h, fun h => if_neg h⟩,
    ⟨fun h => ⟨?edge, fun run h0 ht hr => ?timer⟩, fun h => ⟨?awake, fun run => exec_wakeTimerExpire_awake h⟩⟩,
    fun hs req => ⟨fun hn hm => ?pending, fun h => ?denied⟩⟩
  case refused => exact (exec_domEnWrite_served hs hi v).trans (congrArg _ (domEnWrite_refused (s := s.start) h))
  case stored => exact (exec_domEnWrite_served hs hi v).trans (congrArg _ (domEnWrite_stored (s := s.start) h))
  case edge => exact congrArg Host.Outcome.next (wake_asleep (s := s.start) h)
  case timer => exact (exec_wakeTimerExpire_due h0 ht hr).trans (congrArg _ (wake_asleep (s := s.start) h))
  case awake => exact congrArg Host.Outcome.next (wake_awake (s := s.start) h)
  case pending => exact (exec_modeRequest_served hs req).trans (congrArg _ (modeRequest_pending (s := s.start) hn hm))
  case denied => exact (exec_modeRequest_served hs req).trans (congrArg _ (modeRequest_refused (s := s.start) h))

end Sys2Proof.Machine

/-! What a soft reset leaves alone: the mode, the domains and DOM_EN (R391, R397, R398). -/
namespace Sys2Proof.Machine
open Sys2Proof

variable {s t u : State} {n : Nat}

theorem State.raise_pow (p : Page) (i b : Nat) : (s.raise p i b).pow = s.pow := by rw [State.raise_reports]

/-- READY is kept for the next comparison, and no more of the domains changes. -/
theorem State.readyChk_pow (s : State) : ∃ w, s.readyChk.pow = { s.pow with lastReady := w } := by
  by_cases h : s.readyWord = s.pow.lastReady
  · exact ⟨s.pow.lastReady, congrArg State.pow (if_pos h)⟩
  · exact ⟨s.readyWord, (congrArg State.pow (if_neg h)).trans (State.raise_pow ..)⟩

/-- The mode and the requested domains. -/
def domFields : List Fld := [R.GLOBAL_MODE_STAT_CUR, R.POWER_DOM_EN0_EN, R.POWER_DOM_EN1_EN]

/-- `t` has the domains, the reset phase, the mode and DOM_EN of `s`. -/
structure DomKept (s t : State) : Prop where
  on : t.pow.on = s.pow.on
  up : t.pow.up = s.pow.up
  phase : t.pow.phase = s.pow.phase
  fields : State.SameIn domFields s t

/-- Field `f` lies on the page of a lane. -/
def Fld.onLane (f : Fld) : Bool :=
  (f.page == .lanep || f.page == .lanef) && decide (f.stride = 0) && decide (f.off < 0x1000) && decide (f.lsb < 64)

/-- ABORT shows the transaction `f` that is cut at target `k`. -/
def State.abortShown (s : State) (k : Nat) (f : Inflight) : State :=
  ((((s.wr R.MATRIX_ABORT_VALID 1).wr R.MATRIX_ABORT_MASTER f.req.m).wr R.MATRIX_ABORT_TARGET k).wrB R.MATRIX_ABORT_WRITE f.req.write).wr
    R.MATRIX_ABORT_ADDR_ADDR f.req.addr

namespace DomKept

theorem refl (s : State) : DomKept s s := ⟨rfl, rfl, rfl, .refl s⟩

theorem trans (h : DomKept s t) (k : DomKept t u) : DomKept s u :=
  ⟨k.on.trans h.on, k.up.trans h.up, k.phase.trans h.phase, h.fields.trans k.fields⟩

theorem ite (c : Prop) [Decidable c] (h : DomKept s t) (k : DomKept s u) : DomKept s (if c then t else u) := by
  split <;> assumption

theorem foldl {α : Type} (f : State → α → State) (l : List α) (h : ∀ s, ∀ x ∈ l, DomKept s (f s x)) (s : State) : DomKept s (l.foldl f s) := by
  induction l generalizing s with
  | nil => exact .refl s
  | cons x l ih => exact (h s x (by simp)).trans (ih (fun s y hy => h s y (by simp [hy])) _)

theorem of_pow (h : t.pow = s.pow) (k : State.SameIn domFields s t) : DomKept s t := ⟨by rw [h], by rw [h], by rw [h], k⟩

theorem of_reports (h : s.Reports t) (k : State.SameIn domFields s t) : DomKept s t := of_pow (by rw [h]) k

theorem wr {f : Fld} (v : Nat) (h : ∀ g ∈ domFields, g.key 0 0 ≠ f.key 0 0) : DomKept s (s.wr f v) :=
  of_reports (State.wr_reports ..) (State.wr_sameIn v h)

theorem raise (p : Page) (i b : Nat) (hi : i < pageCount p) : DomKept s (s.raise p i b) :=
  of_reports (State.raise_reports ..) (State.raise_sameIn (by decide) p i b hi)

theorem count (p : Page) (i c : Nat) (hi : i < pageCount p) : DomKept s (s.count p i c) :=
  of_reports (State.count_reports ..) (State.count_sameIn (by decide) p i c 1 hi)

theorem readyChk : DomKept s s.readyChk := by
  obtain ⟨w, pow⟩ := s.readyChk_pow
  refine ⟨by rw [pow], by rw [pow], by rw [pow], ?_⟩
  unfold State.readyChk
  dsimp only
  refine .ite _ (.refl s) ((State.SameIn.of_regs ?_).trans (State.raise_sameIn (by decide) .global 0 2 (by decide)))
  rfl

/-! The lanes. -/

section
variable (hn : n < 64)
include hn

/-- A field of a lane is none of these. -/
theorem wrLane {f : Fld} (v : Nat) (h : f.onLane = true) : DomKept s (s.wr f v n) := by
  simp only [Fld.onLane, Bool.and_eq_true, Bool.or_eq_true, beq_iff_eq, decide_eq_true_eq] at h
  obtain ⟨⟨⟨page, stride⟩, off⟩, lsb⟩ := h
  have placed : f.Placed n 0 := ⟨by rcases page with e | e <;> rw [e] <;> exact hn, by simpa [stride] using off, lsb⟩
  refine of_reports (State.wr_reports ..) fun g hg => ?_
  obtain ⟨gplaced, -, -⟩ := Fld.steady_iff.1 ((by decide : ∀ g ∈ domFields, g.steady = true) g hg)
  have other : f.page ≠ g.page := by
    have away := (by decide : ∀ g ∈ domFields, g.page ≠ .lanep ∧ g.page ≠ .lanef) g hg
    rcases page with e | e <;> rw [e]
    · exact away.1.symm
    · exact away.2.symm
  exact State.rd_wr_other v placed gplaced (.inl other)

theorem setRaw (b : Nat) (v : Bool) : DomKept s (s.setRaw .lanef n b v) :=
  of_reports (State.wr_reports ..) (State.setRaw_sameIn (by decide) .lanef n b v hn)

omit hn in
theorem updLane (f : Lane → Lane) : DomKept s (s.updLane n f) := of_pow rfl (.of_regs rfl)

theorem eyeStop : DomKept s (s.eyeStop n) :=
  .ite _ (.refl s) (((wrLane hn 0 (by decide)).trans (wrLane hn 1 (by decide))).trans (raise .lanep n 5 hn))

omit hn in
theorem integStart (b : Nat) (v : Bool) : DomKept s (s.integStart n b v) := by
  unfold State.integStart
  exact trans (updLane _) (.ite _ (updLane _) (.ite _ (updLane _) (.refl _)))

theorem setRawDef (b : Nat) (v : Bool) : DomKept s (s.setRawDef n b v) := by
  have stored {x : Nat} : DomKept s (s.wr R.LANEF_DEF_RAW_DEFECTS x n) := wrLane hn x (by decide)
  exact .ite _ (.refl s) (.ite _ stored (stored.trans (integStart b v)))

theorem setDef (b : Nat) (v : Bool) : DomKept s (s.setDef n b v) :=
  .ite _ (.refl s) (((wrLane hn _ (by decide)).trans (setRaw hn b v)).trans (raise .lanef n b hn))

theorem enterSearch : DomKept s (s.enterSearch n) := by
  have dropped : DomKept s (if (s.lane n).cell.isSome then s.cellDropped n else s) :=
    .ite _ ((count .lanef n 7 hn).trans (raise .lanef n 17 hn)) (.refl s)
  have shows {v : State} : DomKept v (v.showCands n) := (wrLane hn _ (by decide)).trans (wrLane hn _ (by decide))
  have search {v : State} : DomKept v (v.wr R.LANEF_STATE_SYNC 0 n) := wrLane hn 0 (by decide)
  have oof {v : State} {x : Nat} : DomKept v (v.wr R.LANEF_DEF_RAW_DEFECTS x n) := wrLane hn x (by decide)
  have ends {v : State} : DomKept v ((v.setDef n 2 true).setRawDef n 3 true) := (setDef hn 2 true).trans (setRawDef hn 3 true)
  exact .ite _ (.refl s) (((((dropped.trans (updLane _)).trans search).trans shows).trans oof).trans ends)

theorem judgeLos : DomKept s (s.judgeLos n) := .ite _ ((setRawDef hn 0 true).trans (enterSearch hn)) (setRawDef hn 0 false)

theorem judgeLol : DomKept s (s.judgeLol n) :=
  .ite _ (((eyeStop hn).trans (setRawDef hn 1 true)).trans (enterSearch hn)) (setRawDef hn 1 false)

theorem softLane : DomKept s (s.softLane n) := by
  unfold State.softLane
  dsimp only
  have loop {v : State} : DomKept v (v.wr R.LANEP_CTL_LOOP 0 n) := wrLane hn 0 (by decide)
  have active {v : State} : DomKept v (v.wr R.LANEP_STAT_LOOP_ACTIVE 0 n) := wrLane hn 0 (by decide)
  have dropped {f : Lane → Lane} : DomKept s ((((s.eyeStop n).wr R.LANEP_CTL_LOOP 0 n).wr R.LANEP_STAT_LOOP_ACTIVE 0 n).updLane n f) :=
    (((eyeStop hn).trans loop).trans active).trans (updLane f)
  exact .ite _ ((dropped.trans (judgeLos hn)).trans (judgeLol hn)) dropped
end

/-! The compiler and the matrix. -/

theorem commitGone : DomKept s s.commitGone := by
  have none : DomKept s { s with mc := { s.mc with commit := none } } := of_pow rfl (.of_regs rfl)
  have pending {v : State} : DomKept v (v.wr R.MAPC_COMMIT_STAT_PENDING 0) := wr 0 (by decide)
  have cut {v : State} {b : Bool} : DomKept v (v.wrB R.MAPC_COMMIT_STAT_CUT b) := wr _ (by decide)
  exact (none.trans pending).trans cut

theorem listEnd : DomKept s s.listEnd :=
  ((wr 0 (by decide)).trans (raise .mapc 0 2 (by decide))).trans (of_pow rfl (.of_regs rfl))

theorem softMapc : DomKept s s.softMapc := by
  have gone : DomKept s (if s.mc.commit.isSome then s.commitGone.wr R.MAPC_COMMIT_STAT_CANCELLED 1 else s) :=
    .ite _ (commitGone.trans (wr 1 (by decide))) (.refl s)
  have dropped {v : State} {mc : Compiler} {mate : Mate} : DomKept v { v with mc := mc, mate := mate } := of_pow rfl (.of_regs rfl)
  have list {v : State} : DomKept v (if v.on R.MAPC_STAT_LIST_BUSY then v.listEnd else v) := .ite _ listEnd (.refl v)
  have cleared {v : State} : DomKept v ([R.MAPC_STAT_READY, R.MAPC_COMMIT_STAT_SUM_BUSY, R.MAPC_COMMIT_STAT_SUM_VALID,
      R.MAPC_COMMIT_STAT_EDIT_SUM_VALID].foldl (fun s f => s.wr f 0) v) :=
    (((wr 0 (by decide)).trans (wr 0 (by decide))).trans (wr 0 (by decide))).trans (wr 0 (by decide))
  exact ((gone.trans dropped).trans list).trans cleared

theorem recordRecovery (c w : Nat) : DomKept s (s.recordRecovery c w) :=
  ((((wr _ (by decide)).trans (wr c (by decide))).trans (wr w (by decide))).trans (raise .global 0 3 (by decide))).trans
    (count .global 0 3 (by decide))

theorem recover (c w : Nat) : DomKept s (s.recover c w) := by
  unfold State.recover
  split
  · exact ⟨rfl, rfl, rfl, .of_regs rfl⟩
  · exact recordRecovery c w

theorem abortOne (k : Nat) (f : Inflight) : DomKept s (s.abortOne k f) := by
  have cut : DomKept s { s with mx := { s.mx with inflight := mdel s.mx.inflight k } } := of_pow rfl (.of_regs rfl)
  have shown {v : State} : DomKept v (v.abortShown k f) :=
    ((((wr _ (by decide)).trans (wr _ (by decide))).trans (wr _ (by decide))).trans (wr _ (by decide))).trans (wr _ (by decide))
  exact (((cut.trans shown).trans (raise .matrix 0 3 (by decide))).trans (count .matrix 0 5 (by decide))).trans (recover _ _)

theorem resetMasters (ms : List Nat) : DomKept s (s.resetMasters ms) := by
  have dropped {mx : Matrix} : DomKept s { s with mx := mx } := of_pow rfl (.of_regs rfl)
  exact dropped.trans (foldl (α := Nat × Inflight) _ _ (fun s x _ => abortOne x.1 x.2) _)

/-! The begin and the end of a soft reset. -/

/-- The registers that a soft reset keeps hold these fields (R17). -/
theorem keepSoft : DomKept s { s with regs := mapKeep keptSoft s.regs } := by
  refine of_pow rfl fun g hg => ?_
  have kept : keptSoft (g.key 0 0) = true := (by decide : ∀ g ∈ domFields, keptSoft (g.key 0 0) = true) g hg
  simp only [State.rd, mapGet, mget?_mapKeep, kept, if_true]

end DomKept

/-- A soft reset that begins keeps the domains, the mode and DOM_EN; its phase is its own. -/
theorem softBegin_kept (s : State) : ∃ v, v.pow.phase = .soft ∧ v.pow.on = s.pow.on ∧ v.pow.up = s.pow.up ∧
    State.SameIn domFields s v ∧ DomKept v s.softBegin := by
  have lanes : DomKept s ((List.range 64).foldl State.softLane s.holdPins) :=
    DomKept.trans (t := s.holdPins) (.of_pow rfl (.of_regs rfl)) (.foldl _ _ (fun s n hn => .softLane (List.mem_range.1 hn)) _)
  have ended := lanes.trans .softMapc
  refine ⟨(((List.range 64).foldl State.softLane s.holdPins).softMapc).softDrop, rfl, ended.on, ended.up, ended.fields.trans (.of_regs rfl), ?_⟩
  exact (((DomKept.keepSoft.trans (.wr _ (by decide))).trans (.wr _ (by decide))).trans (.wr 2 (by decide))).trans (.resetMasters _)

/-- Running again, with no recovery held back. -/
def State.softOver (s : State) : State := { s with pow := { s.pow with phase := .running, heldRec := [] } }

theorem softEnd_kept (s : State) : DomKept s.softOver s.softEnd := by
  have ready : DomKept s.softOver (if s.softOver.mc.inited && !s.softOver.on R.MAPC_COMMIT_STAT_CATCHUP
      then s.softOver.wr R.MAPC_STAT_READY 1 else s.softOver) := .ite _ (.wr 1 (by decide)) (.refl _)
  have told := (ready.trans (.count .global 0 2 (by decide))).trans (.raise .global 0 4 (by decide))
  exact (told.trans (.foldl _ _ (fun s x _ => .recordRecovery x.1 x.2) _)).trans .readyChk

theorem exec_softReset_key (hs : s.served .global 0 = true) : exec (.softReset 0x5A17C0DE) s = .next s.start.softBegin :=
  (State.onPage_served (f := fun t => t.softReset (0x5A17C0DE : W32).toNat) hs).trans (congrArg _ (if_pos (by decide)))

theorem exec_softResetEnd_soft (h : s.pow.phase = .soft) : exec .softResetEnd s = .next s.start.softEnd := if_pos h

end Sys2Proof.Machine

/-! The mode and the domains after power-on and RESET_N (R374, R391, R394, R395). -/
namespace Sys2Proof.Machine
open Sys2Proof

variable {s t : State} {st : Straps}

/-- In BRINGUP a domain from 3 on is to come on when it is requested, not shed and not due to go off (R381, R383, R388). -/
theorem wanted_bringup {d : Nat} (hm : s.mode = mBRINGUP) (hd : 3 ≤ d) :
    s.wanted d = (s.requested d && !(s.pow.vinFailed && s.pow.shed.getLsbD d) && !s.pow.offDue.getLsbD d) := by
  have away : ¬ d < 3 := Nat.not_lt.2 hd
  simp [State.wanted, hm, away, mBRINGUP, mSLEEP, trafficMode]

/-- Where the registers kept leave the mode out it is BRINGUP, its reset value. -/
theorem mode_mapKeep {p : Nat → Bool} (hp : p (R.GLOBAL_MODE_STAT_CUR.key 0 0) = false) (ht : t.regs = mapKeep p s.regs) :
    t.mode = mBRINGUP := by
  simp only [State.mode, State.rd, ht, mapGet, mget?_mapKeep, hp, Bool.false_eq_true, if_false]
  rfl

theorem strap_mode : (s.strap st).mode = s.mode := by
  have kept : State.SameIn [R.GLOBAL_MODE_STAT_CUR] s (s.strap st) :=
    ((State.wr_sameIn _ (by decide)).trans (State.wr_sameIn _ (by decide))).trans (State.wr_sameIn _ (by decide))
  exact kept _ (by simp)

theorem newAuthSeq_mode : s.newAuthSeq.mode = s.mode := by
  have kept : State.SameIn [R.GLOBAL_MODE_STAT_CUR] s s.newAuthSeq :=
    (State.SameIn.of_regs (t := s.takeFresh) rfl).trans (State.wr_sameIn _ (by decide))
  exact kept _ (by simp)

theorem wipeKeys_pow : s.wipeKeys.pow = s.pow := by
  unfold State.wipeKeys
  rw [State.clearWords_reports R.SECURE_RESP_RESP 4]
  rfl

theorem lcEnd_pow (target : Nat) : (s.lcEnd target).pow = s.pow := by
  simp only [lcEnd_eq, State.lcRegs, State.newAuthSeq, State.wr_pow]
  exact wipeKeys_pow

theorem wipeKeys_mode : s.wipeKeys.mode = s.mode := by
  have cleared : State.SameIn [R.GLOBAL_MODE_STAT_CUR] s { s with sec := { s.sec with kId := [], kAuth := [], resp := none } } := .of_regs rfl
  have kept : State.SameIn [R.GLOBAL_MODE_STAT_CUR] s s.wipeKeys :=
    ((((cleared.trans (State.wr_sameIn 0 (by decide))).trans (State.wr_sameIn 0 (by decide))).trans (State.wr_sameIn 0 (by decide))).trans
      (State.wr_sameIn 0 (by decide))).trans (State.clearWords_sameIn (by decide))
  exact kept _ (by simp)

theorem lcEnd_mode (target : Nat) : (s.lcEnd target).mode = s.mode := by
  have regs : State.SameIn [R.GLOBAL_MODE_STAT_CUR] s.wipeKeys.newAuthSeq (s.lcRegs target) :=
    (((((State.wr_sameIn 0 (by decide)).trans (State.wr_sameIn 0 (by decide))).trans (State.wr_sameIn 0 (by decide))).trans
      (State.wr_sameIn 0 (by decide))).trans (State.wr_sameIn _ (by decide))).trans (State.wr_sameIn 0 (by decide))
  have ended : (s.lcEnd target).mode = s.wipeKeys.newAuthSeq.mode := regs _ (by simp)
  exact ended.trans (newAuthSeq_mode.trans wipeKeys_mode)

theorem wipePending_mode : s.wipePending.mode = s.mode := by
  unfold State.wipePending
  split
  · rfl
  · exact lcEnd_mode _

theorem wipePending_pow : s.wipePending.pow = s.pow := by
  unfold State.wipePending
  split
  · rfl
  · exact lcEnd_pow _

/-- The state at PGOOD. -/
def State.poweredOn (s : State) (st : Straps) : State :=
  { ((s.bare.strap st).wipePending).newAuthSeq with
    pcie := { ((s.bare.strap st).wipePending).newAuthSeq.pcie with released := s.pcie.released, link := false } }

theorem exec_powerOn_eq : exec (.powerOn st) s = .next (s.start.poweredOn st) := rfl

theorem poweredOn_mode : (s.poweredOn st).mode = mBRINGUP := by
  have bare : s.bare.mode = mBRINGUP := mode_mapKeep (s := s) (by decide) rfl
  exact newAuthSeq_mode.trans (wipePending_mode.trans (strap_mode.trans bare))

theorem poweredOn_pow : (s.poweredOn st).pow = { claimWire := s.pow.claimWire, gaspWire := s.pow.gaspWire } := wipePending_pow (s := s.bare.strap st)

/-- Management and timing run beside what was powered, and network time starts. -/
def State.rerun (s : State) : State :=
  { s with pow := { s.pow with phase := .running, on := s.pow.on ||| 0b111, up := 0b111 }, nt := s.ntFresh }

/-- RESET_N is released: the unit runs again under the new straps. -/
def State.restarted (s : State) (st : Straps) : State :=
  (((s.rerun.strap st).wr R.POWER_STAT_WAKE_CAUSE 4).wr R.GLOBAL_RESET_STAT_KIND 1).readyChk

theorem exec_resetNAssert_powered (h : s.pow.phase ≠ .unpowered) : exec .resetNAssert s = .next s.start.heldInReset := if_neg h

theorem exec_resetNRelease_reset (h : s.pow.phase = .resetN) : exec (.resetNRelease st) s = .next (s.start.restarted st) :=
  if_neg (by simp [h])

theorem heldInReset_mode : s.heldInReset.mode = mBRINGUP := mode_mapKeep (s := s) (by decide) rfl

theorem restarted_mode : (s.restarted st).mode = s.mode := by
  have kept : State.SameIn domFields (s.rerun.strap st) (s.restarted st) :=
    ((State.wr_sameIn 4 (by decide)).trans (State.wr_sameIn 1 (by decide))).trans DomKept.readyChk.fields
  have mode : (s.restarted st).mode = (s.rerun.strap st).mode := kept _ (by simp [domFields])
  exact mode.trans strap_mode

theorem restarted_pow : ∃ w, (s.restarted st).pow = { s.pow with phase := .running, on := s.pow.on ||| 0b111, up := 0b111, lastReady := w } :=
  State.readyChk_pow _

/-- Settles O51, reset by reset. -/
theorem modesAfterReset : Obligations.ModesAfterReset := by
  unfold Obligations.ModesAfterReset
  refine ⟨fun st s => ?on, fun st s h => ?resetN, fun s hs => ?soft, fun s h => ?done⟩
  case on =>
    have pow := poweredOn_pow (s := s.start) (st := st)
    refine ⟨_, exec_powerOn_eq, poweredOn_mode, by rw [pow], by rw [pow], by rw [pow], fun d hd => ?_⟩
    rw [wanted_bringup poweredOn_mode hd, pow]
    simp
  case resetN =>
    obtain ⟨w, pow⟩ := restarted_pow (s := s.start.heldInReset.start) (st := st)
    have mode : (s.start.heldInReset.start.restarted st).mode = mBRINGUP := restarted_mode.trans (heldInReset_mode (s := s.start))
    refine ⟨_, _, exec_resetNAssert_powered h, exec_resetNRelease_reset rfl, mode, by rw [pow], by rw [pow]; rfl, by rw [pow], fun d hd => ?_⟩
    rw [wanted_bringup mode hd, pow]
    simp [State.heldInReset]
  case soft =>
    obtain ⟨v, phase, on, up, fields, kept⟩ := softBegin_kept s.start
    exact ⟨_, exec_softReset_key hs, kept.phase.trans phase, (fields.trans kept.fields) _ (by simp [domFields]), kept.on.trans on,
      kept.up.trans up, (fields.trans kept.fields) _ (by simp [domFields]), (fields.trans kept.fields) _ (by simp [domFields])⟩
  case done =>
    have kept := softEnd_kept s.start
    exact ⟨_, exec_softResetEnd_soft h, kept.phase, kept.fields _ (by simp [domFields]), kept.on, kept.up,
      kept.fields _ (by simp [domFields]), kept.fields _ (by simp [domFields])⟩

end Sys2Proof.Machine
